-- ==== Sys2Proof/Word.lean ====
section
/-!
DEFINITION. The word types of the SVT-1280 and the plain table type the state is built from.
-/
namespace Sys2Proof

/-- A register or message word (spec 17 R398, 16 R378). -/
abbrev Word := BitVec 32

/-- An octet. -/
abbrev Octet := BitVec 8

/-- A running counter: 40 bits, wrapping (10 R247, 12 R303). -/
abbrev Cnt := BitVec 40

/-- The 40-bit internal data word (01 R19). -/
abbrev LaneWord := BitVec 40

/-- An absolute device time in phase units since AON release: 32,768 × E + phase (02 R35, R41). -/
abbrev Time := Nat

/-- Sparse data by number: keys strictly rising, see `Tbl.wf` in Machine/Ops.lean. -/
abbrev Tbl (α : Type) := List (Nat × α)

end Sys2Proof
end

