-- ==== Sys2Proof/Syntax.lean ====
section
/-!
DEFINITION. The commands of the block: one constructor of `Instr` per row of the opcode table, with its operands.
An Etlum row's operand is the message a client posts; an access row's operand is the bus access; an event row's
operand is what the device's receivers, pins or sensors observe.
-/
namespace Sys2Proof

/-- A message on a mailbox channel: W0 is built from the row's class and command, `tag`, `count` and `ver` (16 R378);
`ws` holds W1 onward. -/
structure Msg where
  ch : Nat
  tag : Octet
  count : BitVec 4
  ver : BitVec 4
  ws : List Word
deriving DecidableEq, Repr

/-- A register access by a master (15 R364). `whole`: one aligned 32-bit word with all byte enables (17 R398). -/
structure Acc where
  master : Nat
  data : Word
  whole : Bool
deriving DecidableEq, Repr

/-- An access on the bus matrix by a matrix address (15 R359, R361); `whole`: one aligned word with every byte enable
(17 R398). -/
structure Miss where
  master : Nat
  addr : Nat
  write : Bool
  whole : Bool
deriving DecidableEq, Repr

/-- What caused the AON power-on reset (19 R436, R437). -/
inductive PorCause where
  | porPin
  | aonSupply
deriving DecidableEq, Repr

/-- Pins sampled at the AON reset release (13 R306, 18 R430, 20 R461, 13 R314, 19 R445). -/
structure PorPins where
  oscsel : Bool
  testMode : Bool
  i2caddr : BitVec 2
  refsel : BitVec 4
  bootsel : Bool
deriving DecidableEq, Repr

/-- The PCIe reset events that name PF0 (15 R373). -/
inductive PcieReset where
  | conventional
  | linkDown
  | flrPf0
deriving DecidableEq, Repr

/-- One rail's sample: voltage in mV, current in 10 mA (14 R333, 17 R407). -/
structure RailSample where
  mv : Nat
  ma10 : Nat
deriving DecidableEq, Repr

/-- A register whose stored copies the scrub found failing (17 R408): one copy, or both. -/
structure ScrubFinding where
  offset : Nat
  both : Bool
deriving DecidableEq, Repr

/-- What a scrub pass finds: registers, and configuration words of contexts by T number and word (17 R408; 07 R175). -/
structure ScrubPass where
  regs : List ScrubFinding
  ctx : List (Nat × Nat) := []
deriving DecidableEq, Repr

/-- An object that holds a configuration bank, or the device (02 R51, R52). -/
inductive Obj where
  | dev
  | lane (n : Nat)
  | port (n : Nat)
  | trib (t : Nat)
  | group (g : Nat)
  | stream (t : Nat)
deriving DecidableEq, Repr

/-- A direction of a port or container (02 R42). -/
inductive Dir where
  | rx
  | tx
deriving DecidableEq, Repr

/-- What a boot stage finds: the ROM checksum, and the HBM channels that fail training (19 R438). -/
structure BootInfo where
  romOk : Bool
  hbmFailed : List Nat
deriving DecidableEq, Repr

/-- Outcome of auto-negotiation (03 R75, R57): the partner's abilities, the resolved technology as IEEE 802.3 codes it,
and the port type (16 R393) that is that technology. -/
structure AnResult where
  tech : Word
  fec : Word
  resolved : Word
  typ : Nat
deriving DecidableEq, Repr

/-- The raw insertion-loss estimate of a lane at a gate end, in 0.1 dB (03 R77). -/
structure IlSample where
  lane : Nat
  il : Nat
deriving DecidableEq, Repr

/-- A marker period at the expected position: the 16 words of its marker block, and the payload words that follow it
(03 R65, R68). -/
structure IlfMarker where
  words : List Word
  payload : List Word
deriving DecidableEq, Repr

/-- A received SONET/SDH frame: its 2,430 × N octets as on the line, at the expected position, and the lane words of
four octets of them that arrive with poison (04 R85, R89, R100). -/
structure SdhFrame where
  octets : List Octet
  bad : List Nat
deriving DecidableEq, Repr

/-- What the FEC decoder counted in a frame (05 R126, 06 R144). -/
structure FecCounts where
  cw : Nat
  bits : Nat
  ones : Nat
  zeros : Nat
  sym : Nat
  uncorr : Nat
deriving DecidableEq, Repr

/-- A received OTU frame period, at the expected position: the octets of each OTUC slice, the lane words of each that arrive
with poison, and whether the line holds the generic OTUk-AIS pattern (05 R116, R129, R142). An OTUk has one slice of 16,320
octets as on the line; a slice of an OTUCn has the 15,296 that FlexO termination leaves (log entry 77). -/
structure OtuFrame where
  slices : List (List Octet)
  bad : List (List Nat)
  ais : Bool
deriving DecidableEq, Repr

/-- A received frame of a lower-order ODU at the expected position: its 15,296 octets, and the lane words that arrive with
poison (05 R139). -/
structure OduFrame where
  octets : List Octet
  bad : List Nat
deriving DecidableEq, Repr

/-- A frame of one FlexO lane: its markers and overhead, the lane's skew, and the codewords of 544 symbols that it brings
(05 R122-R125). -/
structure FlexoFrame where
  markersOk : Bool
  crcOk : Bool
  mfEnd : Bool
  gid : BitVec 20
  pid : Octet
  map : List Octet
  rpf : Bool
  skewNs : Nat
  codewords : List (List Nat)
deriving DecidableEq, Repr

/-- IEEE 802.3 link-fault state (10 R232). -/
inductive LinkFault where
  | ok
  | local_
  | remote
deriving DecidableEq, Repr

/-- What the RS-FEC decoder of an Ethernet port counted: codewords, those it corrected or would have corrected,
uncorrectable ones, and corrected symbols of each FEC lane (06 R144). -/
structure EthFec where
  cw : Nat := 0
  corr : Nat := 0
  uncorr : Nat := 0
  syms : List Nat := []
deriving DecidableEq, Repr

/-- The PCS state variables of an Ethernet port or FlexE PHY (06 R144). -/
structure PcsVars where
  blockLock : Bool
  amLock : Bool
  deskewed : Bool
  hiBer : Bool
  fault : LinkFault
  fec : EthFec
deriving DecidableEq, Repr

/-- The variables of one PHY of a port; PHY 0 of an Ethernet port. -/
structure PhyVars where
  phy : Nat := 0
  v : PcsVars
deriving DecidableEq, Repr

/-- A received 66B block (06 R145). -/
structure Block66 where
  sync : BitVec 2
  payload : BitVec 64
  uncorr : Bool
deriving DecidableEq, Repr

/-- A block of a port's block stream as received, and the bits of it that the FEC decoder corrects, in the order sync
header, payload (06 R144, R145). -/
structure EthBlock where
  block : Block66
  fix : BitVec 66 := 0
deriving DecidableEq, Repr

/-- A received Ethernet frame, destination address to FCS, as received; the bits of it that the FEC decoder corrects; and
whether a block of it comes of an uncorrectable codeword (06 R144, R146). -/
structure EthFrame where
  octets : List Octet
  fix : List Octet := []
  uncorr : Bool := false
deriving DecidableEq, Repr

/-- A received ESMC PDU, and the PHY of a FlexE group that it came from, 0 on an Ethernet port (06 R148, 13 R313). -/
structure Esmc where
  phy : Nat := 0
  event : Bool
  valid : Bool
  ql : BitVec 4
deriving DecidableEq, Repr

/-- A received priority flow control frame: enabled priorities and their times in quanta (12 R298). -/
structure PfcFrame where
  vec : BitVec 8
  times : List Nat
deriving DecidableEq, Repr

/-- A FlexE or MTN overhead frame of one instance (06 R150-R153). `cal` holds the advertised client of each slot of
the bank the frame describes. -/
structure FlexeFrame where
  locked : Bool
  mfLocked : Bool
  crcOk : Bool
  mfEnd : Bool
  skewNs : Nat
  c : List Bool
  rpf : Bool
  group : BitVec 20
  phy : Octet
  map : List Octet
  bankB : Bool
  cal : List Nat
  cr : Bool
  ca : Bool
deriving DecidableEq, Repr

/-- A received BAS block (06 R155). -/
structure BasBlock where
  bip : Octet
  own : Octet
  rei : Octet
  rdi : Bool
  cs : Bool
deriving DecidableEq, Repr

/-- A block at an expected overhead-grain position (06 R157). -/
structure FgGrain where
  payload : BitVec 64
  poisoned : Bool
deriving DecidableEq, Repr

/-- An octet with the poison of the lane word that brought it. -/
abbrev POct := Octet × Bool

/-- A justification opportunity group of AMP or BMP as received: the three JC bytes, the octets of NJO and PJO, and the
client octets between them and the next group (07 R176). -/
structure AmpRx where
  jc : List POct
  njo : POct
  pjo : POct
  data : List POct
deriving DecidableEq, Repr

/-- A container period of a PDH client as received: the copies of C1 and C2 with the poison of each, the bits at S1 and S2,
the other client bits, and whether a word of the payload came poisoned (07 R181, R194). -/
structure PdhRx where
  c1 : List (Bool × Bool)
  c2 : List (Bool × Bool)
  s1 : Bool
  s2 : Bool
  data : List Bool
  poisoned : Bool
deriving DecidableEq, Repr

/-- A justification opportunity group of a tributary: the group received, if any, and the front word of the transmit store
as it is read where that differs from the stored one (07 R176; 01 R23). -/
structure AmpEvent where
  t : Nat
  rx : Option AmpRx := none
  hit : Option LaneWord := none
deriving DecidableEq, Repr

/-- A container period of a PDH client: as the group above (07 R181; 01 R23). -/
structure PdhEvent where
  t : Nat
  rx : Option PdhRx := none
  hit : Option LaneWord := none
deriving DecidableEq, Repr

/-- A control block on an ILF lane: block `blk` of the period (03 R64). -/
structure IlfControl where
  lane : Nat
  blk : Nat
deriving DecidableEq, Repr

/-- The bits in which a port out of frame searches its pattern (04 R85; 05 R116). -/
structure Searched where
  port : Nat
  bits : List Bool
deriving DecidableEq, Repr

/-- A GMP period as received: JC1 to JC6, and the octets of its payload (07 R179, R180). -/
structure GmpJc where
  jc : List POct
  payload : List POct
deriving DecidableEq, Repr

/-- What follows in a GFP container: a core header as on the line, whether it came poisoned, and the octets after it,
scrambled, as far as the PLI reaches (07 R183, R184). -/
structure GfpFrame where
  core : Word
  poisoned : Bool
  area : List POct
deriving DecidableEq, Repr

/-- A slice's visit of a context (09 R226, 07 R175): the context words that read otherwise than they are stored, how many
words of the receive store it takes, and whether a container frame is to be transmitted. -/
structure Visit where
  reads : List (Nat × LaneWord)
  rx : Nat
  tx : Bool
deriving DecidableEq, Repr

/-- The FIFO classes (08 R195). -/
inductive FifoCls where
  | esRx
  | esTx
  | pktIn
  | pktOut
  | xc
  | pbq
  | cdma
deriving DecidableEq, Repr

/-- One FIFO: its class and its instance number. -/
structure FifoId where
  cls : FifoCls
  inst : Nat
deriving DecidableEq, Repr

/-- A monitored layer (object index of 10 R245 with counter number 0) and a defect bit of it. -/
structure FailureId where
  layer : Nat
  bit : Nat
deriving DecidableEq, Repr

/-- A member frame at the selector slice of an errorless group (11 R275). -/
structure ErrlFrame where
  prot : Bool
  num : Nat
  words : List LaneWord
  bipOk : Bool
  failed : Bool
  arrived : Nat
  uncorr : List Nat := []
deriving DecidableEq, Repr

/-- A slot's measurement over a gate: valid, and the offset against OSC_IN in 0.001 ppm before ffo_cal (13 R311). -/
structure GateMeas where
  valid : Bool
  off : Int
deriving DecidableEq, Repr

/-- What a DPLL's detectors read in a phase unit: phase error in 0.1 ns, frequency error in 0.0001 ppm, and the phase
of the input against the output in 0.1 ns for a build-out (13 R317, R321, R322). -/
structure DpllMeas where
  phase : Int
  freq : Int
  residual : Nat
deriving DecidableEq, Repr

/-- A block of the shadow frame as the source and the destination copy put it out, and whether it is indeterminate in either
(14 R342, R343; 09 R230). -/
structure ShadowBlock where
  src : List LaneWord
  dst : List LaneWord
  srcIndet : Bool
  dstIndet : Bool
deriving DecidableEq, Repr

/-- Why a migration aborts (14 R344). -/
inductive AbortCause where
  | mismatch
  | srcFault
  | dstFault
  | xcFault
  | engineFault
deriving DecidableEq, Repr

/-- The commands of the block, in the order of spec/opcode_table.json. -/
inductive Instr where
  /-- DEVICE_INFO_GET: query: protocol and firmware version, variant, boot_count, T range owned (R395). -/
  | deviceInfoGet (m : Msg)
  /-- CS_COMMIT: R380 items 4-8 on every member of the sender's open set, one trigger for all (R390, R49). -/
  | csCommit (m : Msg)
  /-- CS_ABORT: discards an open change set of the sender (R390). -/
  | csAbort (m : Msg)
  /-- LAST_ERROR_GET: the channel's last acknowledge other than OK and ACCEPTED_DEFERRED, with its 32-bit detail (R382). -/
  | lastErrorGet (m : Msg)
  /-- OWNER_SET: new owner of a lane, port, tributary with children, or group, at the octet boundary (R384). -/
  | ownerSet (m : Msg)
  /-- CFG_LOCK: PF0 sets or clears the configuration lock (R385). -/
  | cfgLock (m : Msg)
  /-- DEVICE_CONFIG: rewrites octet 4 and the CRC-32 of the boot configuration block in flash (R441). -/
  | deviceConfig (m : Msg)
  /-- DEVICE_STANDBY: AON-only standby: every switchable domain and the fixed domain off (R331). -/
  | deviceStandby (m : Msg)
  /-- ECHO: returns the free words as one item in one reply fragment (R395). -/
  | echo (m : Msg)
  /-- LANE_CONFIG: lane configuration at the octet boundary, PLL, port and training checks (R55, R56, R76). -/
  | laneConfig (m : Msg)
  /-- PORT_CREATE: port creation, numbering, lane set, slot and rate checks (R59-R63, R67, R82, R113, R114, R143, R149). -/
  | portCreate (m : Msg)
  /-- PORT_DELETE: port deletion unless grouped or carrying a tributary (R62). -/
  | portDelete (m : Msg)
  /-- LANE_STATUS_GET: lane state, LANE_LOS, insertion loss, cable length, module presence and power (R81). -/
  | laneStatusGet (m : Msg)
  /-- PORT_STATUS_GET: port defects with the times of last change (R235). -/
  | portStatusGet (m : Msg)
  /-- PORT_PARTNER_GET: partner record items (R80, R477). -/
  | portPartnerGet (m : Msg)
  /-- OTN_PORT_STATUS_GET: accepted GID, PID and MAP of each lane (R123). -/
  | otnPortStatusGet (m : Msg)
  /-- FLEXE_STATUS_GET: FlexE overhead and calendar status (R151, R153). -/
  | flexeStatusGet (m : Msg)
  /-- TRACE_SET: transmitted or expected trace, fragmented (R395, R98, R135). -/
  | traceSet (m : Msg)
  /-- SDH_PORT_CONFIG: mode, n_oof, rei_ext, MS_EXC x, overhead peer (R83, R94). -/
  | sdhPortConfig (m : Msg)
  /-- SDH_STRUCT_SET: AUG or TUG structure (R101, R106). -/
  | sdhStructSet (m : Msg)
  /-- SDH_OH_CONFIG: source and value of an SDH overhead field (R90, R109). -/
  | sdhOhConfig (m : Msg)
  /-- OTN_PORT_CONFIG: FEC mode, poison_uncorr, FEC_SD thresholds, GID and PIDs (R125, R128). -/
  | otnPortConfig (m : Msg)
  /-- OTN_STRUCT_SET: PT and slot structure of an ODU server (R137, R138). -/
  | otnStructSet (m : Msg)
  /-- OTN_OH_CONFIG: source and value of an OTU or ODU field (R129). -/
  | otnOhConfig (m : Msg)
  /-- ODU_TCM_CONFIG: sink and source mode of a TCM level (R132). -/
  | oduTcmConfig (m : Msg)
  /-- ETH_PORT_CONFIG: Ethernet port modes and limits (R145, R146). -/
  | ethPortConfig (m : Msg)
  /-- FLEXE_GROUP_CONFIG: MTN flag, handshake, ca_timeout, group and PHY numbers (R149). -/
  | flexeGroupConfig (m : Msg)
  /-- FLEXE_CLIENT_SET: calendar change for a client or path (R153). -/
  | flexeClientSet (m : Msg)
  /-- MTN_PATH_CONFIG: path terminated or connected (R154). -/
  | mtnPathConfig (m : Msg)
  /-- FG_CHAN_CREATE: fine-grain channel creation as TRIB_CREATE of type 0x2C (R161). -/
  | fgChanCreate (m : Msg)
  /-- FG_CHAN_RESIZE: fine-grain channel resize (R161). -/
  | fgChanResize (m : Msg)
  /-- FG_CHAN_DELETE: fine-grain channel delete, a resize to 0 (R161). -/
  | fgChanDelete (m : Msg)
  /-- FC_GROUP_CONFIG: watermark group members, thresholds, PFC port (R210, R212). -/
  | fcGroupConfig (m : Msg)
  /-- TRIB_CREATE: tributary context placed under R171 (R164-R167). -/
  | tribCreate (m : Msg)
  /-- TRIB_MODIFY: lck, options word, rate (R395). -/
  | tribModify (m : Msg)
  /-- TRIB_ENABLE: restart as for a new tributary (R191). -/
  | tribEnable (m : Msg)
  /-- TRIB_DISABLE: stop and drain, with children (R189, R191). -/
  | tribDisable (m : Msg)
  /-- TRIB_DELETE: stop, drain and free; refused with children or connections (R191). -/
  | tribDelete (m : Msg)
  /-- ODUFLEX_RESIZE: hitless LCR/BWR resize (R188). -/
  | oduflexResize (m : Msg)
  /-- TRIB_STATUS_GET: owner unit, W28, pipe_delay, accepted filter values (R395). -/
  | tribStatusGet (m : Msg)
  /-- XC_CONNECT: source to destinations of the same type (R168-R170). -/
  | xcConnect (m : Msg)
  /-- XC_DISCONNECT: removes a destination's source (R170). -/
  | xcDisconnect (m : Msg)
  /-- XC_GET: the connections of a tributary (R395). -/
  | xcGet (m : Msg)
  /-- PG_CREATE: protection group, errorless allocation (R258-R261, R272, R273). -/
  | pgCreate (m : Msg)
  /-- PG_MODIFY: modifiable parameters (R261, R273). -/
  | pgModify (m : Msg)
  /-- PG_DELETE: deletes the group, frees its buffers (R282). -/
  | pgDelete (m : Msg)
  /-- PG_COMMAND: local command, accepted if it outranks (R264). -/
  | pgCommand (m : Msg)
  /-- PG_STATUS_GET: request, members, timers, defects, alignment (R270). -/
  | pgStatusGet (m : Msg)
  /-- SCHED_CONFIG: hold and gate_en of a scheduler (R395, R304). -/
  | schedConfig (m : Msg)
  /-- QUEUE_CONFIG: kind and parameters of a queue (R286). -/
  | queueConfig (m : Msg)
  /-- CLASS_MAP_SET: PCP to class map and default class (R285). -/
  | classMapSet (m : Msg)
  /-- POLICER_SET: two-rate three-colour policer (R289). -/
  | policerSet (m : Msg)
  /-- GATE_LIST_SET: gate list with late-start placing (R294, R296). -/
  | gateListSet (m : Msg)
  /-- QUEUE_STATS_GET: 40-bit queue, policer and scheduler counters (R303). -/
  | queueStatsGet (m : Msg)
  /-- QUEUE_HWM_GET: max_sojourn, sojourn_at, max_depth, optional restart (R302). -/
  | queueHwmGet (m : Msg)
  /-- PM_EPOCH_SET: PM epoch and utc_base (R249). -/
  | pmEpochSet (m : Msg)
  /-- PM_BIN_GET: a bin by object, kind and age (R250). -/
  | pmBinGet (m : Msg)
  /-- PM_TCA_SET: 15-minute threshold (R251). -/
  | pmTcaSet (m : Msg)
  /-- PM_LEDGER_GET: held ledger records by record_seq (R254). -/
  | pmLedgerGet (m : Msg)
  /-- DEFECT_CONFIG: tim_act, plm_act, TIM mode, enhanced RDI, deg_m, deg_thr (R232, R234). -/
  | defectConfig (m : Msg)
  /-- CLK_SLOT_CONFIG: type, rank, QL, bandwidths, lane of a slot (R308, R316). -/
  | clkSlotConfig (m : Msg)
  /-- CLK_DPLL_CONFIG: mode, list, revert, pbo_en, own_ql (R315). -/
  | clkDpllConfig (m : Msg)
  /-- CLK_OUT_CONFIG: frequency and squelch of a REF_OUT (R327). -/
  | clkOutConfig (m : Msg)
  /-- CLK_HISTORY_RESET: resets a holdover history (R319). -/
  | clkHistoryReset (m : Msg)
  /-- CLK_DEVICE_CONFIG: ffo_cal, ssm_set, xcheck_limit, tx_dpll (R306, R313, R324, R325). -/
  | clkDeviceConfig (m : Msg)
  /-- CLK_STATUS_GET: status of slots and DPLLs (R328). -/
  | clkStatusGet (m : Msg)
  /-- GOV_MIGRATE: migration of a tributary to a named slice (R341). -/
  | govMigrate (m : Msg)
  /-- GOV_STATUS_GET: slice states, migrations, ladder, margins, P, Tmax (R356). -/
  | govStatusGet (m : Msg)
  /-- GOV_LEDGER_GET: lifetime ledger entries (R353). -/
  | govLedgerGet (m : Msg)
  /-- REC_READ: a range of records (R433). -/
  | recRead (m : Msg)
  /-- REC_MARK: marker record (R395). -/
  | recMark (m : Msg)
  /-- REC_DUMP_READ: units of the two dump slots (R434). -/
  | recDumpRead (m : Msg)
  /-- REC_DUMP_CLEAR: zeroes the magic of each slot that holds a dump (R434). -/
  | recDumpClear (m : Msg)
  /-- FW_INFO_GET: versions, anti-rollback step, image in each bank (R395). -/
  | fwInfoGet (m : Msg)
  /-- FW_IMAGE_LOAD: image from host memory (its octets are the operand), checks 1-7, write started (R449). -/
  | fwImageLoad (m : Msg) (image : List Octet)
  /-- FW_ACTIVATE: activation from a bank at an octet boundary (R450). -/
  | fwActivate (m : Msg)
  /-- CERT_GET: device, CA and root certificates (R446). -/
  | certGet (m : Msg)
  /-- ATTEST_QUOTE: signed quote (R448). -/
  | attestQuote (m : Msg)
  /-- CFG_DIGEST_GET: configuration digest and time (R447). -/
  | cfgDigestGet (m : Msg)
  /-- DEBUG_UNLOCK: PF0 switches PD95 on unless dbg_lock (R476). -/
  | debugUnlock (m : Msg)
  /-- MBX_DATA_WRITE: write of MBX_DATAi; LATE_WRITE while posted (R401, R365). -/
  | mbxDataWrite (a : Acc) (ch : Nat) (i : Nat)
  /-- MBX_GO_WRITE: write of MBX_CTL: go=1 posts, or go_busy (R366, R368). -/
  | mbxGoWrite (a : Acc) (ch : Nat)
  /-- MBX_ACKW_WRITE: receiver's acknowledge (R367, R374). -/
  | mbxAckwWrite (a : Acc) (ch : Nat)
  /-- MBX_DATA0_READ: a read of MBX_DATA0; by the receiver it sets taken (R365). -/
  | mbxData0Read (a : Acc) (ch : Nat)
  /-- MBX_STS_WRITE: sequenced clear (R399). -/
  | mbxStsWrite (a : Acc) (ch : Nat)
  /-- IRQ_STS_WRITE: sequenced clear (R399, R403). -/
  | irqStsWrite (a : Acc)
  /-- PWR_STS_WRITE: sequenced clear (R399, R403). -/
  | pwrStsWrite (a : Acc)
  /-- CLK_STS_WRITE: sequenced clear (R399, R403). -/
  | clkStsWrite (a : Acc)
  /-- FLT_STS_WRITE: sequenced clear (R399, R403); clearing first_l re-arms the first-fault record (R420). -/
  | fltStsWrite (a : Acc)
  /-- REC_STS_WRITE: sequenced clear (R399, R403). -/
  | recStsWrite (a : Acc)
  /-- REGISTER_WRITE: write at a BAR0 offset, by access code (R7, R398-R404). -/
  | registerWrite (a : Acc) (offset : Nat)
  /-- BIT_ALIAS_WRITE: write of a bit alias word (R404). -/
  | bitAliasWrite (a : Acc) (offset : Nat)
  /-- IDN_LOCK_WRITE: write-once lock bits; dbg_lock switches PD95 off (R402, R412, R476). -/
  | idnLockWrite (a : Acc)
  /-- REMAP_CLR_WRITE: LCB_CTL write: remap_clr (R362). -/
  | remapClrWrite (core : Nat) (data : Word)
  /-- WV_SEL_WRITE: starts a snapshot, or LATE_WRITE (R401, R406). -/
  | wvSelWrite (a : Acc) (w : Nat)
  /-- WV_CAPTURE_COMPLETE: the value named by the index is captured (R406, R407). -/
  | wvCaptureComplete (w : Nat)
  /-- DECODE_MISS: access to an unmapped address or by an unadmitted master (R361). -/
  | decodeMiss (x : Miss)
  /-- FLT_ACK_WRITE: clears a source's pending bit (R421). -/
  | fltAckWrite (a : Acc)
  /-- FLT_RETURN_WRITE: starts or refuses a return to service (R423). -/
  | fltReturnWrite (a : Acc)
  /-- SELF_TEST_COMPLETE: the self-test in progress ends (R423). -/
  | selfTestComplete (pass : Bool)
  /-- FLT_SRC_SEL_WRITE: captures a source's state (R431). -/
  | fltSrcSelWrite (a : Acc)
  /-- FLT_INJ_WRITE: factory-mode fault injection (R430). -/
  | fltInjWrite (a : Acc)
  /-- REC_SEL_WRITE: captures a ring slot (R435). -/
  | recSelWrite (a : Acc)
  /-- REC_DATA7_READ: read; steps to the next older slot (R435). -/
  | recData7Read (a : Acc)
  /-- REC_HEAD_HI_READ: read; captures REC_HEAD_LO (R435). -/
  | recHeadHiRead (a : Acc)
  /-- REC_CAPTURE_COMPLETE: slot capture completes (R435). -/
  | recCaptureComplete
  /-- AON_POWER_ON_RESET: release of the AON power-on reset (R436, R437, R428). -/
  | aonPowerOnReset (cause : PorCause) (pins : PorPins)
  /-- SYSTEM_RESET: SYSRST_N or the I2C system-reset command (R436, R437). -/
  | systemReset (bootsel : Bool)
  /-- PCIE_RESET: conventional reset, link down or FLR of PF0 (R373, R436). -/
  | pcieReset (kind : PcieReset)
  /-- VF_FLR: FLR of a VF (R373). -/
  | vfFlr (vf : Nat)
  /-- WAKE_N: wake from standby (R331). -/
  | wakeN (bootsel : Bool)
  /-- I2C_WAKE_COMMAND: wake from standby by I2C (R331). -/
  | i2cWakeCommand (bootsel : Bool)
  /-- I2C_PORT_RESET: reset of the I2C port as a master (R373). -/
  | i2cPortReset
  /-- REFSEL_CHANGE: REFSEL pins change (R314). -/
  | refselChange (v : BitVec 4)
  /-- REFSEL_DEBOUNCED: REFSEL stable for 1 ms (R314). -/
  | refselDebounced
  /-- OSC_LOSS: OSC_IN lost, Grave (R307). -/
  | oscLoss
  /-- THERMAL_SAMPLE: 64 sensor readings in 0.125 C (R335, R336, R347). -/
  | thermalSample (t : List (BitVec 16))
  /-- RAIL_SAMPLE: 16 rail samples (R333). -/
  | railSample (r : List RailSample)
  /-- POWER_WINDOW_END: P over the 100 ms window (R333). -/
  | powerWindowEnd
  /-- DROOP: droop detector of a domain, 0-95 or 96 for the fixed domain (R334). -/
  | droop (pd : Nat)
  /-- DROOP_HOLD_END: 1 h after a droop firing (R334). -/
  | droopHoldEnd
  /-- MPSENSE_SAMPLE: 32 module-power samples (R79). -/
  | mpsenseSample (s : List Nat)
  /-- MODULE_PRESENCE_CHANGE: 100 ms above or below the threshold (R79). -/
  | modulePresenceChange (input : Nat)
  /-- TEST_PIN: TEST_MODE high with no unlock in 10 s (R430). -/
  | testPin
  /-- DFE_FRAME: phase passes 32,767 (R35). -/
  | dfeFrame
  /-- OCTET_BOUNDARY: octet-boundary changes apply (R40, R50). -/
  | octetBoundary
  /-- CONFIG_SCRUB: a scrub pass finds and repairs parity failures (R408, R175). -/
  | configScrub (found : ScrubPass)
  /-- CONFIG_BANK_SWAP: armed bank swaps at a frame boundary (R52, R46, R50). -/
  | configBankSwap (o : Obj) (dir : Dir)
  /-- CHANGE_ARM: firmware arms a later change (R52). -/
  | changeArm (handle : Nat) (mem : Nat)
  /-- COMPLETION_POST: posts the oldest completion (R386, R377). -/
  | completionPost (ch : Nat)
  /-- NOTIFICATION_POST: posts the oldest notification (R389). -/
  | notificationPost (ch : Nat)
  /-- NOTIFY_LOST: posts the count of discarded notifications (R377). -/
  | notifyLost (ch : Nat)
  /-- REPLY_FRAGMENT_POST: posts the oldest reply fragment (R387). -/
  | replyFragmentPost (ch : Nat)
  /-- ORPHAN_DONE: the orphaned command of a channel is executed and its result posted (R374). -/
  | orphanDone (ch : Nat)
  /-- CROSSED_TIMEOUT: 1 ms with both channels of a pair posted (R376). -/
  | crossedTimeout (ch : Nat)
  /-- FRAGMENT_TIMEOUT: 1 s gap discards held fragments (R392). -/
  | fragmentTimeout (ch : Nat)
  /-- CS_TIMEOUT: 10 s without a member or commit discards the set (R390). -/
  | csTimeout (cs : Nat)
  /-- CORE_WAKE_COMPLETE: a woken core is usable (R372). -/
  | coreWakeComplete (core : Nat)
  /-- CORE_POWER_DOWN: firmware idles a core (R332, R372). -/
  | corePowerDown (core : Nat)
  /-- CRYPTO_POWER_DOWN: crypto domain off (R332). -/
  | cryptoPowerDown
  /-- CORE_WDOG: watchdog unserviced 50 ms (R424). -/
  | coreWdog (core : Nat)
  /-- CORE_EXC: unhandled exception (R424). -/
  | coreExc (core : Nat)
  /-- CORE_RESTART_COMPLETE: restarted core serves again (R424, R345). -/
  | coreRestartComplete (core : Nat)
  /-- FAULT_EVENT: an event of a source (R418-R422). -/
  | faultEvent (source : Nat) (detail : Word)
  /-- FAULT_WINDOW_END: the open window ends (R418). -/
  | faultWindowEnd (source : Nat)
  /-- FAULT_CLASS_DECAY: 16 x W without an event (R418). -/
  | faultClassDecay (source : Nat)
  /-- HEARTBEAT_TIMEOUT: sequencer enters Snowdrop, COLLECTOR_FAIL (R426). -/
  | heartbeatTimeout
  /-- SNOWDROP_LINE_SIGNALS: maintenance signal or squelch of a port in Snowdrop (R427). -/
  | snowdropLineSignals (port : Nat)
  /-- DUMP_COMPLETE: the dump is complete in flash (R434). -/
  | dumpComplete
  /-- CONTEXT_RECREATE: firmware re-creates a context of a fenced slice (R422). -/
  | contextRecreate (t : Nat)
  /-- RECORD_WRITE: a record leaves the staging queue (R433). -/
  | recordWrite
  /-- BOOT_STAGE: the boot passes to its next stage, or stops (R438, R439). -/
  | bootStage (x : BootInfo)
  /-- FW_IMAGE_LOAD_COMPLETE: image write and read-back end (R449). -/
  | fwImageLoadComplete (ok : Bool)
  /-- FW_ACTIVATE_BOUNDARY: the activation boundary (R450). -/
  | fwActivateBoundary
  /-- ACTIVATION_FALLBACK: new image fails to start (R451). -/
  | activationFallback
  /-- ARB_BURN: anti-rollback steps burnt (R444). -/
  | arbBurn
  /-- CDR_LOCK: CDR locked 1 ms (R57). -/
  | cdrLock (lane : Nat)
  /-- CDR_RETRY: no lock in 100 ms (R57). -/
  | cdrRetry (lane : Nat)
  /-- AN_COMPLETE: auto-negotiation completes (R57, R75). -/
  | anComplete (lane : Nat) (r : AnResult)
  /-- AN_RESTART: 1 s after AN_MISMATCH (R57). -/
  | anRestart (lane : Nat)
  /-- TRAINING_COMPLETE: training completes (R57, R76). -/
  | trainingComplete (lane : Nat) (r : Word)
  /-- TRAIN_FAIL: clause timer expires (R57). -/
  | trainFail (lane : Nat)
  /-- LANE_SIGNAL_LOSS: no signal 64 us or CDR unlock (R57). -/
  | laneSignalLoss (lane : Nat)
  /-- LANE_GROUP_POWER_DOWN: group without ports powers down (R58). -/
  | laneGroupPowerDown (g : Nat)
  /-- IL_ESTIMATE_REFRESH: insertion loss at the gate end (R77, R78). -/
  | ilEstimateRefresh (il : List IlSample)
  /-- ILF_ALIGNMENT_FOUND: HUNT finds alignment words (R71). -/
  | ilfAlignmentFound (lane : Nat)
  /-- ILF_MARKER_PERIOD: a period at the expected position is judged (R71-R74). -/
  | ilfMarkerPeriod (lane : Nat) (mk : IlfMarker)
  /-- ILF_CONTROL_BLOCK: a control block on an ILF lane (R64). -/
  | ilfControlBlock (b : IlfControl)
  /-- ILF_TX_MARKER: marker block sent; operand: bits gathered per sub-port (R68, R70). -/
  | ilfTxMarker (lane : Nat) (bits : List (Nat × List Bool))
  /-- SDH_PATTERN_FOUND: framing pattern found in OOF (R86). -/
  | sdhPatternFound (x : Searched)
  /-- SDH_RX_FRAME: a received frame (R86-R100, R103). -/
  | sdhRxFrame (port : Nat) (f : SdhFrame)
  /-- SDH_LOF_CHANGE: 24 frames of OOF or IF (R87). -/
  | sdhLofChange (port : Nat)
  /-- SDH_TX_FRAME: a transmitted frame (R90-R94, R105); hits: the first waiting word of a T number as read where that differs
  from the stored one (R23). -/
  | sdhTxFrame (port : Nat) (hits : List (Nat × LaneWord))
  /-- SDH_LOM_CHANGE: 8 frames of OOM or IM (R108). -/
  | sdhLomChange (t : Nat)
  /-- OTN_PATTERN_FOUND: FAS found or deskew complete (R117). -/
  | otnPatternFound (x : Searched)
  /-- OTN_RX_FRAME: a received OTU frame (R117-R136). -/
  | otnRxFrame (port : Nat) (f : OtuFrame)
  /-- OTN_LOF_CHANGE: 3 ms of OOF or IF, port or lower-order ODU (R118, R139). -/
  | otnLofChange (o : Obj)
  /-- OTN_LOM_CHANGE: 3 ms of OOM or IM in frame (R121). -/
  | otnLomChange (o : Obj)
  /-- OTN_TX_FRAME: a transmitted OTU or ODU frame (R129-R132); hits: as of SDH_TX_FRAME (R23). -/
  | otnTxFrame (o : Obj) (hits : List (Nat × LaneWord))
  /-- ODU_RX_FRAME: a received ODU frame (R139). -/
  | oduRxFrame (t : Nat) (f : OduFrame)
  /-- FLEXO_FRAME: a FlexO lane's frame (R122-R124). -/
  | flexoFrame (port : Nat) (lane : Nat) (f : FlexoFrame)
  /-- FLEXO_LOF: 3 ms without lock (R122). -/
  | flexoLof (port : Nat) (lane : Nat)
  /-- FEC_SD_INTERVAL_END: 1 s FEC_SD interval (R128, R144). -/
  | fecSdIntervalEnd (port : Nat)
  /-- PCS_STATE_CHANGE: PCS state variables (R144). -/
  | pcsStateChange (port : Nat) (v : PhyVars)
  /-- ETH_RX_BLOCK: a 66B block in BLOCK mode (R145). -/
  | ethRxBlock (port : Nat) (b : EthBlock)
  /-- ETH_RX_FRAME: a frame in PACKET mode (R146, R22). -/
  | ethRxFrame (port : Nat) (f : EthFrame)
  /-- ETH_TX_PACKET: a packet sent (R147). -/
  | ethTxPacket (port : Nat) (hit : Option LaneWord)
  /-- ESMC_PDU_RX: an ESMC PDU (R148, R313). -/
  | esmcPduRx (port : Nat) (e : Esmc)
  /-- ESMC_PDU_TX: an ESMC PDU sent (R148). -/
  | esmcPduTx (port : Nat)
  /-- ESMC_QL_TIMEOUT: 5 s without a valid PDU (R313). -/
  | esmcQlTimeout (slot : Nat)
  /-- PFC_FRAME_RX: received PFC (R298). -/
  | pfcFrameRx (port : Nat) (f : PfcFrame)
  /-- PAUSE_FRAME_RX: received PAUSE (R298). -/
  | pauseFrameRx (port : Nat) (quanta : Nat)
  /-- PAUSE_EXPIRY: a class's pause runs out (R298). -/
  | pauseExpiry (port : Nat) (cls : Nat)
  /-- PFC_REPEAT: repeat of a PFC frame (R212). -/
  | pfcRepeat (g : Nat)
  /-- FLEXE_OH_FRAME: a FlexE overhead frame (R150-R153). -/
  | flexeOhFrame (port : Nat) (inst : Nat) (f : FlexeFrame)
  /-- FLEXE_LOF_CHANGE: 3 ms out of or in lock (R150). -/
  | flexeLofChange (port : Nat) (mf : Bool)
  /-- FLEXE_CAL_START: new calendar advertised with CR (R153). -/
  | flexeCalStart (port : Nat)
  /-- FLEXE_CAL_SWITCH: C changes (R153). -/
  | flexeCalSwitch (port : Nat)
  /-- FLEXE_CAL_TIMEOUT: CA not accepted (R153). -/
  | flexeCalTimeout (port : Nat)
  /-- MTN_BAS_RX: a BAS block (R155). -/
  | mtnBasRx (t : Nat) (b : BasBlock)
  /-- MTN_CV_RX: a CV block (R155). -/
  | mtnCvRx (t : Nat) (cv : List Octet)
  /-- MTN_APS_RX: an APS block (R155). -/
  | mtnApsRx (t : Nat) (v : Word)
  /-- MTN_CV_TX: a CV sent (R155). -/
  | mtnCvTx (t : Nat)
  /-- FG_OVERHEAD_GRAIN: an expected overhead grain position; none: absent (R157-R161). -/
  | fgOverheadGrain (t : Nat) (g : Option FgGrain)
  /-- FG_RESIZE_START: new map loaded, cr = 1 (R161). -/
  | fgResizeStart (t : Nat)
  /-- FG_BANK_SWITCH: next_am sent, new bank used (R161). -/
  | fgBankSwitch (t : Nat)
  /-- FG_RESIZE_TIMEOUT: ca not accepted (R161). -/
  | fgResizeTimeout (t : Nat)
  /-- GMP_TX_PERIOD: Cm and sum CnD (R179, R180); hit: the front word of the transmit store as read where that differs (R23). -/
  | gmpTxPeriod (t : Nat) (hit : Option LaneWord)
  /-- GMP_RX_PERIOD: JC CRCs and placement (R180, R194). -/
  | gmpRxPeriod (t : Nat) (j : GmpJc)
  /-- AMP_JUSTIFICATION: an opportunity group: the JC decision, and the group received, if any (R176). -/
  | ampJustification (e : AmpEvent)
  /-- PDH_JUSTIFICATION: a container period: the S1/S2 decision, and the period received, if any (R181, R182). -/
  | pdhJustification (e : PdhEvent)
  /-- GFP_FRAME_TX: GFP-F frame or idle (R183); hit: the first word taken as read where that differs (R23). -/
  | gfpFrameTx (t : Nat) (hit : Option LaneWord)
  /-- GFP_FRAME_RX: a received GFP frame (R184). -/
  | gfpFrameRx (t : Nat) (f : GfpFrame)
  /-- GFP_CSF_TX: client management frame (R184). -/
  | gfpCsfTx (t : Nat)
  /-- GFP_CSF_CLEAR: 300 ms without CSF (R232). -/
  | gfpCsfClear (t : Nat)
  /-- SEGMENT_RX: the segment of a stream index and sequence number, the oldest taken by the demapper (R185). -/
  | segmentRx (t : Nat) (stream : Nat) (seq : Nat)
  /-- IMP_BLOCK_RX: an IMP block (R186). -/
  | impBlockRx (t : Nat) (b : Block66)
  /-- ODUFLEX_RESIZE_STEP: a resize step completes (R188). -/
  | oduflexResizeStep (t : Nat)
  /-- ODUFLEX_RESIZE_TIMEOUT: handshake timeout before any ramp (R188). -/
  | oduflexResizeTimeout (t : Nat)
  /-- DRAIN_END: the drain window ends (R189-R191). -/
  | drainEnd (t : Nat)
  /-- CONTEXT_REWRITE: firmware rewrites a failed word (R175). -/
  | contextRewrite (t : Nat) (w : Nat)
  /-- SLICE_CONTEXT_VISIT: a slice visits a context (R226, R175, R228). -/
  | sliceContextVisit (t : Nat) (v : Visit)
  /-- XC_WORD: a lane word crosses the cross-connect (R16, R23-R25). -/
  | xcWord (inst : Nat) (hit : Option LaneWord)
  /-- FIFO_WRITE: a word is written; rd: a read in the same cycle (R201-R204). -/
  | fifoWrite (f : FifoId) (w : LaneWord) (rd : Bool)
  /-- FIFO_READ: a read; hit: the entry as read when it differs from the stored one (R198-R208). -/
  | fifoRead (f : FifoId) (hit : Option LaneWord)
  /-- PACKET_START_WRITE: packet start (R205). -/
  | packetStartWrite (f : FifoId) (w : LaneWord)
  /-- PACKET_END_WRITE: packet end (R206). -/
  | packetEndWrite (f : FifoId) (w : LaneWord)
  /-- FIFO_STALL_LONG: a stall over 64 us (R200). -/
  | fifoStallLong (f : FifoId)
  /-- PB_ENTRY_READ: a compatibility-layout entry is read (R216-R220). -/
  | pbEntryRead (bank : Nat) (e : BitVec 40)
  /-- WATERMARK_EVALUATION: a group's depth against its watermarks (R211, R212). -/
  | watermarkEvaluation (g : Nat)
  /-- DEFECT_FAST_PATH: change of aTSF, aSSF, aTSD or APS reaches the engine (R240). -/
  | defectFastPath (o : Obj)
  /-- FAILURE_DECLARE: 2.5 s (R241). -/
  | failureDeclare (x : FailureId)
  /-- FAILURE_CLEAR: 10 s clear (R241). -/
  | failureClear (x : FailureId)
  /-- PM_SECOND_END: 1 s classification (R243, R244, R248, R251). -/
  | pmSecondEnd
  /-- PM_SECOND_COMMIT: held seconds commit (R244). -/
  | pmSecondCommit
  /-- DEGRADE_INTERVAL_END: degrade runs (R234). -/
  | degradeIntervalEnd
  /-- PM_BIN_BOUNDARY: bins close (R249, R250). -/
  | pmBinBoundary
  /-- LEDGER_RECORD_BUILD: signed ledger record (R252-R254). -/
  | ledgerRecordBuild
  /-- PG_EVALUATION: frame scan (R257, R263-R269). -/
  | pgEvaluation
  /-- PG_FAST_EVALUATION: fast evaluation of an errorless group (R257). -/
  | pgFastEvaluation (g : Nat)
  /-- HOLD_OFF_EXPIRY: hold-off ends (R266). -/
  | holdOffExpiry (g : Nat) (mem : Nat)
  /-- WTR_EXPIRY: WTR ends (R267). -/
  | wtrExpiry (g : Nat)
  /-- SELECTOR_SWITCH: selector change at the member's frame boundary (R262). -/
  | selectorSwitch (g : Nat)
  /-- BRIDGE_SWITCH: bridge change at P's transmit boundary (R262). -/
  | bridgeSwitch (g : Nat)
  /-- PG_FOP_NR_TIMEOUT: 50 ms without the bridge (R269). -/
  | pgFopNrTimeout (g : Nat)
  /-- ERRORLESS_FRAME: a member frame at the selector slice (R275, R276). -/
  | errorlessFrame (g : Nat) (f : ErrlFrame)
  /-- ERRORLESS_SWITCH: output reaches the switch frame (R278). -/
  | errorlessSwitch (g : Nat)
  /-- PG_BUILD_OUT: output realigned (R277). -/
  | pgBuildOut (g : Nat)
  /-- ALIGN_BUFFER_REPLACE: lost units replaced (R279). -/
  | alignBufferReplace
  /-- PG_STATE_PARITY: parity error of a group's state (R281). -/
  | pgStateParity (g : Nat)
  /-- PACKET_ENQUEUE: policed, classified, admitted (R285-R289). -/
  | packetEnqueue (src : Nat)
  /-- SCHEDULER_SELECT: one packet is started (R290-R295). -/
  | schedulerSelect (t : Nat)
  /-- GATE_ENTRY_CHANGE: next gate entry (R294). -/
  | gateEntryChange (t : Nat)
  /-- GATE_LIST_START: new list starts (R297). -/
  | gateListStart (t : Nat)
  /-- BATCH_INSTANT: held deferrable packets released (R299, R300). -/
  | batchInstant
  /-- BANK_QUEUE_REDISTRIBUTE: queues of a fenced bank move (R288). -/
  | bankQueueRedistribute (bank : Nat)
  /-- BANK_RETAIN: bank enters RETAIN (R350). -/
  | bankRetain (bank : Nat)
  /-- BANK_WAKE: bank returns to ON (R350). -/
  | bankWake (bank : Nat)
  /-- CLK_ACTIVITY_WINDOW_END: activity window (R310). -/
  | clkActivityWindowEnd (slot : Nat) (edge : Bool)
  /-- FREQUENCY_GATE_END: gate end: offsets of slots, output offsets of the DPLLs in 0.0001 ppm (R311, R312, R319, R324). -/
  | frequencyGateEnd (m : List GateMeas) (outOff : List Int)
  /-- DPLL_EVALUATION: state machine, once per phase unit (R317, R318). -/
  | dpllEvaluation (d : Nat) (m : DpllMeas)
  /-- DPLL_LOCK: lock dwell held (R317). -/
  | dpllLock (d : Nat)
  /-- DPLL_LOST_EXIT: leaves LOST (R317). -/
  | dpllLostExit (d : Nat)
  /-- FREEZE_END: 60 s after a dispute clears (R324). -/
  | freezeEnd
  /-- PACKING_EVALUATION: packing, sources and targets, spares, rotation (R339, R340, R355). -/
  | packingEvaluation
  /-- SLICE_OFF: RETAIN to OFF (R340). -/
  | sliceOff (s : Nat)
  /-- SLICE_WAKE_COMPLETE: woken slice is IDLE (R338). -/
  | sliceWakeComplete (s : Nat)
  /-- CAP_EVALUATION: cap ladder (R347, R348). -/
  | capEvaluation
  /-- BATCH_FRAMES_UPDATE: batch_frames (R350). -/
  | batchFramesUpdate
  /-- MIGRATION_ARM: destination reserved, engine armed (R342). -/
  | migrationArm (t : Nat) (dst : Nat)
  /-- MIGRATION_SNAPSHOT: B0 (R342). -/
  | migrationSnapshot (t : Nat)
  /-- MIGRATION_SHADOW_FRAME: B1; operand: the blocks that both copies put out in the frame (R342, R343, R230). -/
  | migrationShadowFrame (t : Nat) (blocks : List ShadowBlock)
  /-- MIGRATION_COMMIT: C (R342). -/
  | migrationCommit (t : Nat)
  /-- MIGRATION_CUTOVER: B2 (R342). -/
  | migrationCutover (t : Nat)
  /-- MIGRATION_SOURCE_FREE: B2 + 1 frame (R342). -/
  | migrationSourceFree (t : Nat)
  /-- MIGRATION_ABORT: abort before C (R344, R346). -/
  | migrationAbort (t : Nat) (cause : AbortCause)
  /-- WEAR_ACCRUAL: 1 s of Arrhenius wear (R351, R353). -/
  | wearAccrual
  /-- WEAR_LEDGER_FLASH_WRITE: hourly copy to flash (R352). -/
  | wearLedgerFlashWrite
  /-- MSIX_HOLD_END: 10 us hold of a vector ends (R410). -/
  | msixHoldEnd (fn : Nat) (v : Nat)
  /-- FLT_SRC_CAPTURE_COMPLETE: capture completes (R431). -/
  | fltSrcCaptureComplete
  /-- ACTIVATION_COMPLETE: new firmware serves (R450). -/
  | activationComplete
  /-- LANE_GROUP_POWER_UP: 8-frame power-up ends (R332). -/
  | laneGroupPowerUp (g : Nat)
deriving DecidableEq, Repr

end Sys2Proof
end

