-- ==== Sys2Proof/Decode.lean ====
section
/-!
DEFINITION. Bit fields of words, and the word form of a command. The opcode table gives no row bits: a command is
spelt by its row and operands only, so no word spells one.
-/
namespace Sys2Proof

/-- Field [hi:lo] of a word, as a number. -/
def fld (w : Word) (hi lo : Nat) : Nat := (w.toNat >>> lo) % 2 ^ (hi - lo + 1)

/-- Bit n of a word. -/
def bitAt (w : Word) (n : Nat) : Bool := w.getLsbD n

/-- A number as a word. -/
def wd (n : Nat) : Word := BitVec.ofNat 32 n

/-- A bit as a number. -/
def b2n (b : Bool) : Nat := if b then 1 else 0

/-- The four octets of a word, [31:24] first (01 R19). -/
def octetsOf (w : Word) : List Octet :=
  [w.extractLsb' 24 8, w.extractLsb' 16 8, w.extractLsb' 8 8, w.extractLsb' 0 8]

/-- The big-endian number of some octets. -/
def beNat : List Octet → Nat
  | [] => 0
  | o :: r => o.toNat * 256 ^ r.length + beNat r

/-- `k` big-endian octets of a number. -/
def natBe : Nat → Nat → List Octet
  | 0, _ => []
  | k + 1, n => BitVec.ofNat 8 (n >>> (8 * k)) :: natBe k n

/-- Octets packed four to a word, first in [31:24], zero-filled (16 R388). -/
def packWords : List Octet → List Word
  | a :: b :: c :: d :: r => wd (beNat [a, b, c, d]) :: packWords r
  | [a, b, c] => [wd (beNat [a, b, c, 0])]
  | [a, b] => [wd (beNat [a, b, 0, 0])]
  | [a] => [wd (beNat [a, 0, 0, 0])]
  | [] => []

/-- A two's complement field of `w` bits. -/
def signed (w n : Nat) : Int := (BitVec.ofNat w n).toInt

/-- An integer in `w` bits, two's complement. -/
def unsigned (w : Nat) (i : Int) : Nat := (BitVec.ofInt w i).toNat

/-- The command that a table word spells: the table gives no row bits, so none. -/
def decodeTableWord (_nbits _w : Nat) : Option Instr := none

end Sys2Proof
end

