-- ==== Sys2Proof/Config.lean ====
section
/-!
DEFINITION. What one SVT-1280 fixes and the spec leaves to the part, its firmware image or its OTP, as constants with
no value: a statement about them holds whatever they are. `freeValue` numbers the values the spec leaves open
(log entries 7 and 8).
-/
namespace Sys2Proof.Config

/-- A value the spec leaves open, numbered by the state's counter `Aon.fresh` (log entry 8). -/
opaque freeValue (w : Nat) : Nat → BitVec w

/-- Is the part the SVT1280-AE, and not the SVT1280-AC (00 R2)? -/
opaque isAe : Bool

/-- The variant code (00 R2). -/
def variant : BitVec 8 := if isAe then 0x02#8 else 0x01#8

/-- Silicon stepping (17 R412). -/
opaque stepping : BitVec 8

/-- Device serial number (17 R412; 19 R446). -/
opaque serial : BitVec 64

/-- Version of the firmware the reset image carries, in the layout of IDN_FW_VER (17 R412). -/
opaque fwVersion : Word

/-- SHA-256 of the signing key of each OTP key slot (19 R443). -/
opaque keyHash : Nat → List Octet

/-- Does r, s verify over the digest under the public key (ECDSA P-256, 19 R442)? Arguments: key, signature, octets. -/
opaque verifySig : List Octet → List Octet → List Octet → Bool

/-- The signature of the device identity key over octets (19 R446, R448; 10 R253). -/
opaque sign : List Octet → List Octet

/-- An image in host memory: address and length (16 R395, FW_IMAGE_LOAD). -/
opaque hostImage : Nat → Nat → List Octet

/-- The public key of the device identity key (19 R446). -/
opaque devicePub : List Octet

/-- The granule of the PM history region that holds a historic bin, whose layout no rule gives: object index, 24-hour or
not, age (01 R29; 10 R250). -/
opaque binGranule : Nat → Bool → Nat → Nat

/-- pipe_delay of a tributary's destination, in phase units (12 R294). -/
opaque pipeDelay : Nat → Word

/-- The device certificate (19 R446). -/
opaque deviceCert : List Octet

/-- The device CA certificate that the image carries (19 R446). -/
opaque caCert : List Octet

/-- Llyngon's root certificate (19 R446). -/
opaque rootCert : List Octet

/-- The fused voltage of a domain, in mV (20 R456). -/
opaque vFuse : Nat → Nat

/-- Does an image carry a binding policy that replaces the default table, and which (15 R371): channel, valid, pri,
pair_en, pair, sender, receiver. -/
opaque bindingPolicy : List Octet → Option (List (Nat × Bool × Bool × Bool × Nat × Nat × Nat))

/-- The alignment marker of a FlexO lane's instance, by lane (05 R122, R123: "that G.709.1 gives"). -/
opaque flexoMarker : Nat → List Octet

/-- The CRC-16 of FlexO overhead (05 R123; 09 R223: the parameters of G.709.1), over MFAS, GID, PID, MAP and RPF. -/
opaque flexoCrc : List Octet → BitVec 16

end Sys2Proof.Config
end

