-- ==== Sys2Proof/Machine/State.lean ====
section
/-!
DEFINITION. The state of the SVT-1280 as plain data, and the state right after the AON power-on reset.
`State` = the device time, the queue of waiting commands, and the device; the device = what a system reset keeps
(`Aon`) and what it resets (`Fab`), spec 19 R436. Field defaults are the reset values; INVENTORY.md names the rule of
each field, and the assumption log the values the spec does not give.
-/
namespace Sys2Proof.Machine

/-- Device time (02 R35, R41): SFN is `e` [39:0]. -/
structure Clock where
  e : BitVec 64 := 0
  phase : BitVec 15 := 0
deriving DecidableEq, Repr

/-- A sequenced status register: seq_num in [31:24], latched bits below (17 R399). -/
structure Sq where
  seq : BitVec 8 := 0
  bits : BitVec 24 := 0
deriving DecidableEq, Repr

/-! ### Fault collector (18) -/

/-- A fault source (18 R418): `rise` is its class less the initial class of R416. -/
structure Src where
  rise : Nat := 0
  count : Nat := 0
  winStart : Option Time := none
  last : Option Time := none
  total : Cnt := 0
  pending : Bool := false
  second : Nat := 0
  inSecond : Nat := 0
  suppressed : Nat := 0
deriving DecidableEq, Repr

/-- The first-fault record (18 R420, R431). -/
structure FirstFault where
  valid : Bool := false
  cls : Nat := 0
  unit : Nat := 0
  source : Nat := 0
  time : Time := 0
deriving DecidableEq, Repr

/-- FLT_MISS_INFO and FLT_MISS_ADDR (18 R431). -/
structure MissInfo where
  valid : Bool := false
  write : Bool := false
  master : Nat := 0
  addr : Nat := 0
deriving DecidableEq, Repr

/-- FLT_RETURN and FLT_RETURN_STS (18 R423, R431). -/
structure RetReg where
  unit : BitVec 8 := 0xFF#8
  busy : Bool := false
  result : BitVec 2 := 0
  stsUnit : BitVec 8 := 0xFF#8
deriving DecidableEq, Repr

/-- FLT_SRC_SEL and the registers it captures (18 R431). -/
structure SrcSel where
  source : BitVec 9 := 0
  busy : Bool := false
  valid : Bool := false
  pending : Bool := false
  cls : BitVec 2 := 0
  inWindow : BitVec 24 := 0
  total : Cnt := 0
deriving DecidableEq, Repr

/-- The fault collector's own state (18 R416-R431). `rejoin` lists returned HBM channels that rejoin at the next octet
boundary; `retSince` is when the return in progress began. -/
structure Coll where
  src : Tbl Src := []
  first : FirstFault := {}
  sts : Sq := {}
  miss : MissInfo := {}
  fenced : List Nat := []
  fenceLog : List (Nat × Time) := []
  refused : List Nat := []
  rejoin : List Nat := []
  lost : List Nat := []
  clusterLost : Bool := false
  ret : RetReg := {}
  retSince : Time := 0
  sel : SrcSel := {}
  injUnit : BitVec 8 := 0xFF#8
  injSource : BitVec 9 := 0
  factory : Bool := false
deriving DecidableEq, Repr

/-- A Forget-me-not record: E0 to E7 [31:0]; `lost` marks lost storage (18 R432, R433). -/
structure Rec where
  num : Nat
  time : Time
  ws : List Word
  lost : Bool := false
deriving DecidableEq, Repr

/-- Forget-me-not and its access block (18 R432-R435). `log` is newest first. -/
structure Recorder where
  log : List Rec := []
  next : Nat := 0
  staging : List Rec := []
  dropped : Nat := 0
  frozen : Bool := false
  dumpBusy : Bool := false
  sts : Sq := {}
  headLo : Word := 0
  slot : BitVec 16 := 0
  busy : Bool := false
  valid : Bool := false
  bad : Bool := false
  numHi : BitVec 8 := 0
  data : List Word := []
deriving DecidableEq, Repr

/-- The QSPI flash (19 R440): its octets, each unlisted one erased, and the active-bank record. -/
structure Flash where
  mem : List (Nat × Octet) := []
  activeBank : Nat := 0
deriving DecidableEq, Repr

/-! ### Clocking (13) -/

/-- DPLL states in the coding of CLK_DPLLd_STS (17 R415). -/
inductive DpllSt where
  | freeRun
  | acquiring
  | locked
  | holdover
  | lost
deriving DecidableEq, Repr

/-- One DPLL (13 R317-R322). Offsets are in 0.0001 ppm, phase errors in 0.1 ns; `input` 0x1F is none, 0x10 DPLL0. `out` is
the output's offset, or in FREE_RUN and HOLDOVER that which it moves to from `start`, from the time `slewAt`. -/
structure Dpll where
  st : DpllSt := .freeRun
  input : Nat := 0x1F
  hist : List Int := []
  learned : Nat := 0
  frozen : Bool := false
  phase : Int := 0
  freq : Int := 0
  out : Int := 0
  start : Int := 0
  slewAt : Time := 0
  entered : Time := 0
  buildOuts : Cnt := 0
  residual : Nat := 0
  bw : Nat := 0
deriving DecidableEq, Repr

/-- One reference slot's monitors (13 R310-R313). `times` holds the last change of each item of R328. -/
structure Slot where
  qualified : Bool := false
  gr253 : Bool := false
  soak : Nat := 0
  missing : Nat := 0
  missInGate : Bool := false
  edges1pps : Nat := 0
  off : Int := 0
  ql : BitVec 4 := 0xF#4
  infoQl : Option (BitVec 4) := none
  times : Tbl Time := []
deriving DecidableEq, Repr

/-- Reference selection and clean-up state, kept in AON (13). `gateForced` and `gateWitness` are those of the running
gate, 0x1E where they changed in it; `runIdx` names the history samples of the declaring run, newest sample 0. -/
structure Clk where
  dplls : Tbl Dpll := []
  slots : Tbl Slot := []
  raw : BitVec 4 := 0xF#4
  deb : BitVec 4 := 0xF#4
  settling : Option Time := none
  pinSeen : Bool := false
  sts : Sq := {}
  dispute : Bool := false
  dispRun : Nat := 0
  clearRun : Nat := 0
  noWitRun : Nat := 0
  freezeEnd : Option Time := none
  witness : Nat := 0x1F
  gateForced : Nat := 0x1F
  gateWitness : Nat := 0x1F
  runIdx : List Nat := []
deriving DecidableEq, Repr

/-! ### Governor (14) -/

/-- PWR_CAP, PWR_POLICY, PWR_PACK as written, and as in force since the last octet boundary (14 R337). -/
structure PwrRegs where
  cap : Word := 0x06401464#32
  policy : Word := 0xF80A0108#32
  pack : Word := 0xB40A0618#32
  capIn : Word := 0x06401464#32
  policyIn : Word := 0xF80A0108#32
  packIn : Word := 0xB40A0618#32
  sts : Sq := {}
deriving DecidableEq, Repr

/-- The governor (14 R334, R346-R350, R355; 17 R414). -/
structure Gov where
  episode : Option Time := none
  thermBind : Bool := false
  unatt : Bool := false
  step : Nat := 0
  scale : Nat := 256
  batch : Nat := 0
  margin : Nat := 30
  holdUntil : Time := 0
  goodRun : Nat := 0
  lastRot : Time := 0
  mismatches : Tbl Nat := []
  stuckUntil : Tbl Time := []
deriving DecidableEq, Repr

/-- One entry of the lifetime ledger (14 R351-R353). -/
structure Wear where
  wear : Nat := 0
  frac : Nat := 0
  hourMax : Nat := 0
  days : List Nat := []
  half : Bool := false
  high : Bool := false
deriving DecidableEq, Repr

/-- Sensing (14 R333, R335; 17 R414). -/
structure Sense where
  rails : List RailSample := []
  railTime : Time := 0
  winSum : Nat := 0
  winCount : Nat := 0
  power : BitVec 16 := 0
  powerTime : Time := 0
  temps : List (BitVec 16) := []
  tempSum : List Int := []
  tempCount : Nat := 0
  tmax : BitVec 16 := 0
  sensor : Nat := 0
  tmaxTime : Time := 0
  thermHigh : Bool := false
deriving DecidableEq, Repr

/-- Everything a system reset keeps (19 R436). `fresh` numbers the free values. -/
structure Aon where
  fresh : Nat := 0
  snowdrop : Bool := false
  graveSource : Nat := 0
  graveUnit : Nat := 0
  graveTime : Time := 0
  standby : Bool := false
  oscsel : Bool := false
  testMode : Bool := false
  i2caddr : BitVec 2 := 0
  thermtrip : Bool := false
  lateWrite : Cnt := 0
  lockViolation : Cnt := 0
  cfgMismatch : Cnt := 0
  bootCount : Nat := 1
  arbStep : Nat := 0
  revoked : List Nat := []
  coll : Coll := {}
  fmn : Recorder := {}
  flash : Flash := {}
  clk : Clk := {}
  pwr : PwrRegs := {}
  gov : Gov := {}
  wear : Tbl Wear := []
  sense : Sense := {}
deriving DecidableEq, Repr

/-! ### Host block and boot (17, 19) -/

/-- Boot state (19 R438-R445; 17 R412). `zeroed` lists registers whose fields of reset fw read 0 until firmware writes
them again (17 R408). -/
structure Boot where
  stage : BitVec 8 := 0
  source : BitVec 4 := 0
  result : BitVec 4 := 0
  failed : Bool := false
  bootsel : Bool := false
  running : Bool := false
  pbCompat : Bool := false
  squelch : BitVec 16 := 0
  afterPor : Bool := true
  image : List Octet := []
  bank : Nat := 0
  zeroed : List Nat := []
deriving DecidableEq, Repr

/-- The MSI-X structures of one function, and its vectors' holds (17 R409, R410). -/
structure Msix where
  table : Tbl Word := []
  pba : List Nat := []
  holds : List (Nat × Bool) := []
deriving DecidableEq, Repr

/-- The interrupt and status block (17 R413). `sent` lists the MSI-X messages sent, newest first. -/
structure Irq where
  sts : Sq := {}
  alertEn : BitVec 6 := 0b011110#6
  errInfo : Word := 0
  msix : Tbl Msix := []
  sent : List (Nat × Nat) := []
deriving DecidableEq, Repr

/-- A wide-value window (17 R405). -/
structure Wv where
  index : Word := 0
  busy : Bool := false
  valid : Bool := false
  bad : Bool := false
  value : BitVec 64 := 0
deriving DecidableEq, Repr

/-- The answer of the last read (15 R361; the reads of the block's own rows). -/
structure Bus where
  data : Word := 0
  error : Bool := false
deriving DecidableEq, Repr

/-! ### Mailboxes and firmware (15, 16) -/

/-- MBX_BIND of a channel (15 R365). -/
structure Bind where
  valid : Bool := false
  pri : Bool := false
  pairEn : Bool := false
  pair : Nat := 0
  sender : Nat := 0
  receiver : Nat := 0
deriving DecidableEq, Repr

/-- Fragments held on a channel (16 R392): their class and command, object word, messages in order, and last time. -/
structure FragHold where
  code : BitVec 16
  obj : Word
  msgs : List (List Word)
  last : Time
deriving DecidableEq, Repr

/-- An outgoing message of firmware: a completion, a reply fragment or a notification (15 R377, 16 R386-R389). -/
inductive OutKind where
  | completion
  | reply
  | notification
deriving DecidableEq, Repr

structure OutMsg where
  kind : OutKind
  ws : List Word
deriving DecidableEq, Repr

/-- A mailbox channel with firmware's memory of it (15 R365-R377; 16 R382, R392). -/
structure Chan where
  data : List Word := List.replicate 16 0
  posted : Bool := false
  taken : Bool := false
  ackValid : Bool := false
  orphan : Bool := false
  crossed : Bool := false
  waking : Bool := false
  ack : Word := 0
  sts : Sq := {}
  bind : Bind := {}
  crossTimer : Option Time := none
  crossDone : Bool := false
  lastAck : Option (Octet × Word) := none
  lastErr : Word := 0
  lastDetail : Word := 0
  frag : Option FragHold := none
  outs : List OutMsg := []
  notes : List OutMsg := []
  lostNotes : Nat := 0
deriving DecidableEq, Repr

structure Mbx where
  chans : Tbl Chan := []
  locked : Bool := false
deriving DecidableEq, Repr

/-- Control cores (15 R357, R362). -/
structure Core where
  on : Bool := true
  running : Bool := false
  remap : Bool := true
  restarting : Bool := false
deriving DecidableEq, Repr

/-- Power states of switchable units (14 R332, R338). -/
inductive Pw where
  | off
  | retain
  | waking
  | idle
  | on
deriving DecidableEq, Repr

/-- A domain or slice with the time it entered its state; for a waking slice, the time it is usable. -/
structure Dom where
  st : Pw := .off
  since : Time := 0
deriving DecidableEq, Repr

/-- Switched domains: slices (PD0-PD63), lane groups (PD64-PD79), banks (PD80-PD87), PD92, PD95 (14 R330, R332). `freed`
holds when a lane group's last port was deleted (03 R58), `cryptoAt` when the crypto engine last ended an operation. -/
structure Pd where
  slices : Tbl Dom := []
  groups : Tbl Dom := []
  freed : Tbl Time := []
  banks : Tbl Dom := []
  crypto : Bool := false
  cryptoAt : Time := 0
  debug : Bool := false
deriving DecidableEq, Repr

/-- A part of an accepted change that waits for its boundary (02 R46): the octet boundary, a frame boundary of an
object in one direction, or an instant that the change's own rows give. -/
inductive Part where
  | octet
  | frame (o : Obj) (d : Dir)
  | own
deriving DecidableEq, Repr

/-- What firmware holds for a change from its acceptance (07 R171, R188): a new context, or more load for an old one.
`unit` is the owner as a unit ID of R417. -/
structure Place where
  t : Nat
  new : Bool
  unit : Nat
  kbps : Nat
  words : Nat
deriving DecidableEq, Repr

/-- An accepted change not yet applied (02 R46-R53; 16 R386). `msgs` holds the message, or its fragments in order. -/
structure Change where
  handle : Nat
  ch : Nat
  sender : Nat
  code : BitVec 16
  tag : Octet
  msgs : List (List Word)
  obj : Obj
  trig : Time
  accepted : Time
  parts : List Part
  mem : Nat := 0xFF
  armed : Bool := true
  place : Option Place := none
deriving DecidableEq, Repr

/-- A member of an open change set, checked under R380 items 1 to 3 (16 R390). -/
structure Member where
  ch : Nat
  code : BitVec 16
  tag : Octet
  msgs : List (List Word)
deriving DecidableEq, Repr

structure CSet where
  num : Nat
  owner : Nat
  members : List Member
  last : Time
deriving DecidableEq, Repr

/-- One object setting of the configuration database (19 R447). -/
structure DbEntry where
  code : BitVec 16
  obj : Word
  sel : Word
  ws : List Word
deriving DecidableEq, Repr

/-- A ledger record held (10 R252, R254). -/
structure LedgerRec where
  seq : Nat
  octets : List Octet
deriving DecidableEq, Repr

/-- An image write in progress (19 R449). -/
structure ImgLoad where
  ch : Nat
  tag : Octet
  handle : Nat
  bank : Nat
  image : List Octet
deriving DecidableEq, Repr

/-- Firmware's own state (16 R384-R390; 19 R444-R451; 10 R249-R254). -/
structure Fw where
  cfgLock : Bool := false
  actPending : Bool := false
  activating : Option (Nat × Time) := none
  actChange : Option Change := none
  changes : List Change := []
  nextHandle : Nat := 0
  sets : List CSet := []
  db : List DbEntry := []
  dbTime : Time := 0
  load : Option ImgLoad := none
  imageStart : Time := 0
  restarts : Nat := 0
  epochE : Nat := 0
  epochSfn : BitVec 40 := 0
  utc : BitVec 64 := 0
  epochChanged : Bool := false
  tca : Tbl Cnt := []
  ledger : List LedgerRec := []
deriving DecidableEq, Repr

/-! ### Lanes and ILF (03) -/

/-- Lane states in the coding of R81. -/
inductive LaneSt where
  | down
  | cdrAcq
  | an
  | training
  | up
deriving DecidableEq, Repr

inductive IlfSt where
  | hunt
  | presync
  | sync
deriving DecidableEq, Repr

/-- The ILF receiver of a lane (03 R71-R74). `map` and `cm` are those of the last valid marker block; `out` is the
last period's delivery per sub-port: positions of data, and whether poisoned. -/
structure IlfRx where
  st : IlfSt := .hunt
  valid : Nat := 0
  crcRun : Nat := 0
  absent : Nat := 0
  loa : Bool := true
  map : List Octet := []
  cm : List Nat := []
  sourceId : Octet := 0
  held : Tbl (List Octet) := []
  out : List (Nat × List LaneWord) := []
  ctl : Cnt := 0
  ctlAt : List Nat := []
deriving DecidableEq, Repr

/-- The ILF transmitter of a lane (03 R68, R70): period count, carried bits per sub-port, the last marker block. -/
structure IlfTx where
  period : Octet := 0
  carry : Tbl (List Bool) := []
  marker : List Word := []
  payload : List Word := []
deriving DecidableEq, Repr

/-- LANE_CONFIG's fields (16 R395, class 0x02 code 0x01). -/
structure LaneCfg where
  set : Bool := false
  enable : Bool := false
  rxInv : Bool := false
  txInv : Bool := false
  rate : Nat := 0
  an : Bool := false
  train : Bool := false
  preset : Nat := 0
  rs528 : Bool := false
  ilf : Bool := false
  copper : Bool := false
  sourceId : Octet := 0
  lFixed : Nat := 0
  alpha : Nat := 0
deriving DecidableEq, Repr

/-- A lane (03 R54-R58, R75-R78, R81). -/
structure Lane where
  owner : Nat := 0
  cfg : LaneCfg := {}
  st : LaneSt := .down
  stTime : Time := 0
  acq : Time := 0
  los : Bool := true
  losTime : Time := 0
  anMismatch : Bool := false
  ilValid : Bool := false
  ilRange : Bool := false
  il : Nat := 0
  ilTime : Time := 0
  rx : IlfRx := {}
  tx : IlfTx := {}
deriving DecidableEq, Repr

/-- A module-power sense input (03 R79). `last` is the sum of the 100 samples of the last 1 s window. `side` is the side of the threshold that the power is on, above it or below,
and `sideAt` the sample since which it has been there. -/
structure MpIn where
  sum : Nat := 0
  count : Nat := 0
  last : Nat := 0
  meanTime : Time := 0
  side : Option Bool := none
  sideAt : Time := 0
  present : Bool := false
  presTime : Time := 0
  scale : Nat := 0
  threshold : Nat := 50
deriving DecidableEq, Repr

/-! ### Acceptance filters and framers (04-06) -/

/-- A filter that accepts a value received identically in enough consecutive frames (04 R96 and the like). -/
structure Filt where
  cur : Option Nat := none
  run : Nat := 0
  acc : Option Nat := none
  chg : Time := 0
deriving DecidableEq, Repr

/-- A filter over whole messages, with the message being assembled (04 R98, 05 R135). `skip`: a poisoned frame fell in
that message (04 R100). -/
structure FiltL where
  asm : List Octet := []
  cur : Option (List Octet) := none
  run : Nat := 0
  acc : Option (List Octet) := none
  chg : Time := 0
  skip : Bool := false
deriving DecidableEq, Repr

/-- A transmitted and an expected trace (16 R395 TRACE_SET). -/
structure Trace where
  tx : Option (List Octet) := none
  exp : Option (List Octet) := none
  fmt : Option Nat := none
deriving DecidableEq, Repr

/-- The frames of a port or container in one direction (02 R42, R44): their count, the start of the most recent one, and
the last valid frame start, from which a flywheel runs. -/
structure PortFrame where
  count : Cnt := 0
  start : Time := 0
  anchor : Time := 0
deriving DecidableEq, Repr

inductive FrSt where
  | oof
  | presync
  | inFrame
deriving DecidableEq, Repr

/-- DFE time counted toward an integration that stretches without signal interrupt (05 R121, R139): what is counted, and
the start of the stretch that runs. -/
structure Watch where
  acc : Nat := 0
  start : Option Time := none
deriving DecidableEq, Repr

/-- A receive framer with OOF and LOF (04 R86, R87; 05 R117, R118, R139). -/
structure Framer where
  st : FrSt := .oof
  errRun : Nat := 0
  oof : Bool := false
  lof : Bool := false
  since : Time := 0
  watch : Watch := {}
deriving DecidableEq, Repr

/-- A multiframe aligner with LOM (04 R108; 05 R121). -/
structure MfAlign where
  im : Bool := false
  exp : Nat := 0
  run : Nat := 0
  lom : Bool := false
  accum : Nat := 0
  watch : Watch := {}
deriving DecidableEq, Repr

/-- The accepted and running values of one SM, PM or TCM field (05 R130, R131): the BIP-8 over the last frames in IF,
newest first, by OTUC slice; the BEI to send, by slice. -/
structure OhField where
  tti : FiltL := {}
  stat : Filt := {}
  bdi : Bool := false
  bdiRun : Nat := 0
  bips : List (List Octet) := []
  bei : List Nat := []
  biae : Bool := false
  sink : Nat := 0
  source : Nat := 0
deriving DecidableEq, Repr

/-- The packer of a container's octets into lane words (04 R104): the octets of the word in hand, whether it began with
J1 or V5, whether it holds a justification opportunity, whether an octet came poisoned; the octets since the container's
first, none before the first; the words packed; and for each container frame begun the marks of its opportunities. -/
structure Packer where
  res : List Octet := []
  start : Bool := false
  opp : Bool := false
  bad : Bool := false
  sent : Option Nat := none
  out : List LaneWord := []
  marks : List (List (Nat × Nat × Nat)) := []
deriving DecidableEq, Repr

/-- A pointer interpreter (04 R103, R107). -/
inductive PtrSt where
  | norm
  | ais
  | lop
deriving DecidableEq, Repr

structure PtrRx where
  st : PtrSt := .lop
  act : Nat := 0
  normRun : Nat := 0
  newVal : Nat := 0
  newRun : Nat := 0
  aisRun : Nat := 0
  invRun : Nat := 0
  ndfRun : Nat := 0
  stuff : Nat := 0
deriving DecidableEq, Repr

/-- An AU or TU pointer generator (04 R105). -/
structure PtrTx where
  value : Nat := 0
  hold : Nat := 0
  ndf : Bool := false
  last : Nat := 0
deriving DecidableEq, Repr

/-! ### Defects and layers (10) -/

/-- The defects of the catalogue (10 R232), and protection's own (11 R269). -/
inductive Def where
  | los | oof | lof | rsTim | msAis | msRdi | msExc | msDeg | otuAis | lom
  | flexoLof | flexoDeskew | flexoGidm | flexoPidm | flexoMapm
  | smTim | smBdi | smDeg | fecSd
  | lobl | loaml | ethDeskew | hiBer | ethLf | ethRf
  | flexeLof | flexeLomf | flexeDeskew | flexeGidm | flexePhym | flexeMapm | flexeCalm
  | oduAis | oduOci | oduLck | oduLtc | oduTim | oduPlm | oduMsim | oduBdi | oduDeg
  | auAis | auLop | vcUneq | vcTim | vcPlm | vcRdi | vcDeg
  | gfpLfd | gfpCsf | pathTim | mtnRdi | mtnCsf | mtnDeg | fgLoa | fgMapMismatch
deriving DecidableEq, Repr

/-- One second's classification while it is held (10 R243, R244). -/
structure SecClass where
  num : Nat
  es : Bool
  ses : Bool
  bbe : Nat
  fes : Bool
  fses : Bool
  fbbe : Nat
  feEval : Bool
deriving DecidableEq, Repr

/-- A monitored layer, keyed by the object index of R245 with counter number 0 (10 R232-R244). `sent` counts defect
transitions written in the current second, `supp` those suppressed. -/
structure Layer where
  defs : List Def := []
  chg : List (Def × Time) := []
  ssf : Bool := false
  ssfTime : Time := 0
  tsf : Bool := false
  tsd : Bool := false
  noWords : Bool := false
  flagTime : Time := 0
  timAct : Option Bool := none
  plmAct : Bool := true
  timMode : Nat := 1
  erdi : Bool := false
  degM : Nat := 7
  degThr : Nat := 100
  blk : Nat := 0
  usable : Nat := 0
  eb : Nat := 0
  feb : Nat := 0
  bits : Nat := 0
  defSec : Bool := false
  feDefSec : Bool := false
  badFrame : Bool := false
  degEb : Nat := 0
  degBits : Nat := 0
  degUsable : Nat := 0
  degFail : Bool := false
  held : List SecClass := []
  unavail : Bool := false
  fUnavail : Bool := false
  degBad : Nat := 0
  degGood : Nat := 0
  excGood : Nat := 0
  fails : List Nat := []
  sent : Nat := 0
  sentSec : Nat := 0
  supp : Nat := 0
deriving DecidableEq, Repr

/-- A PM bin (10 R250): values by counter number, flags [2:0]. -/
structure Bin where
  vals : Tbl Nat := []
  flags : BitVec 3 := 0
  start : Nat := 0
deriving DecidableEq, Repr

/-- Performance monitoring (10 R245-R251). -/
structure Pm where
  run : Tbl Cnt := []
  folded : Tbl Cnt := []
  cur15 : Tbl Bin := []
  cur24 : Tbl Bin := []
  hist15 : Tbl (List Bin) := []
  prev24 : Tbl Bin := []
  fired : List Nat := []
  closed : List Nat := []
  digest : List Octet := []
deriving DecidableEq, Repr

/-! ### Ports (03-06) -/

/-- The SDH or SONET block of a port (04). `oh` holds source and value by field code; `last` the overhead of the last
received frame; `txB1`, `txB2` the BIPs over the last transmitted frame; `txOh` the overhead of that frame (see
Machine/Transmit.lean). -/
structure SdhPort where
  sonet : Bool := false
  nOof : Nat := 5
  reiExt : Bool := false
  mseX : Nat := 3
  peer : Option Nat := none
  aug : List Nat := []
  augTx : List Nat := []
  augTime : Time := 0
  ptrs : Tbl PtrRx := []
  oh : Tbl (Nat × Nat) := []
  j0 : Trace := {}
  b1 : Option Octet := none
  b2 : Option (List Octet) := none
  txB1 : Octet := 0
  txB2 : List Octet := []
  packs : Tbl Packer := []
  txLine : List Octet := []
  txJ0 : Nat := 0
  k : Filt := {}
  kSince : Nat := 0
  s1 : Filt := {}
  j0f : FiltL := {}
  rei : Nat := 0
  kPass : Nat := 0
  last : List (Nat × List Octet) := []
  txOh : Tbl (List Octet) := []
deriving DecidableEq, Repr

/-- The overhead of a transmitted FlexO frame of a lane (05 R123); `rest`: FCC, OSMC and reserved bytes. -/
structure FlexoTx where
  marker : List Octet
  mfas : Octet
  gid : BitVec 20
  pid : Octet
  map : List Octet
  rpf : Bool
  crc : BitVec 16
  rest : Octet
deriving DecidableEq, Repr

/-- A FlexO lane of an OTUCn port (05 R122, R123). `uncorr`: a codeword since the last OTUCn frame was uncorrectable; `tx`: the
overhead of the last frame sent. -/
structure FlexoLane where
  locked : Bool := false
  okRun : Nat := 0
  badRun : Nat := 0
  since : Time := 0
  lof : Bool := false
  gid : Filt := {}
  pid : Filt := {}
  map : FiltL := {}
  rpf : Bool := false
  skew : Nat := 0
  uncorr : Bool := false
  tx : Option FlexoTx := none
deriving DecidableEq, Repr

/-- The OTN block of a port (05). -/
structure OtnPort where
  cfg : Bool := false
  fec : Nat := 0
  poisonUncorr : Bool := false
  sdSet : Nat := 0xFFFFFFFF
  sdClr : Nat := 0xFFFFFFFF
  expGid : BitVec 20 := 0
  expPids : List Octet := []
  txGid : BitVec 20 := 0
  txPids : List Octet := []
  tti : Trace := {}
  mf : MfAlign := {}
  sm : OhField := {}
  iae : Bool := false
  iaeLeft : Nat := 0
  gcc0 : BitVec 16 := 0
  txLine : List Octet := []
  oh : Tbl (Nat × Nat) := []
  lanes : Tbl FlexoLane := []
  skewBad : Bool := false
  deskewOk : Nat := 0
  mfas : Octet := 0
  txMfas : Octet := 0
  txBips : List (List Octet) := []
  txOh : Tbl (List Octet) := []
deriving DecidableEq, Repr

/-- The Ethernet block of a port (06 R144-R148; 12 R298). `pcs` holds the variables of each PHY; `corrCw` and `laneSyms` are
the counters of corrected codewords and of corrected symbols per FEC lane; `out` is the last delivery toward the
cross-connect, `sent` the last packet on the line from its preamble on, `txBad` whether it ended in an Error control block. -/
structure EthPort where
  block : Bool := false
  detect : Bool := false
  errInd : Bool := true
  mark : Bool := false
  pfcRx : Bool := false
  pauseRx : Bool := false
  maxFrame : Nat := 9600
  sdSet : Nat := 0xFFFFFFFF
  sdClr : Nat := 0xFFFFFFFF
  pcs : Tbl PcsVars := []
  corrCw : Cnt := 0
  laneSyms : Tbl Cnt := []
  out : List LaneWord := []
  sent : List Octet := []
  txBad : Bool := false
  esmcTx : BitVec 4 := 0xF#4
  pfcOut : Option (Nat × Nat) := none
deriving DecidableEq, Repr

/-- A FlexE calendar change in progress (06 R153): the accepted change, and when the transmitter advertised it. -/
structure CalChange where
  handle : Nat
  mem : Nat
  start : Time
  caRun : Nat := 0
deriving DecidableEq, Repr

/-- The overhead receiver of one FlexE or MTN instance (06 R150, R151). The calendars hold a filter for each slot. -/
structure FlexeInst where
  locked : Bool := false
  mfLocked : Bool := false
  since : Time := 0
  mfSince : Time := 0
  skew : Nat := 0
  group : Filt := {}
  phy : Filt := {}
  map : FiltL := {}
  calA : List Filt := []
  calB : List Filt := []
  rpf : Bool := false
deriving DecidableEq, Repr

/-- The overhead that a FlexE group or MTN section sends: the calendar in use, RPF, its numbers, its PHY map, both calendars,
CR and CA (06 R151). -/
structure FlexeOh where
  c : Bool
  rpf : Bool
  group : BitVec 20
  phys : List Octet
  map : List Octet
  calA : List Nat
  calB : List Nat
  cr : Bool
  ca : Bool
deriving DecidableEq, Repr

/-- The FlexE or MTN block of a port (06 R149-R154). `sent` is the last transmitted overhead. `calA`, `calB` hold the transmitted client of each slot; `bankB`
and `rxBankB` name the bank in use; `relock`: C is taken from the next frame with a valid CRC. -/
structure FlexePort where
  mtn : Bool := false
  cfg : Bool := false
  handshake : Bool := true
  caTimeout : Nat := 16
  txGroup : BitVec 20 := 0
  expGroup : BitVec 20 := 0
  txPhys : List Octet := []
  expPhys : List Octet := []
  insts : Tbl FlexeInst := []
  bankB : Bool := false
  cr : Bool := false
  caOut : Bool := false
  calA : List Nat := []
  calB : List Nat := []
  rxBankB : Bool := false
  relock : Bool := true
  calmAll : Bool := false
  change : Option CalChange := none
  timeouts : Cnt := 0
  sent : Option FlexeOh := none
deriving DecidableEq, Repr

/-- A partner item's value (03 R80, R477). -/
structure Partner where
  item : Nat
  inst : Nat
  valid : Bool
  ws : List Word
  chg : Time
deriving DecidableEq, Repr

/-- What a transmitter sends in place of its normal signal (10 R237, R238; 18 R427). -/
inductive TxSig where
  | normal
  | msAis
  | oduAis
  | oduOci
  | oduLck
  | auAis
  | tuAis
  | uneq
  | localFault
  | idle
  | allOnes
  | zeros
  | squelch
deriving DecidableEq, Repr


/-- One FEC lane: the counters of R126 by their place in its list, and FEC signal degrade: corrected bits of the interval, and
the runs (05 R126, R128; 06 R144). -/
structure FecLane where
  cnt : Tbl Cnt := []
  bits : Nat := 0
  bad : Nat := 0
  good : Nat := 0
  sd : Bool := false
deriving DecidableEq, Repr

/-- A port in use (03 R59-R63). `typ` is the code of R393; lanes are numbered 0-63 line, 64-127 system. -/
structure Port where
  typ : Nat := 0
  first : Nat := 0
  lanes : Nat := 0
  mask : BitVec 16 := 0
  phys : Nat := 0
  owner : Nat := 0
  created : Time := 0
  rxF : PortFrame := {}
  txF : PortFrame := {}
  fr : Framer := {}
  sdh : SdhPort := {}
  otn : OtnPort := {}
  eth : EthPort := {}
  flx : FlexePort := {}
  partner : List Partner := []
  fecs : Tbl FecLane := []
  fecOut : Bool := false
  tx : TxSig := .normal
  backward : Bool := false
  entered : Bool := false
deriving DecidableEq, Repr

/-! ### Tributaries (07) -/

/-- An elastic store's place and pointers (07 R173 W15-W18). -/
structure Es where
  base : Nat := 0
  size : Nat := 0
  wr : Nat := 0
  rd : Nat := 0
deriving DecidableEq, Repr

/-- GFP delineation states (07 R173 W22). -/
inductive Delin where
  | hunt
  | presync
  | sync
deriving DecidableEq, Repr

/-- A fine-grain carrier's receiver and transmitter (06 R156-R161). Maps hold an owner per assignable position. -/
structure FgCar where
  st : IlfSt := .hunt
  run : Nat := 0
  absent : Nat := 0
  expSeq : Nat := 0
  loa : Bool := false
  bank : Bool := false
  nextAm : Option Bool := none
  maps : List (Option (List Nat)) := [none, none]
  asm : List Nat := []
  cur : Option (Bool × List Nat) := none
  curRun : Nat := 0
  crRx : Bool := false
  caTx : Bool := false
  txBank : Bool := false
  txMaps : List (List Nat) := [[], []]
  cr : Bool := false
  ms : Bool := false
  caOk : Bool := false
  change : Option (Nat × Nat × Time) := none
  timeouts : Cnt := 0
  carrierId : Octet := 0
  rxCarrierId : Octet := 0
deriving DecidableEq, Repr

/-- An ODUflex resize in progress (07 R188). -/
structure Resize where
  handle : Nat
  old : Nat
  new : Nat
  step : Nat
deriving DecidableEq, Repr

/-- A stream-segment receiver of a container (07 R185). -/
structure SegRx where
  exp : Nat := 0
  held : Nat := 0
deriving DecidableEq, Repr

/-- Drain of a stopped tributary (07 R189-R191). -/
structure Drain where
  since : Time
  delete : Option Nat
deriving DecidableEq, Repr

/-- What a container of blocks sends (06 R155, R158): its last block, the BAS and APS of a terminated MTN path, the blocks since
the last BAS, and the counter FG_OCODE_CONFLICT. -/
structure BlkTx where
  out : Option Block66 := none
  bas : Option BasBlock := none
  aps : Word := 0
  since : Nat := 0
  ocodes : Cnt := 0
deriving DecidableEq, Repr

/-- A tributary context (07 R172, R173) with its filter memory. Fields bear the names of the context words;
`unit` is the owner as a unit ID of R417. `txEn`, `txOpts`, `txTol`, `txMin` and `txMax` are the transmit direction's
halves of enabled, opts, clock_tol, cm_min and cm_max, which differ between the boundaries of the two directions
(02 R46). W1 role and W9 are views of the children and connections (`isTerminated`,
`xcKindOf`, `peerOf`). -/
structure Trib where
  typ : Nat := 0
  method : Nat := 0
  enabled : Bool := true
  txEn : Bool := true
  rxOn : Bool := true
  txOn : Bool := true
  migrating : Bool := false
  parent : Nat := 0
  port : Option Nat := none
  rate : Nat := 0
  pos : Word := 0
  au : Nat := 0
  tsMap : List Word := []
  tol : Nat := 0
  mOct : Nat := 0
  opts : BitVec 12 := 0
  txOpts : BitVec 12 := 0
  txTol : Nat := 0
  pServer : Nat := 0
  cmMin : Nat := 0
  segOct : Nat := 0
  cmMax : Nat := 0
  cmFrac : Nat := 0
  txMin : Nat := 0
  txMax : Nat := 0
  cmRx : Nat := 0
  sumRx : Nat := 0
  jcRx : Nat := 0
  cmTx : Nat := 0
  acc : Int := 0
  sumTx : Nat := 0
  jcTx : Nat := 0
  esRx : Es := {}
  esTx : Es := {}
  rxF : PortFrame := {}
  txF : PortFrame := {}
  fr : Framer := {}
  mf : MfAlign := {}
  ptr : PtrRx := {}
  ptrTx : PtrTx := {}
  delin : Delin := .hunt
  gfpFill : Nat := 0
  seqTx : Nat := 0
  segs : Tbl SegRx := []
  pli : Nat := 0
  chk : List Word := [0, 0, 0, 0]
  filt : Nat := 0
  poisonOut : Nat := 0
  discard : Nat := 0
  unit : Nat := 0xFF
  shadow : Nat := 0
  gen : BitVec 16 := 0
  owner : Nat := 0
  created : Time := 0
  lck : Bool := false
  drain : Option Drain := none
  badWords : List Nat := []
  poisoned : Bool := false
  pm : OhField := {}
  tcm : Tbl OhField := []
  traces : Tbl Trace := []
  ftfl : FiltL := {}
  psi : FiltL := {}
  pt : Filt := {}
  expPt : Option Nat := none
  structPt : Nat := 0
  msiBad : List Nat := []
  aps : Tbl Filt := []
  label : Filt := {}
  expLabel : Option Nat := none
  txLabel : Nat := 0
  jf : FiltL := {}
  rdiRun : Nat := 0
  rdiTx : Bool := false
  reiTx : Nat := 0
  oh : Tbl (Nat × Nat) := []
  txMfas : Octet := 0
  txBips : List (List Octet) := []
  txOh : Tbl (List Octet) := []
  tug3 : List Nat := []
  tug2 : List Nat := []
  h4 : MfAlign := {}
  just : List (List (Nat × Nat × Nat)) := []
  ohIn : List Octet := []
  pack : Packer := {}
  rxAcc : List LaneWord := []
  txAcc : List LaneWord := []
  swBip : Octet := 0
  entry : Nat := 0
  rewrites : List Nat := []
  txGot : Option Nat := none
  tuOut : List (List Octet) := []
  txPatch : List (Nat × List Octet) := []
  aisOut : List Octet := []
  aisB1 : Octet := 0
  txFrames : List (List Octet) := []
  cn : Nat := 0
  rxRes : List (Bool × Bool) := []
  txRes : List Bool := []
  mapJc : List Octet := []
  mapOut : List Octet := []
  gfpRx : Nat := 0
  gfpTx : Nat := 0
  segIn : List (List POct) := []
  jstHold : Nat := 0
  impBuf : List Octet := []
  tuMf : List (List POct) := []
  erdiRx : Filt := {}
  rfi : Bool := false
  connected : Bool := false
  cvOut : List Octet := []
  blk : BlkTx := {}
  basRun : Nat := 0
  csRun : Nat := 0
  iaeLeft : Nat := 0
  csfTime : Time := 0
  csfSent : Option Time := none
  impPkt : Bool := false
  fg : FgCar := {}
  resize : Option Resize := none
  bank : Nat := 0
  tx : TxSig := .normal
  backward : Bool := false
deriving DecidableEq, Repr

/-- One connection: destination fed by source, with the kind of R173 (07 R168). -/
structure Conn where
  src : Nat
  dst : Nat
  kind : Nat
deriving DecidableEq, Repr

/-! ### FIFOs and packet buffer (08) -/

/-- A FIFO (08 R195-R209, R214). The first `committed` entries are visible to the reader. `gapBad`: a count in `gap`
came poisoned; `unsure`: a poisoned gap marker was counted; `out`: words that the reader of a packet FIFO has taken of a
packet that it has not yet handed on. -/
structure Fifo where
  depth : Nat := 0
  entries : List LaneWord := []
  committed : Nat := 0
  last : LaneWord := 0xB700000000#40
  underrun : Bool := false
  under : Cnt := 0
  emptyRun : Bool := false
  gapFlag : Bool := false
  gap : Nat := 0
  drops : Cnt := 0
  dropRun : Bool := false
  overruns : Cnt := 0
  mark : Option Nat := none
  discarding : Bool := false
  stalled : Bool := false
  stalls : Cnt := 0
  poisonAny : Bool := false
  pktLen : Nat := 0
  lenIn : Option Word := none
  gapBad : Bool := false
  unsure : Bool := false
  out : List LaneWord := []
deriving DecidableEq, Repr

/-- A watermark group (08 R210-R212). -/
structure WGroup where
  high : Nat := 0
  low : Nat := 0
  pfc : Option (Nat × Nat) := none
  members : List (Nat × Bool × Nat) := []
  on : Bool := false
deriving DecidableEq, Repr

/-- A packet-buffer bank's compatibility reader (08 R215-R220): what it expects, and the packet being rebuilt. -/
inductive PbExpect where
  | control
  | data (left : Nat) (len : Nat) (poison : Bool) (read : List LaneWord)
  | gapCount
  | skip
deriving DecidableEq, Repr

structure PbBank where
  corr : Cnt := 0
  uncorr : Cnt := 0
  expect : PbExpect := .control
  out : List LaneWord := []
deriving DecidableEq, Repr

/-! ### Scheduling (12) -/

inductive QKind where
  | strict
  | cbs
  | deferrable
  | bestEffort
deriving DecidableEq, Repr

/-- A packet in a queue (12 R287, R300): length, commit time, the gap marker that precedes it (its count; 0 for none),
its lane words, the HBM channels that its granules lie in where it is spilled (01 R29), whether it is released and spilled,
and what it has counted at its head. -/
structure QPkt where
  len : Nat
  at_ : Time
  ws : List LaneWord := []
  chans : List Nat := []
  gap : Nat := 0
  released : Bool
  spilled : Bool
  heldGate : Bool := false
  heldPfc : Bool := false
deriving DecidableEq, Repr

/-- The parameters of R286. -/
structure QCfg where
  kind : QKind := .bestEffort
  spill : Bool := false
  weight : Nat := 1
  maxOct : Nat := 1048576
  quota : Nat := 1048576
  yellow : Nat := 524288
  pir : Nat := 0
  pbs : Nat := 0
  slope : Nat := 0
  defer : Nat := 1000
  minRate : Nat := 0
  batchMax : Nat := 524288
deriving DecidableEq, Repr

/-- A class queue (12 R286-R303). `bucket` is in 2^-21 octet and full where it is none, `credit` in 2^-18 bit, both as
they stood at `upd`; `cnt` holds the counters of R303 by their place in its table. -/
structure Queue where
  cfg : Option QCfg := none
  pkts : List QPkt := []
  gap : Nat := 0
  deficit : Nat := 0
  bucket : Option Nat := none
  credit : Int := 0
  upd : Time := 0
  cnt : Tbl Cnt := []
  maxSoj : Nat := 0
  sojAt : Time := 0
  sojLen : Nat := 0
  maxDepth : Nat := 0
  depthAt : Time := 0
  paused : Option Time := none
  bank : Nat := 0
deriving DecidableEq, Repr

structure Gate where
  entries : List (Octet × Nat)
  start : Time
deriving DecidableEq, Repr

/-- A stream's scheduler (12 R284, R290-R297). `gateIdx` is the entry in force and `gateEnd` its end; `overrun` marks a
packet that started under an older list; `rr` is the class whose DWRR turn it is, `rrOpen` whether it has had its quantum. -/
structure Sched where
  hold : Bool := false
  gateEn : Bool := true
  queues : Tbl Queue := (List.range 8).map fun c => (c, { bank := c })
  busyUntil : Time := 0
  sending : Option Nat := none
  gate : Option Gate := none
  gateIdx : Nat := 0
  gateEnd : Time := 0
  rr : Nat := 7
  rrOpen : Bool := false
  lateStart : Cnt := 0
  outGap : Nat := 0
  overrun : Bool := false
deriving DecidableEq, Repr

/-- A policer (12 R289): rates in kb/s, buckets in 2^-21 octet as they stood at `upd`. -/
structure Policer where
  cir : Nat
  pir : Nat
  cbs : Nat
  pbs : Nat
  tc : Nat
  tp : Nat
  upd : Time
deriving DecidableEq, Repr

/-- The classifier of a source stream (12 R285, R289, R303), and the items that gap markers read from its PKT_IN announce
before its next packet (08 R204). -/
structure ClassMap where
  map : List Nat := [0, 1, 2, 3, 4, 5, 6, 7]
  dflt : Nat := 0
  pol : Tbl Policer := []
  yellow : Tbl Cnt := []
  red : Tbl Cnt := []
  gapIn : Nat := 0
deriving DecidableEq, Repr

/-- The packet-buffer overflow region of the HBM (01 R27-R29): the next granule to be written, counted over the live channels
only, and the octets moved to and from the region in the DFE frame of a number. -/
structure Spill where
  pos : Nat := 0
  frame : Nat := 0
  moved : Nat := 0
deriving DecidableEq, Repr

/-! ### Protection (11) -/

/-- Requests, highest priority first (11 R263). -/
inductive Req where
  | lo | sfp | fs | sf | sd | ms | msw | wtr | exer | rr | dnr | nr
deriving DecidableEq, Repr

/-- A member of a group with its inputs (11 R259, R266): aTSF, aSSF and aTSD of its monitoring point with the time of the
last change, and the SF and SD that hold-off has let through. -/
structure PgMem where
  o : Obj
  high : Bool := false
  tsf : Bool := false
  ssf : Bool := false
  tsd : Bool := false
  chg : Time := 0
  rsf : Bool := false
  rsd : Bool := false
  hold : Option Time := none
deriving DecidableEq, Repr

/-- Accepted far-end APS (11 R265, R269): request, its sig_pri, requested and bridged member, architecture bits. -/
structure FarAps where
  req : Req := .nr
  high : Bool := false
  mem : Nat := 0
  bridged : Nat := 0
  arch : Option Nat := none
deriving DecidableEq, Repr

inductive AlSt where
  | notAligned
  | search
  | confirm
  | aligned
  | hold
deriving DecidableEq, Repr

/-- A recorded frame signature (11 R275). -/
structure SigRec where
  num : Nat
  sig : Word
  valid : Bool
  at_ : Time
deriving DecidableEq, Repr

/-- A data line of an alignment buffer: up to 16 payload words, its descriptor, and the frame number of its first word in full
(11 R274). -/
structure ErrlLine where
  words : List Word
  desc : BitVec 16
  num : Nat
deriving DecidableEq, Repr

/-- Errorless state (11 R272-R278). `offset` and `d` are the frame number and the arrival time of a P copy less those of
the W copy; `need` counts HBM units and `chans` those held in each HBM channel; `lines` is the earlier member's buffer,
`guarded` the later member's frames that wait, `out` the frame last delivered; `lag` is the output's lag behind the selected
member. -/
structure Errl where
  on : Bool := false
  st : AlSt := .notAligned
  freeSince : Option Time := none
  offset : Int := 0
  d : Int := 0
  run : Nat := 0
  miss : Nat := 0
  wSigs : List SigRec := []
  pSigs : List SigRec := []
  noMatch : Time := 0
  excessRaised : Bool := false
  noMatchRaised : Bool := false
  need : Nat := 0
  chans : List Nat := []
  lines : List ErrlLine := []
  guarded : List (Nat × List LaneWord) := []
  out : List LaneWord := []
  guard : Nat := 0
  nsw : Option Int := none
  late : Bool := false
  lag : Nat := 0
  buildOut : Option Nat := none
deriving DecidableEq, Repr

/-- A protection group (11 R256-R270). `sel` is the working member that P is decided to stand for, 0 for none, and
`selNow` the one it stands for; `bridge` and `bridgeNow` likewise. `why`: P is selected for SF or SD of that member.
`times` holds the last change of each item of R270. -/
structure Pg where
  typ : Nat := 0
  point : Nat := 0
  tcm : Nat := 0
  bidir : Bool := false
  revertive : Bool := false
  apsEn : Bool := false
  sdEn : Bool := true
  holdOff : Nat := 0
  wtr : Nat := 5
  preWin : Nat := 20
  maxDelay : Nat := 120
  owner : Nat := 0
  ws : List PgMem := []
  p : PgMem := { o := .dev }
  cmd : Option (Req × Nat) := none
  far : FarAps := {}
  act : Req := .nr
  actMem : Nat := 0
  actLocal : Bool := true
  txReq : Req := .nr
  txMem : Nat := 0
  reqTime : Time := 0
  sel : Nat := 0
  selNow : Nat := 0
  bridge : Nat := 0
  bridgeNow : Nat := 0
  why : Bool := false
  wtrEnd : Option Time := none
  dnr : Bool := false
  fopPm : Bool := false
  fopNr : Bool := false
  fopInv : Bool := false
  cnt : Tbl Cnt := []
  times : Tbl Time := []
  errl : Errl := {}
deriving DecidableEq, Repr

/-! ### Migration (14) -/

inductive MigSt where
  | armed
  | loaded
  | shadow
  | committed
  | cutOver
deriving DecidableEq, Repr

/-- A migration in flight (14 R342); `since` is the time of its last event, `entry` the
context entry reserved at the destination. `handle` holds the channel, handle and tag
of a GOV_MIGRATE. -/
structure Mig where
  t : Nat
  src : Nat
  dst : Nat
  st : MigSt := .armed
  since : Time := 0
  entry : Nat := 0
  handle : Option (Nat × Nat × Octet) := none
deriving DecidableEq, Repr

/-- A migration decided and not yet armed (14 R339, R341, R355). -/
structure Plan where
  t : Nat
  dst : Nat
  handle : Option (Nat × Nat × Octet) := none
deriving DecidableEq, Repr

/-! ### Clocking configuration (13) -/

structure SlotCfg where
  typ : Nat := 0
  rank : Nat := 0
  ql : BitVec 4 := 0xF#4
  bw : BitVec 16 := 0
  lane : Nat := 0
deriving DecidableEq, Repr

/-- DPLL configuration (13 R315): mode codes of CLK_DPLL_CONFIG. -/
structure DpllCfg where
  mode : Nat := 0
  revert : Bool := true
  pbo : Bool := true
  ownQl : Option (BitVec 4) := none
  list : List (Option Nat) := []
deriving DecidableEq, Repr

structure OutCfg where
  freq : Nat := 0
  hold : Bool := false
  ql : BitVec 4 := 0xF#4
deriving DecidableEq, Repr

structure ClkCfg where
  slots : Tbl SlotCfg := []
  dplls : Tbl DpllCfg := [(2, { mode := 3 })]
  outs : Tbl OutCfg := []
  ffo : Int := 0
  ssm : Option Nat := none
  xcheck : Nat := 20
  txDpll : BitVec 16 := 0
deriving DecidableEq, Repr

/-- Everything a system reset clears (19 R436). `xcOut` holds words on their way to an instance of the cross-connect's
FIFOs, `xcLast` the last that it passed, `xcSkip` the instances that discard, `xcCtx` the T number whose words the reader
of an instance takes, none while it discards; `txq` holds words that await a container's transmitter, `txOct` the octets of
those it has in hand, `payload` those of the payload of a container that its mappers have made. `feeds` lists the working members that P stands for, with that P
(11 R262, R282). -/
structure Fab where
  boot : Boot := {}
  dbgLock : Bool := false
  i2cLock : Bool := false
  scratch : Word := 0
  irq : Irq := {}
  wv : Tbl Wv := []
  bus : Bus := {}
  mbx : Mbx := {}
  cores : Tbl Core := []
  pd : Pd := {}
  fw : Fw := {}
  lanes : Tbl Lane := []
  mps : Tbl MpIn := []
  ports : Tbl Port := []
  tribs : Tbl Trib := []
  xc : List Conn := []
  xcOut : Tbl (List LaneWord) := []
  xcLast : Tbl LaneWord := []
  xcSkip : List Nat := []
  xcDiscard : Tbl Cnt := []
  xcCtx : Tbl (Option Nat) := []
  txq : Tbl (List LaneWord) := []
  txOct : Tbl (List Octet) := []
  payload : Tbl (List Octet) := []
  fifos : Tbl Fifo := []
  wgs : Tbl WGroup := []
  xoff : BitVec 16 := 0
  pb : Tbl PbBank := []
  scheds : Tbl Sched := []
  spill : Spill := {}
  maps : Tbl ClassMap := []
  pgs : Tbl Pg := []
  feeds : List (Obj × Obj) := []
  layers : Tbl Layer := []
  pm : Pm := {}
  migs : List Mig := []
  plan : List Plan := []
  clk : ClkCfg := {}
  hostMem : List (Nat × List Word) := []
deriving DecidableEq, Repr

/-- The device without its time and queue. -/
structure Dev where
  aon : Aon := {}
  fab : Fab := {}
deriving DecidableEq, Repr

/-- The whole state. -/
structure State where
  clock : Clock := {}
  dev : Dev := {}
  pending : List Instr := []
deriving DecidableEq, Repr

/-- The state right after the AON power-on reset is released (19 R436; 02 R37). -/
def State.reset : State := {}

/-- Reasons the machine stops. -/
inductive Fault where
  /-- RAIL_SAMPLE reads a core rail outside its operating range with the fabric powered: the spec calls the behaviour
  undefined (20 R458). Safe: the model stops where the hardware goes on. -/
  | coreRailOutOfRange
deriving DecidableEq, Repr

/-- Reasons the model gives no meaning. -/
inductive Refusal where
  /-- Raised by a row of the table that has no meaning yet. Safe. -/
  | notModelled (mnemonic : String)
deriving DecidableEq, Repr

end Sys2Proof.Machine
end

