-- ==== Sys2Proof/Machine/Ops.lean ====
section
/-!
DEFINITION. Named operations over the state: tables, time, sequenced status, records, interrupts, the flash, and the
gates under which a row runs.
-/
namespace Sys2Proof.Machine

/-! ### Tables -/

/-- The entry of a table at a number. -/
def tget {α : Type} : Tbl α → Nat → Option α
  | [], _ => none
  | (k, v) :: r, n => if k = n then some v else tget r n

/-- Sets the entry at a number, keeping the keys rising. -/
def tput {α : Type} : Tbl α → Nat → α → Tbl α
  | [], n, v => [(n, v)]
  | (k, w) :: r, n, v =>
    if n < k then (n, v) :: (k, w) :: r else if n = k then (n, v) :: r else (k, w) :: tput r n v

/-- Removes the entry at a number. -/
def tdel {α : Type} (t : Tbl α) (n : Nat) : Tbl α := t.filter fun e => e.1 != n

/-- The entry at a number, or a default. -/
def tgetD {α : Type} (t : Tbl α) (n : Nat) (d : α) : α := (tget t n).getD d

/-- Changes the entry at a number, from a default where there is none. -/
def tmod {α : Type} (t : Tbl α) (n : Nat) (d : α) (f : α → α) : Tbl α := tput t n (f (tgetD t n d))

/-- Changes the entry at a number if there is one. -/
def tupd {α : Type} (t : Tbl α) (n : Nat) (f : α → α) : Tbl α :=
  match tget t n with
  | some v => tput t n (f v)
  | none => t

/-- Changes every entry. -/
def tmap {α : Type} (t : Tbl α) (f : Nat → α → α) : Tbl α := t.map fun e => (e.1, f e.1 e.2)

/-- Keys strictly rising. -/
def Tbl.wf {α : Type} : Tbl α → Bool
  | [] => true
  | [_] => true
  | a :: b :: r => decide (a.1 < b.1) && Tbl.wf (b :: r)

/-- Element `n` of a list replaced. -/
def lset {α : Type} (l : List α) (n : Nat) (v : α) : List α := l.set n v

/-- A number removed from a list used as a set. -/
def sdel (l : List Nat) (n : Nat) : List Nat := l.filter (· != n)

/-- A number added to a list used as a set. -/
def sadd (l : List Nat) (n : Nat) : List Nat := if l.contains n then l else l ++ [n]

/-! ### Time (02) -/

/-- Phase units of a frame (02 R35). -/
def frame : Nat := 32768

/-- Phase units of `n` milliseconds: 8 frames each (02 R35). -/
def ms (n : Nat) : Nat := n * 8 * frame

/-- Phase units of `n` seconds (02 R35). -/
def sec (n : Nat) : Nat := n * 8000 * frame

/-- The absolute time of a clock. -/
def Clock.now (c : Clock) : Time := c.e.toNat * frame + c.phase.toNat

/-- SFN of an absolute time (02 R41). -/
def sfnOf (t : Time) : BitVec 40 := BitVec.ofNat 40 (t / frame)

/-- Phase of an absolute time. -/
def phaseOf (t : Time) : Nat := t % frame

/-- E of an absolute time. -/
def eOf (t : Time) : Nat := t / frame

/-- The seconds of R234: they begin at every E that is a multiple of 8,000. -/
def secOf (t : Time) : Nat := eOf t / 8000

/-- A time in the layout of W2 and W3 of R379. -/
def timeWords (t : Time) : List Word :=
  [wd (phaseOf t * 65536 + (sfnOf t).toNat / 2 ^ 32), wd ((sfnOf t).toNat % 2 ^ 32)]

/-- A time in the 55-bit layout SFN [54:15], phase [14:0] (17 R407). -/
def time55 (t : Time) : Nat := (sfnOf t).toNat * frame + phaseOf t

/-- How R39 classes a time against a reference time. -/
inductive TimeClass where
  | past
  | now
  | future
deriving DecidableEq, Repr

/-- R39's comparison of (SFN, phase) pairs, with d = (t_sfn − n_sfn) mod 2^40. -/
def compareTime (tSfn : BitVec 40) (tPhase : Nat) (nSfn : BitVec 40) (nPhase : Nat) : TimeClass :=
  if tSfn = nSfn then
    if nPhase < tPhase then .future else if tPhase = nPhase then .now else .past
  else if (tSfn - nSfn).toNat ≤ 2 ^ 39 then .future else .past

/-- The absolute time at or after `n` that an (SFN, phase) names, if R39 does not class it as past. -/
def absTime (sfn : BitVec 40) (phase : Nat) (n : Time) : Option Time :=
  if compareTime sfn phase (sfnOf n) (phaseOf n) = .past then none
  else some ((eOf n + (sfn - sfnOf n).toNat) * frame + phase)

/-- Is a time an octet boundary (02 R40)? -/
def isOctet (t : Time) : Bool := t % (8 * frame) == 0

/-- Is the frame one whose E is a multiple of `m` (02 R41)? -/
def atFrame (m : Nat) (t : Time) : Bool := eOf t % m == 0

/-! ### Gates -/

/-- Effects act on the device at a time. -/
abbrev Op := Time → Dev → Dev

/-- Runs an effect on a state: time and queue stay. -/
def State.onDev (s : State) (f : Op) : State := { s with dev := f s.clock.now s.dev }

/-- The outcome of a row. -/
abbrev Out := Host.Outcome State Fault Refusal

/-- A row that runs to its end. -/
def State.run (s : State) (f : Op) : Out := .next (s.onDev f)

/-- AON hardware runs in every state. -/
def gAon (f : Op) : Op := f

/-- Hardware outside AON is off in standby (14 R331). -/
def gFab (f : Op) : Op := fun t d => if d.aon.standby then d else f t d

/-- What Snowdrop stops (18 R427), and standby. -/
def gRun (f : Op) : Op := fun t d => if d.aon.standby || d.aon.snowdrop then d else f t d

/-- Firmware: it runs from stage 0x08's end, on a running core, outside Snowdrop, standby and an activation's hold
(19 R438, R450). -/
def gFw (f : Op) : Op := fun t d =>
  if d.aon.standby || d.aon.snowdrop || !d.fab.boot.running || d.fab.fw.activating.isSome then d else f t d

/-- `f` where a condition holds; otherwise nothing. -/
def whenD (b : Bool) (f : Dev → Dev) (d : Dev) : Dev := if b then f d else d

/-! ### Access to the parts of the device -/

def Dev.onAon (d : Dev) (f : Aon → Aon) : Dev := { d with aon := f d.aon }
def Dev.onFab (d : Dev) (f : Fab → Fab) : Dev := { d with fab := f d.fab }
def Dev.onColl (d : Dev) (f : Coll → Coll) : Dev := { d with aon := { d.aon with coll := f d.aon.coll } }
def Dev.onFmn (d : Dev) (f : Recorder → Recorder) : Dev := { d with aon := { d.aon with fmn := f d.aon.fmn } }
def Dev.onClk (d : Dev) (f : Clk → Clk) : Dev := { d with aon := { d.aon with clk := f d.aon.clk } }
def Dev.onPwr (d : Dev) (f : PwrRegs → PwrRegs) : Dev := { d with aon := { d.aon with pwr := f d.aon.pwr } }
def Dev.onGov (d : Dev) (f : Gov → Gov) : Dev := { d with aon := { d.aon with gov := f d.aon.gov } }
def Dev.onSense (d : Dev) (f : Sense → Sense) : Dev := { d with aon := { d.aon with sense := f d.aon.sense } }
def Dev.onIrq (d : Dev) (f : Irq → Irq) : Dev := { d with fab := { d.fab with irq := f d.fab.irq } }
def Dev.onBoot (d : Dev) (f : Boot → Boot) : Dev := { d with fab := { d.fab with boot := f d.fab.boot } }
def Dev.onFw (d : Dev) (f : Fw → Fw) : Dev := { d with fab := { d.fab with fw := f d.fab.fw } }
def Dev.onPd (d : Dev) (f : Pd → Pd) : Dev := { d with fab := { d.fab with pd := f d.fab.pd } }
def Dev.onPm (d : Dev) (f : Pm → Pm) : Dev := { d with fab := { d.fab with pm := f d.fab.pm } }
def Dev.onClkCfg (d : Dev) (f : ClkCfg → ClkCfg) : Dev := { d with fab := { d.fab with clk := f d.fab.clk } }

/-- The answer of a read. -/
def Dev.setBus (d : Dev) (w : Word) (err : Bool) : Dev := { d with fab := { d.fab with bus := ⟨w, err⟩ } }

def Dev.lane (d : Dev) (n : Nat) : Lane := tgetD d.fab.lanes n {}
def Dev.modLane (d : Dev) (n : Nat) (f : Lane → Lane) : Dev :=
  { d with fab := { d.fab with lanes := tmod d.fab.lanes n {} f } }
def Dev.port (d : Dev) (p : Nat) : Option Port := tget d.fab.ports p
def Dev.modPort (d : Dev) (p : Nat) (f : Port → Port) : Dev :=
  { d with fab := { d.fab with ports := tupd d.fab.ports p f } }
def Dev.trib (d : Dev) (t : Nat) : Option Trib := tget d.fab.tribs t
def Dev.modTrib (d : Dev) (t : Nat) (f : Trib → Trib) : Dev :=
  { d with fab := { d.fab with tribs := tupd d.fab.tribs t f } }
def Dev.pg (d : Dev) (g : Nat) : Option Pg := tget d.fab.pgs g
def Dev.modPg (d : Dev) (g : Nat) (f : Pg → Pg) : Dev :=
  { d with fab := { d.fab with pgs := tupd d.fab.pgs g f } }
def Dev.chan (d : Dev) (c : Nat) : Chan := tgetD d.fab.mbx.chans c {}
def Dev.modChan (d : Dev) (c : Nat) (f : Chan → Chan) : Dev :=
  { d with fab := { d.fab with mbx := { d.fab.mbx with chans := tmod d.fab.mbx.chans c {} f } } }
def Dev.core (d : Dev) (n : Nat) : Core := tgetD d.fab.cores n {}
def Dev.modCore (d : Dev) (n : Nat) (f : Core → Core) : Dev :=
  { d with fab := { d.fab with cores := tmod d.fab.cores n {} f } }
def Dev.layer (d : Dev) (k : Nat) : Layer := tgetD d.fab.layers k {}
def Dev.modLayer (d : Dev) (k : Nat) (f : Layer → Layer) : Dev :=
  { d with fab := { d.fab with layers := tmod d.fab.layers k {} f } }
def Dev.sched (d : Dev) (t : Nat) : Sched := tgetD d.fab.scheds t {}
def Dev.modSched (d : Dev) (t : Nat) (f : Sched → Sched) : Dev :=
  { d with fab := { d.fab with scheds := tmod d.fab.scheds t {} f } }
def Dev.dpll (d : Dev) (n : Nat) : Dpll := tgetD d.aon.clk.dplls n {}
def Dev.modDpll (d : Dev) (n : Nat) (f : Dpll → Dpll) : Dev :=
  { d with aon := { d.aon with clk := { d.aon.clk with dplls := tmod d.aon.clk.dplls n {} f } } }
def Dev.slot (d : Dev) (n : Nat) : Slot := tgetD d.aon.clk.slots n {}
def Dev.modSlot (d : Dev) (n : Nat) (f : Slot → Slot) : Dev :=
  { d with aon := { d.aon with clk := { d.aon.clk with slots := tmod d.aon.clk.slots n {} f } } }
def Dev.dpllCfg (d : Dev) (n : Nat) : DpllCfg := tgetD d.fab.clk.dplls n {}
def Dev.slotCfg (d : Dev) (n : Nat) : SlotCfg := tgetD d.fab.clk.slots n {}
def Dev.slice (d : Dev) (n : Nat) : Dom := tgetD d.fab.pd.slices n {}
def Dev.setSlice (d : Dev) (n : Nat) (x : Dom) : Dev :=
  d.onPd fun p => { p with slices := tput p.slices n x }

/-- The fifo's number in its table: class × 2^20 + number. -/
def fifoKey (f : FifoId) : Nat :=
  (match f.cls with
    | .esRx => 0 | .esTx => 1 | .pktIn => 2 | .pktOut => 3 | .xc => 4 | .pbq => 5 | .cdma => 6) * 2 ^ 20 + f.inst

def Dev.fifo (d : Dev) (f : FifoId) : Fifo := tgetD d.fab.fifos (fifoKey f) {}
def Dev.modFifo (d : Dev) (f : FifoId) (g : Fifo → Fifo) : Dev :=
  { d with fab := { d.fab with fifos := tmod d.fab.fifos (fifoKey f) {} g } }

/-! ### Numbers of ports, lanes and units -/

/-- Ports are keyed 0-1023 for P, 1024 up for SP: the object numbers of R245. -/
def portKey (side : Bool) (n : Nat) : Nat := if side then 1024 + n else n

/-- The port named by a port word (16 R393's preamble): [11] side, [9:0] number. -/
def portOfWord (n : Nat) : Nat := portKey (n / 2048 % 2 == 1) (n % 1024)

/-- The port word of a port. -/
def portWord (p : Nat) : Nat := if p < 1024 then p else 2048 + (p - 1024)

/-- Lanes are keyed 0-63 line, 64-127 system, as the lane word [6:0] and R245 number them. Its lane group 0-15 is the
port processor that R15 numbers. -/
def lgOfLane (l : Nat) : Nat := l / 8

/-- The unit ID of a port processor (18 R417). -/
def unitOfLg (g : Nat) : Nat := 0x20 + g

/-- The port processor of a port. -/
def lgOfPort (d : Dev) (p : Nat) : Nat := match d.port p with | some x => lgOfLane x.first | none => 0

/-- Object class and number as a layer key: the index of R245 with counter number 0. -/
def objKey (cls num : Nat) : Nat := cls * 2 ^ 24 + num * 128

def keyCls (k : Nat) : Nat := k / 2 ^ 24
def keyNum (k : Nat) : Nat := k / 128 % 2 ^ 17

def laneKey (l : Nat) : Nat := objKey 1 l
def secKey (p : Nat) : Nat := objKey 2 p
def lineKey (p : Nat) : Nat := objKey 3 p
def pathKey (t : Nat) : Nat := objKey 4 t
def tcmKey (lvl t : Nat) : Nat := objKey (4 + lvl) t

/-- The unit that holds an object (18 R432). -/
def unitOfObj (d : Dev) (k : Nat) : Nat :=
  match keyCls k with
  | 1 => unitOfLg (lgOfLane (keyNum k))
  | 2 => unitOfLg (lgOfPort d (keyNum k))
  | 3 => unitOfLg (lgOfPort d (keyNum k))
  | 0x0B => keyNum k
  | 0x0C => 0x30 + keyNum k
  | _ => match d.trib (keyNum k) with | some x => x.unit | none => 0xFF

/-- The owner master of an object (16 R384). -/
def ownerOfObj (d : Dev) (k : Nat) : Nat :=
  match keyCls k with
  | 1 => (d.lane (keyNum k)).owner
  | 2 => match d.port (keyNum k) with | some x => x.owner | none => 0
  | 3 => match d.port (keyNum k) with | some x => x.owner | none => 0
  | 0x0B => 0
  | 0x0C => 0
  | _ => match d.trib (keyNum k) with | some x => x.owner | none => 0

/-! ### Selected members (11 R262) -/

/-- The object whose received signal stands for an object's own. -/
def selectedObj (d : Dev) (o : Obj) : Obj := match d.fab.feeds.find? (·.1 == o) with | some e => e.2 | none => o

def selectedPort (d : Dev) (p : Nat) : Nat := match selectedObj d (.port p) with | .port q => q | _ => p
def selectedTrib (d : Dev) (t : Nat) : Nat := match selectedObj d (.trib t) with | .trib q => q | _ => t

/-- The object that a received signal serves: the working member it stands for; none where another stands for it. -/
def servedObj (d : Dev) (o : Obj) : Option Obj :=
  match d.fab.feeds.find? (·.2 == o) with
  | some e => some e.1
  | none => if selectedObj d o == o then some o else none

/-- The group whose protection member an object is. -/
def groupOfProt (d : Dev) (o : Obj) : Option Nat := (d.fab.pgs.find? fun e => e.2.p.o == o).map (·.1)

/-- The group that an object is a member of. -/
def groupOf (d : Dev) (o : Obj) : Option Nat := (d.fab.pgs.find? fun e => e.2.p.o == o || e.2.ws.any (·.o == o)).map (·.1)

/-! ### Sequenced status (17 R399) -/

/-- An event latches the bits of a mask and advances seq_num by 1. -/
def Sq.latch (q : Sq) (b : Nat) : Sq := ⟨q.seq + 1, q.bits ||| BitVec.ofNat 24 (2 ^ b)⟩

/-- A write: it clears the bits it carries only if its [31:24] equals seq_num. -/
def Sq.write (q : Sq) (w : Word) : Sq :=
  if w.extractLsb' 24 8 = q.seq then { q with bits := q.bits &&& ~~~ (w.extractLsb' 0 24) } else q

/-- The register's value. -/
def Sq.val (q : Sq) : Word := q.seq ++ q.bits

def Sq.has (q : Sq) (b : Nat) : Bool := q.bits.getLsbD b

/-! ### Interrupts (17 R409, R410) -/

/-- Is vector `v` of a function masked? Vector control is word 4v + 3 of its table, bit 0; a word never written reads
masked (log entry 10). -/
def Msix.masked (m : Msix) (v : Nat) : Bool := bitAt (tgetD m.table (4 * v + 3) 1) 0

/-- One event of vector `v` of function `fn`, at the hold of R410 and the masks. -/
def msixEvent (fn v : Nat) (d : Dev) : Dev :=
  let m := tgetD d.fab.irq.msix fn {}
  if m.masked v then
    d.onIrq fun q => { q with msix := tput q.msix fn { m with pba := sadd m.pba v } }
  else if m.holds.any (·.1 == v) then
    d.onIrq fun q => { q with msix := tput q.msix fn { m with holds := m.holds.map fun h => if h.1 == v then (v, true) else h } }
  else
    d.onIrq fun q => { q with sent := (fn, v) :: q.sent
                              msix := tput q.msix fn { m with holds := m.holds ++ [(v, false)] } }

/-- Function and vector of a master: PF0 has 0-48; VFn has one vector, device vector 48 + n (17 R409). -/
def masterEvent (mst : Nat) (pfVector : Nat) (d : Dev) : Dev :=
  if mst = 0 then msixEvent 0 pfVector d else if mst ≤ 15 then msixEvent mst 0 d else d

/-- Latches a bit of IRQ_STS and sends its vector (17 R409, R413). -/
def irqLatch (b : Nat) (d : Dev) : Dev :=
  let d := d.onIrq fun q => { q with sts := q.sts.latch b }
  if 19 ≤ b ∧ b ≤ 23 then msixEvent 0 (23 - b) d else d

/-- Records a register error in IRQ_ERR_INFO (17 R413). -/
def regErr (kind master off : Nat) (d : Dev) : Dev :=
  irqLatch 20 (d.onIrq fun q => { q with errInfo := wd (kind * 2 ^ 29 + master * 2 ^ 24 + off / 4 % 2 ^ 24) })

/-- Counts LATE_WRITE (17 R401). -/
def lateWrite (master off : Nat) (d : Dev) : Dev :=
  regErr 1 master off (d.onAon fun a => { a with lateWrite := a.lateWrite + 1 })

def pwrLatch (b : Nat) (d : Dev) : Dev := irqLatch 22 (d.onPwr fun p => { p with sts := p.sts.latch b })
def clkLatch (b : Nat) (d : Dev) : Dev := irqLatch 21 (d.onClk fun c => { c with sts := c.sts.latch b })
def recLatch (b : Nat) (d : Dev) : Dev := irqLatch 19 (d.onFmn fun r => { r with sts := r.sts.latch b })
def fltLatch (b : Nat) (d : Dev) : Dev := d.onColl fun c => { c with sts := c.sts.latch b }

/-! ### Forget-me-not (18 R432, R433) -/

/-- The words of a record whose number is `n`. -/
def recWords (n kind sub unit : Nat) (t : Time) (e : List Word) : List Word :=
  [wd (kind * 2 ^ 24 + sub * 2 ^ 16 + unit * 256 + n / 2 ^ 32 % 256), wd (n % 2 ^ 32)] ++ timeWords t ++ e

/-- Queues a record: it takes its number when it is queued; a full queue drops it, counts it and latches lost_l; the
next record queued is preceded by a records-lost record (log entry 11). -/
def addRecord (kind sub unit : Nat) (t : Time) (e : List Word) (d : Dev) : Dev :=
  let r := d.aon.fmn
  if r.frozen then d
  else if 256 ≤ r.staging.length then
    recLatch 21 (d.onFmn fun r => { r with dropped := r.dropped + 1 })
  else if r.dropped = 0 then
    d.onFmn fun r => { r with staging := r.staging ++ [⟨r.next, t, recWords r.next kind sub unit t e, false⟩]
                              next := r.next + 1 }
  else
    d.onFmn fun r => { r with
      staging := r.staging ++ [⟨r.next, t, recWords r.next 0x0C 0x01 0x51 t [wd r.dropped, 0, 0, 0], false⟩,
        ⟨r.next + 1, t, recWords (r.next + 1) kind sub unit t e, false⟩]
      next := r.next + 2, dropped := 0 }

/-- The number of the newest record written; 0 where there is none. -/
def Recorder.newest (r : Recorder) : Nat := match r.log with | x :: _ => x.num | [] => 0

/-- HBM channel of record `n` (18 R433). -/
def recHbm (n : Nat) : Nat := n % 4194304 / 64 % 16

/-- Moves one record from the queue to the log; the record that leaves the ring is copied to the HBM, or lost where
its channel is fenced or the fixed domain is off (18 R433). -/
def writeOldest (d : Dev) : Dev :=
  match d.aon.fmn.staging with
  | [] => d
  | r :: q =>
    let out := r.num - 65536
    let gone := decide (65536 ≤ r.num) && (d.aon.standby || d.aon.coll.fenced.contains (0x40 + recHbm out))
    let log := (r :: d.aon.fmn.log).map fun x => if gone && x.num == out then { x with lost := true } else x
    let d := d.onFmn fun m => { m with staging := q, log := log.take (65536 + 4194304) }
    if gone then recLatch 21 d else d

/-- Writes every queued record, oldest first. -/
def flushRecords : Nat → Dev → Dev
  | 0, d => d
  | n + 1, d => flushRecords n (writeOldest d)

/-! ### Flash (19 R440) -/

/-- The octet at a flash address; an unlisted octet is erased (log entry 6). -/
def flashGet : List (Nat × Octet) → Nat → Octet
  | [], _ => 0xFF
  | (k, v) :: r, n => if k = n then v else flashGet r n

/-- Stores one octet, in canonical form. -/
def flashPut : List (Nat × Octet) → Nat → Octet → List (Nat × Octet)
  | [], n, v => if v = 0xFF then [] else [(n, v)]
  | (k, w) :: r, n, v =>
    if n < k then (if v = 0xFF then (k, w) :: r else (n, v) :: (k, w) :: r)
    else if n = k then (if v = 0xFF then r else (n, v) :: r)
    else (k, w) :: flashPut r n v

/-- The canonical form: addresses strictly rising, no erased octet listed. -/
def Memory.wf : List (Nat × Octet) → Bool
  | [] => true
  | [a] => decide (a.2 ≠ 0xFF)
  | a :: b :: r => decide (a.2 ≠ 0xFF) && decide (a.1 < b.1) && Memory.wf (b :: r)

/-- `n` octets from an address. -/
def flashRead (m : List (Nat × Octet)) (a : Nat) : Nat → List Octet
  | 0 => []
  | n + 1 => flashGet m a :: flashRead m (a + 1) n

/-- Stores octets from an address. -/
def flashWrite (m : List (Nat × Octet)) (a : Nat) : List Octet → List (Nat × Octet)
  | [] => m
  | o :: r => flashWrite (flashPut m a o) (a + 1) r

/-- Erases `n` octets from an address, then stores octets there (19 R440). -/
def flashProgram (m : List (Nat × Octet)) (a n : Nat) (os : List Octet) : List (Nat × Octet) :=
  flashWrite (m.filter fun c => c.1 < a || a + n ≤ c.1) a os

def Dev.onFlash (d : Dev) (f : List (Nat × Octet) → List (Nat × Octet)) : Dev :=
  { d with aon := { d.aon with flash := { d.aon.flash with mem := f d.aon.flash.mem } } }

/-! ### Free values (log entry 8) -/

/-- The next value the spec leaves open. -/
def free (w : Nat) (d : Dev) : BitVec w := Config.freeValue w d.aon.fresh

/-- Moves on to the next free value. -/
def Dev.used (d : Dev) : Dev := d.onAon fun a => { a with fresh := a.fresh + 1 }

end Sys2Proof.Machine
end

