-- ==== Sys2Proof/Machine/Channels.lean ====
section
/-!
DEFINITION. Mailbox channel hardware: who may reach a channel, post, acknowledge, resets of its ends, the crossed-post
timer and the binding table (15 R364-R376).
-/
namespace Sys2Proof.Machine

/-- Does the core execute (18 R431, running)? -/
def coreRuns (d : Dev) (k : Nat) : Bool := (d.core k).running

/-- The running core of lowest number, which serves a lost core's channels (18 R425). -/
def lowestRunning (d : Dev) : Option Nat := [0, 1, 2, 3].find? (coreRuns d)

/-- The receiver of a channel now: its bound receiver, or for a lost core the core that serves it (18 R425). -/
def receiverOf (d : Dev) (c : Nat) : Nat :=
  let r := (d.chan c).bind.receiver
  if 16 ≤ r ∧ r ≤ 19 ∧ d.aon.coll.lost.contains (r - 16) then
    match lowestRunning d with | some k => 16 + k | none => r
  else r

/-- The core that serves a channel's messages, if its receiver is a running core. -/
def servingCore (d : Dev) (c : Nat) : Option Nat :=
  let r := receiverOf d c
  if 16 ≤ r ∧ r ≤ 19 ∧ coreRuns d (r - 16) then some (r - 16) else none

/-- Is a master ID PF0 or a control core? -/
def pfOrCore (m : Nat) : Bool := m == 0 || (16 ≤ m && m ≤ 19)

/-- May a master reach a channel's page (15 R364, R360)? -/
def admitsPage (d : Dev) (m c : Nat) : Bool :=
  let b := (d.chan c).bind
  pfOrCore m || (b.valid && (b.sender == m || receiverOf d c == m || b.receiver == m))

/-- Is a master the sender, or the receiver, of a channel in use? -/
def isSender (d : Dev) (m c : Nat) : Bool := (d.chan c).bind.valid && (d.chan c).bind.sender == m
def isReceiver (d : Dev) (m c : Nat) : Bool := (d.chan c).bind.valid && receiverOf d c == m

/-- The event that ack_valid raises at the sender (17 R409). -/
def ackEvent (c : Nat) (d : Dev) : Dev :=
  let m := (d.chan c).bind.sender
  if m = 20 then irqLatch 18 d else masterEvent m 48 d

/-- The event that a post raises at the receiver (15 R366; 17 R409). -/
def postEvent (c : Nat) (d : Dev) : Dev :=
  let m := (d.chan c).bind.receiver
  if m = 20 then irqLatch 18 d else masterEvent m (16 + c % 32) d

/-- Latches a bit of MBX_STS. -/
def mbxLatch (c b : Nat) (d : Dev) : Dev := d.modChan c fun x => { x with sts := x.sts.latch b }

/-- Tag of the message in the data registers (16 R378). -/
def tagOf (x : Chan) : Nat := fld (x.data.headD 0) 15 8

/-- Ends the crossed-post timer's episode of a pair: an acknowledge of either channel (15 R376). -/
def endEpisode (c : Nat) (d : Dev) : Dev :=
  let b := (d.chan c).bind
  let f := fun x : Chan => { x with crossTimer := none, crossDone := false }
  if b.pairEn then (d.modChan c f).modChan b.pair f else d

/-- The receiver's reset discards a posted message (15 R373). -/
def rxReset (c : Nat) (d : Dev) : Dev :=
  let x := d.chan c
  if !x.posted then d else
    let d := d.modChan c fun x => { x with
      posted := false, taken := false, crossed := false, ackValid := true
      ack := wd (0xE0 * 2 ^ 24 + tagOf x * 65536) }
    ackEvent c (endEpisode c (mbxLatch c 23 d))

/-- The sender's reset orphans a posted message (15 R374). -/
def orphanReset (c : Nat) (d : Dev) : Dev :=
  if !(d.chan c).posted then d else
    mbxLatch c 21 (d.modChan c fun x => { x with orphan := true, ack := 0, ackValid := false })

/-- Both ends reset in one cycle: message and acknowledge are discarded (15 R375). -/
def bothReset (c : Nat) (d : Dev) : Dev :=
  if !(d.chan c).posted then d else
    endEpisode c (mbxLatch c 21 (mbxLatch c 23 (d.modChan c fun x => { x with
      posted := false, taken := false, crossed := false, orphan := false, ackValid := false, ack := 0 })))

/-- The channels. -/
def allChans : List Nat := List.range 64

/-- The reset of some masters acts on every channel that names them (15 R373-R375). -/
def mastersReset (ms : List Nat) (d : Dev) : Dev :=
  allChans.foldl (fun d c =>
    if !(d.chan c).bind.valid then d
    else
      let tx := ms.contains (d.chan c).bind.sender
      let rx := ms.contains (receiverOf d c)
      if tx && rx then bothReset c d
      else if rx then rxReset c d
      else if tx then orphanReset c d
      else d) d

/-- Starts the crossed-post timer when both channels of a pair are posted, once per episode (15 R376). -/
def startCross (c : Nat) (t : Time) (d : Dev) : Dev :=
  let b := (d.chan c).bind
  if b.pairEn && (d.chan b.pair).posted && !(d.chan c).crossDone then
    let low := if b.pri then b.pair else c
    if (d.chan low).crossTimer.isSome then d
    else d.modChan low fun x => { x with crossTimer := some t }
  else d

/-- Is the receiver a core whose domain is off (15 R372)? -/
def receiverOff (d : Dev) (c : Nat) : Bool :=
  let r := receiverOf d c
  16 ≤ r && r ≤ 19 && !(d.core (r - 16)).on && !d.aon.coll.fenced.contains (0x38 + (r - 16))

/-- go on a channel that is not posted (15 R366, R372; 18 R425, R427). A post answered at once with RX_RESET: every
core lost, or Snowdrop. -/
def post (c : Nat) (t : Time) (d : Dev) : Dev :=
  let d := d.modChan c fun x => { x with
    posted := true, ackValid := false, taken := false, crossed := false }
  if d.aon.coll.clusterLost || d.aon.snowdrop then rxReset c d
  else
    let d := postEvent c (startCross c t d)
    if receiverOff d c then d.modChan c fun x => { x with waking := true } else d

/-- MBX_ACKW on a posted channel (15 R367, R374): an orphan's acknowledge is discarded. -/
def acknowledge (c : Nat) (v : Word) (d : Dev) : Dev :=
  let o := (d.chan c).orphan
  let d := endEpisode c (d.modChan c fun x => { x with posted := false, taken := false, crossed := false })
  if o then d.modChan c fun x => { x with orphan := false }
  else ackEvent c (d.modChan c fun x => { x with ack := v, ackValid := true })

/-- The timer's expiry: the channel of pri 0 reads CROSSED (15 R376). -/
def cross (c : Nat) (d : Dev) : Dev :=
  let b := (d.chan c).bind
  let d := d.modChan c fun x => { x with
    crossTimer := none, crossDone := true, crossed := true, ackValid := true
    ack := wd (0xE1 * 2 ^ 24 + tagOf x * 65536 + b.pair) }
  let d := d.modChan b.pair fun x => { x with crossDone := true }
  ackEvent c (mbxLatch c 22 d)

/-! ### Binding table (15 R370, R371) -/

/-- A row of a binding table: channel and binding. -/
abbrev BindTable := List (Nat × Bind)

/-- The default table of R371. -/
def defaultBinds : BindTable :=
  ((List.range 16).map fun k => (k, { valid := true, pairEn := true, pair := 32 + k, sender := k, receiver := 16 + k % 4 }))
  ++ [(16, { valid := true, pairEn := true, pair := 48, sender := 20, receiver := 16 })]
  ++ ((List.range 16).map fun k =>
    (32 + k, { valid := true, pri := true, pairEn := true, pair := k, sender := 16 + k % 4, receiver := k }))
  ++ [(48, { valid := true, pri := true, pairEn := true, pair := 16, sender := 16, receiver := 20 })]

/-- The checks under which firmware rejects its own table (15 R370). -/
def bindsOk (t : BindTable) : Bool :=
  t.all fun r => !r.2.valid ||
    (decide (r.2.sender ≤ 22) && decide (r.2.receiver ≤ 22) && r.2.sender != r.2.receiver &&
      (!r.2.pairEn ||
        match tget t r.2.pair with
        | some p => p.pairEn && p.pair == r.1 && p.sender == r.2.receiver && p.receiver == r.2.sender && p.pri != r.2.pri
        | none => false))

/-- The binding table of an image (15 R371): its policy, or the defaults. -/
def imageBinds (image : List Octet) : BindTable :=
  match Config.bindingPolicy image with
  | none => defaultBinds
  | some l => l.map fun (c, v, pri, pe, pc, tx, rx) => (c, ⟨v, pri, pe, pc, tx, rx⟩)

/-- Writes a binding table. -/
def setBinds (t : BindTable) (d : Dev) : Dev :=
  t.foldl (fun d r => d.modChan r.1 fun x => { x with bind := r.2 }) d

/-- The firmware-to-host channel bound to a master (02 R53; 16 R384): sender a core, receiver the master. -/
def outChan (d : Dev) (m : Nat) : Option Nat :=
  allChans.find? fun c =>
    let b := (d.chan c).bind
    b.valid && b.receiver == m && decide (16 ≤ b.sender) && decide (b.sender ≤ 19)

/-- Queues an outgoing message; a notification that finds its queue of 256 full is discarded and counted (15 R377). -/
def sendOut (c : Nat) (k : OutKind) (ws : List Word) (d : Dev) : Dev :=
  d.modChan c fun x =>
    match k with
    | .notification =>
      if 256 ≤ x.notes.length then { x with lostNotes := x.lostNotes + 1 }
      else { x with notes := x.notes ++ [⟨k, ws⟩] }
    | _ => { x with outs := x.outs ++ [⟨k, ws⟩] }

/-- Words of a message padded with zeros to `n`. -/
def pad (n : Nat) (ws : List Word) : List Word := ws ++ List.replicate (n - ws.length) 0

/-- Header of a firmware message of class 0x80 with `n` words (16 R378, R386-R389); the tag is the queue's. -/
def fwHeader (cmd n : Nat) : Word := wd (0x80 * 2 ^ 24 + cmd * 2 ^ 16 + (n - 8) * 16 + 1)

/-- Writes a record of an event and sends its EVENT notification to a master (16 R389): kind `nk`, object `obj`. -/
def noteRecord (m nk obj kind sub unit : Nat) (t : Time) (e : List Word) (d : Dev) : Dev :=
  let n := if d.aon.fmn.dropped = 0 then d.aon.fmn.next else d.aon.fmn.next + 1
  let ws := [fwHeader 0x10 16, wd (nk * 2 ^ 24), wd obj] ++ timeWords t ++ recWords n kind sub unit t e
  let d := addRecord kind sub unit t e d
  match outChan d m with
  | none => d
  | some c => sendOut c .notification (pad 16 ws) d

end Sys2Proof.Machine
end

