-- ==== Sys2Proof/Machine/Flags.lean ====
section
/-!
DEFINITION. Defects and counters of the monitored layers: raising and clearing, trail and server signal fail, the
defect words, block counts (10 R232-R246).
-/
namespace Sys2Proof.Machine

/-! ### Counters (10 R245-R247) -/

/-- Adds to a running counter; PM counting stops in Snowdrop (18 R427). -/
def addCnt (k num n : Nat) (d : Dev) : Dev :=
  if d.aon.snowdrop || n == 0 then d
  else d.onPm fun p => { p with run := tput p.run (k + num) (tgetD p.run (k + num) 0 + BitVec.ofNat 40 n) }

/-! ### Signal fail (10 R232, R233) -/

/-- Does a defect assert aTSF of its layer? -/
def assertsTsf (l : Layer) (x : Def) : Bool :=
  match x with
  | .oof | .msRdi | .msDeg | .smBdi | .smDeg | .fecSd | .ethRf | .oduBdi | .oduDeg | .vcRdi | .vcDeg | .mtnRdi | .mtnDeg => false
  | .oduMsim => false
  | .rsTim => l.timAct.getD false
  | .smTim | .oduTim | .vcTim | .pathTim => l.timAct.getD true
  | .oduPlm | .vcPlm => l.plmAct
  | _ => true

/-- Does a defect assert aTSD (10 R234)? -/
def assertsTsd (x : Def) : Bool :=
  match x with
  | .msDeg | .smDeg | .fecSd | .oduDeg | .vcDeg | .mtnDeg => true
  | _ => false

/-- Is a defect the far-end defect of its layer (10 R242)? -/
def isFarDef (x : Def) : Bool :=
  match x with | .msRdi | .smBdi | .oduBdi | .vcRdi | .ethRf | .mtnRdi => true | _ => false

/-- Does a tributary defect depend on received content (10 R233)? -/
def contentDef (x : Def) : Bool :=
  match x with
  | .oduTim | .vcTim | .pathTim | .oduPlm | .vcPlm | .oduMsim | .oduBdi | .vcRdi | .mtnRdi | .oduDeg | .vcDeg | .mtnDeg
  | .vcUneq | .oduAis | .oduOci | .oduLck | .oduLtc => true
  | _ => false

/-- Is a port defect suppressed by others of its port (10 R233)? -/
def portSuppressed (d : Dev) (k : Nat) (x : Def) : Bool :=
  let sec := d.layer (secKey (keyNum k))
  let line := d.layer (lineKey (keyNum k))
  match x with
  | .rsTim | .msRdi | .msExc | .msDeg => line.defs.contains .msAis || sec.defs.contains .lof
  | .smTim | .smBdi | .smDeg => sec.defs.contains .lof || sec.defs.contains .lom || sec.defs.contains .otuAis
  | _ => false

/-- Is a VC type that carries lower-order VCs or none (07 R164)? -/
def isVc (typ : Nat) : Bool := 0x10 ≤ typ && typ ≤ 0x15
def isOdu (typ : Nat) : Bool := 0x01 ≤ typ && typ ≤ 0x0A

/-- aTSF of a layer from its defects; LOM of a VC fails the lower-order VCs, not the VC. -/
def tsfOf (d : Dev) (k : Nat) (l : Layer) : Bool :=
  let vc := keyCls k == 4 && (match d.trib (keyNum k) with | some x => isVc x.typ | none => false)
  l.defs.any fun x => assertsTsf l x && !(vc && x == .lom)

/-- Does a port fail what it carries: aTSF or aSSF of its outermost client layer? -/
def portFail (d : Dev) (p : Nat) : Bool :=
  let q := selectedPort d p
  (d.layer (secKey q)).tsf || (d.layer (lineKey q)).tsf

/-- A tributary's levels of TCM in TERMINATE have aTSF. -/
def tcmFail (d : Dev) (t : Nat) (x : Trib) : Bool :=
  [1, 2, 3, 4, 5, 6].any fun i => (tgetD x.tcm i {}).sink == 2 && (d.layer (tcmKey i t)).tsf

/-- The tributary slots of a ts_map: slot s is bit 31 − (s mod 32) of word s div 32 (07 R173). -/
def tsSlots (m : List Word) : List Nat := (List.range 160).filter fun s => bitAt (m.getD (s / 32) 0) (31 - s % 32)

/-- Has a context stopped: no unit owns it (01 R33)? -/
def stoppedTrib (x : Trib) : Bool := x.unit == 0xFF
def stopped (d : Dev) (n : Nat) : Bool := match d.trib n with | some x => stoppedTrib x | none => false

/-- The server of a tributary fails it: the port or container that carries it, to the depth of R14. -/
def serverFail (d : Dev) : Nat → Nat → Bool
  | 0, _ => false
  | n + 1, t =>
    match d.trib t with
    | none => false
    | some x =>
      match x.port with
      | some p => portFail d p
      | none =>
        match d.trib x.parent with
        | none => false
        | some y =>
          let q := selectedTrib d x.parent
          (d.layer (pathKey q)).tsf || (d.layer (pathKey q)).noWords || stopped d q || tcmFail d q y || serverFail d n q
            || (!y.msiBad.isEmpty && (tsSlots x.tsMap).any y.msiBad.contains)
            || (isVc x.typ && (d.layer (pathKey x.parent)).defs.contains .lom)

/-- aSSF of a layer (10 R233). -/
def ssfOf (d : Dev) (k : Nat) : Bool :=
  match keyCls k with
  | 2 => false
  | 3 => (d.layer (secKey (keyNum k))).tsf
  | 4 => serverFail d 5 (keyNum k) || (match d.trib (keyNum k) with | some x => tcmFail d (keyNum k) x | none => false)
  | _ => serverFail d 5 (keyNum k)

/-- A layer with signal fail or no words (10 R243). -/
def Layer.failing (l : Layer) : Bool := l.tsf || l.ssf || l.noWords

/-- Takes up a layer's new aTSF, aSSF and aTSD with the time of change. -/
def refreshLayer (d : Dev) (t : Time) (k : Nat) (l : Layer) : Layer :=
  let ssf := ssfOf d k
  let tsf := tsfOf d k l
  let tsd := l.defs.any assertsTsd
  let l := { l with ssfTime := if ssf == l.ssf then l.ssfTime else t
                    flagTime := if tsf == l.tsf && tsd == l.tsd then l.flagTime else t
                    ssf := ssf, tsf := tsf, tsd := tsd }
  { l with defSec := l.defSec || l.failing, degFail := l.degFail || l.failing }

/-- Recomputes every layer once. -/
def refreshOnce (t : Time) (d : Dev) : Dev :=
  d.onFab fun f => { f with layers := tmap f.layers fun k l => refreshLayer d t k l }

/-- Signal fail runs down the layers: two passes settle it, since aSSF is taken from aTSF at every level. -/
def refresh (t : Time) (d : Dev) : Dev := refreshOnce t (refreshOnce t d)

/-! ### Defect words -/

/-- The bit of a tributary's defect in W28 (10 R235). -/
def w28Bit (x : Def) : Nat :=
  match x with
  | .oduAis | .auAis => 30
  | .auLop => 29
  | .lof => 28
  | .lom => 27
  | .oduOci => 26
  | .oduLck => 25
  | .vcUneq => 24
  | .oduTim | .vcTim | .pathTim => 23
  | .oduPlm | .vcPlm => 22
  | .oduMsim => 21
  | .oduBdi | .vcRdi | .mtnRdi => 20
  | .oduLtc => 19
  | .oduDeg | .vcDeg | .mtnDeg => 18
  | .gfpLfd => 17
  | .gfpCsf | .mtnCsf => 16
  | .ethLf => 15
  | .ethRf => 14
  | .fgLoa => 13
  | .fgMapMismatch | .flexeCalm => 12
  | _ => 0

/-- The bit of a port defect in the port's defect word (log entry 14). -/
def portBit (x : Def) : Nat :=
  match x with
  | .los => 30 | .oof => 29 | .lof => 28 | .lom => 27 | .otuAis => 26 | .msAis => 25 | .rsTim => 24 | .smTim => 23
  | .msRdi => 22 | .msExc => 21 | .smBdi => 20 | .msDeg => 19 | .smDeg => 18 | .fecSd => 17 | .lobl => 16 | .loaml => 15
  | .ethDeskew => 14 | .hiBer => 13 | .ethLf => 12 | .ethRf => 9 | .flexoLof | .flexeLof => 8 | .flexeLomf => 7
  | .flexoDeskew | .flexeDeskew => 6 | .flexoGidm | .flexeGidm => 5 | .flexoPidm | .flexePhym => 4
  | .flexoMapm | .flexeMapm => 3 | .flexeCalm => 2
  | _ => 0

/-- The bit of a defect of a layer. -/
def defBit (k : Nat) (x : Def) : Nat := if keyCls k ≤ 3 then portBit x else w28Bit x

/-- A set of bits from a list of bit numbers. -/
def maskOf (bs : List Nat) : Nat := bs.foldl (fun a b => a ||| 2 ^ b) 0

/-- The defects of a layer as bits, with aSSF, aTSF and aTSD. -/
def layerBits (k : Nat) (l : Layer) : Nat :=
  maskOf (l.defs.map (defBit k)) ||| (b2n l.ssf * 2 ^ 31 + b2n l.tsf * 2 ^ 11 + b2n l.tsd * 2 ^ 10)

/-- W28 of a tributary: its path layer, and the OR of its TCM levels (10 R235). -/
def w28 (d : Dev) (t : Nat) : Word :=
  wd ([1, 2, 3, 4, 5, 6].foldl (fun a i => a ||| maskOf ((d.layer (tcmKey i t)).defs.map w28Bit))
    (layerBits (pathKey t) (d.layer (pathKey t))))

/-- Records a transition, at most 4 per object in each second (10 R241). -/
def recordDef (k oldBits : Nat) (t : Time) (d : Dev) : Dev :=
  let l := d.layer k
  let now := layerBits k l
  if now = oldBits then d
  else
    let sent := if l.sentSec = secOf t then l.sent else 0
    if sent < 4 then
      let d := addRecord 0x01 0 (unitOfObj d k) t [wd k, wd now, wd (now ^^^ oldBits), wd l.supp] d
      d.modLayer k fun l => { l with sent := sent + 1, sentSec := secOf t, supp := 0 }
    else d.modLayer k fun l => { l with supp := l.supp + 1, sentSec := secOf t, sent := sent }

/-- Raises or clears a defect of a layer; a defect that R233 holds keeps its state. -/
def setDef (k : Nat) (x : Def) (on : Bool) (t : Time) (d : Dev) : Dev :=
  let l := d.layer k
  let held := (4 ≤ keyCls k && l.ssf && contentDef x) || (keyCls k ≤ 3 && portSuppressed d k x)
  if held || l.defs.contains x == on then d
  else
    let old := layerBits k l
    let d := d.modLayer k fun l => { l with
      defs := if on then l.defs ++ [x] else l.defs.filter (· != x)
      chg := (x, t) :: l.chg.filter (·.1 != x) }
    recordDef k old t (refresh t d)

/-- Is a defect raised? -/
def hasDef (d : Dev) (k : Nat) (x : Def) : Bool := (d.layer k).defs.contains x

/-- The source delivers no words, or delivers again (10 R236). -/
def setNoWords (k : Nat) (b : Bool) (t : Time) (d : Dev) : Dev :=
  refresh t (d.modLayer k fun l => { l with noWords := b })

/-- LOS of a port: a lane of it has LANE_LOS (ILF: ILF_LOA or a map mismatch are set at their own rows). -/
def laneLos (d : Dev) (x : Port) : Bool :=
  (List.range (max x.lanes 1)).any fun i => (d.lane (x.first + i)).los

/-- Does a lane carry a port? -/
def portHasLane (x : Port) (l : Nat) : Bool := x.first ≤ l && l < x.first + max x.lanes 1

/-- Ports on a lane. -/
def portsOnLane (d : Dev) (l : Nat) : List Nat := (d.fab.ports.filter fun e => portHasLane e.2 l).map (·.1)

/-! ### Blocks (10 R242) -/

/-- A received block with its mismatch bits; an unusable block is counted as received only. -/
def blockRx (k bits : Nat) (usable : Bool) (d : Dev) : Dev :=
  let e := b2n (usable && decide (0 < bits))
  let d := addCnt k 0 1 d
  let d := if usable then addCnt k 0x08 bits (addCnt k 0x01 e d) else d
  if d.aon.snowdrop then d
  else d.modLayer k fun l => { l with
    blk := l.blk + 1, usable := l.usable + b2n usable, eb := l.eb + e
    degEb := l.degEb + e, degBits := l.degBits + (if usable then bits else 0), degUsable := l.degUsable + b2n usable }

/-- A received block whose errored block is no BIP mismatch (10 R242). -/
def blockPlain (k : Nat) (err : Bool) (d : Dev) : Dev :=
  let d := addCnt k 0x01 (b2n err) (addCnt k 0 1 d)
  if d.aon.snowdrop then d
  else d.modLayer k fun l => { l with
    blk := l.blk + 1, usable := l.usable + 1, eb := l.eb + b2n err, degEb := l.degEb + b2n err, degUsable := l.degUsable + 1 }

/-- A received far-end count: REI or BEI; the far-end counters exist from class 0x03 (10 R246). -/
def farRx (k n : Nat) (d : Dev) : Dev :=
  let d := if keyCls k < 3 then d else addCnt k 0x18 n (addCnt k 0x11 (b2n (decide (0 < n))) d)
  if d.aon.snowdrop then d else d.modLayer k fun l => { l with feb := l.feb + b2n (decide (0 < n)) }

/-- Any time with the far-end defect in the second (10 R243). -/
def farDef (k : Nat) (b : Bool) (d : Dev) : Dev :=
  if b then d.modLayer k fun l => { l with feDefSec := true } else d

/-! ### Counted time (05 R121, R139) -/

/-- The time counted. -/
def Watch.value (w : Watch) (t : Time) : Nat := w.acc + (match w.start with | some s => t - s | none => 0)
def Watch.stop (w : Watch) (t : Time) : Watch := ⟨w.value t, none⟩
def Watch.go (w : Watch) (t : Time) : Watch := if w.start.isSome then w else { w with start := some t }

/-- Counts from 0, running or held. -/
def Watch.restart (t : Time) (run : Bool) : Watch := ⟨0, if run then some t else none⟩

/-! ### Filters -/

/-- One more received value of a filter that accepts a value received identically in `n` consecutive frames; a poisoned
frame leaves it as it is (04 R88, R96; 05 R136). -/
def Filt.step (f : Filt) (n v : Nat) (t : Time) : Filt :=
  let run := if f.cur = some v then f.run + 1 else 1
  if n ≤ run ∧ f.acc ≠ some v then { cur := some v, run := run, acc := some v, chg := t }
  else { f with cur := some v, run := run }

/-- The same for whole messages. -/
def FiltL.step (f : FiltL) (n : Nat) (v : List Octet) (t : Time) : FiltL :=
  let run := if f.cur = some v then f.run + 1 else 1
  if n ≤ run ∧ f.acc ≠ some v then { f with cur := some v, run := run, acc := some v, chg := t }
  else { f with cur := some v, run := run }

end Sys2Proof.Machine
end

