-- ==== Sys2Proof/Machine/LaneState.lean ====
section
/-!
DEFINITION. What a lane's state does to the rest: loss of signal of its ports, and the reference slots that take its
clock, with the clocking events and the witness (03 R57, R71, R73; 05 R122; 13 R309, R312, R323, R328).
-/
namespace Sys2Proof.Machine

/-! ### Types and rates -/

def isSdh (typ : Nat) : Bool := decide (1 ≤ typ) && decide (typ ≤ 5)
def isOtuk (typ : Nat) : Bool := decide (8 ≤ typ) && decide (typ ≤ 0x0C)
def isOtn (typ : Nat) : Bool := decide (8 ≤ typ) && decide (typ ≤ 0x0D)
def isEth (typ : Nat) : Bool := decide (0x10 ≤ typ) && decide (typ ≤ 0x16)
def isFlexe (typ : Nat) : Bool := typ == 0x18 || typ == 0x19

/-- Slots of an ILF mask. -/
def maskSlots (m : BitVec 16) : List Nat := (List.range 16).filter fun i => m.getLsbD i

/-- ILF sub-port index of a port (03 R61). -/
def subOf (p : Nat) (x : Port) : Nat := if x.first < 64 then p - 16 * x.first else (p - 1024) - 4 * (x.first - 64)

/-- The ports carried on an ILF lane, with their sub-port index. -/
def ilfPorts (d : Dev) (l : Nat) : List (Nat × Port) := d.fab.ports.filter fun e => e.2.lanes == 0 && e.2.first == l

/-! ### Events (13 R328) -/

/-- A clocking event: its record and PF0's notification. `what` is the event in the order of R328. -/
def clkEvent (what obj new old : Nat) (t : Time) (d : Dev) : Dev :=
  noteRecord 0 0x05 obj 0x07 what 0x51 t [wd obj, wd new, wd old, 0] d

/-! ### Slots (13 R308-R313) -/

/-- Is the slot a recovered lane clock? -/
def slotRecovered (c : SlotCfg) : Bool := c.typ == 5 || c.typ == 6

/-- May the slot be monitored: a type, and for a recovered clock its lane in UP (13 R309)? -/
def slotLive (d : Dev) (n : Nat) : Bool :=
  let c := d.slotCfg n
  c.typ != 0 && (!slotRecovered c || (d.lane c.lane).st == .up)

/-- Takes up a slot's item with the time of its change. -/
def slotTime (n item : Nat) (t : Time) (d : Dev) : Dev := d.modSlot n fun x => { x with times := tput x.times item t }

/-- Sets a slot's qualification: qual_l, and the event. -/
def setQualified (n : Nat) (q : Bool) (t : Time) (d : Dev) : Dev :=
  if (d.slot n).qualified == q then d
  else clkEvent 1 n (b2n q) (b2n !q) t (clkLatch 23 (slotTime n 2 t (d.modSlot n fun x => { x with qualified := q })))

/-- Disqualifies a slot and clears its soak count (13 R309, R312). -/
def disqualify (n : Nat) (t : Time) (d : Dev) : Dev := setQualified n false t (d.modSlot n fun x => { x with soak := 0 })

/-- Takes up a slot's quality level (13 R313, R328). -/
def setSlotQl (n : Nat) (q : BitVec 4) (t : Time) (d : Dev) : Dev :=
  let o := (d.slot n).ql
  if o = q then d else clkEvent 2 n q.toNat o.toNat t (slotTime n 5 t (d.modSlot n fun x => { x with ql := q }))

/-- Slots that take a lane's recovered clock. -/
def slotsOfLane (d : Dev) (l : Nat) : List Nat :=
  (d.fab.clk.slots.filter fun e => slotRecovered e.2 && e.2.lane == l).map (·.1)

/-- A lane leaves UP: its slots are disqualified (13 R309). -/
def lanesSlotsLost (l : Nat) (t : Time) (d : Dev) : Dev := (slotsOfLane d l).foldl (fun d n => disqualify n t d) d

/-! ### Witness and dispute (13 R323, R324) -/

/-- The forced slot, if REFSEL selects one (13 R314). -/
def forcedSlot (d : Dev) : Option Nat := if d.aon.clk.deb.toNat < 12 then some d.aon.clk.deb.toNat else none

/-- The witness by R323: the highest rank, then the lowest number; 0x1F for none. -/
def witnessOf (d : Dev) : Nat :=
  let st := (d.dpll 0).st
  match forcedSlot d with
  | none => 0x1F
  | some f =>
    if st != .acquiring && st != .locked then 0x1F
    else
      (List.range 12).foldl (fun best n =>
        let r := (d.slotCfg n).rank
        if (d.slot n).qualified && n != f && r != 0 && (best == 0x1F || decide ((d.slotCfg best).rank < r)) then n else best) 0x1F

/-- Takes up the witness; a change marks the gate as changed. -/
def refreshWitness (t : Time) (d : Dev) : Dev :=
  let w := witnessOf d
  let o := d.aon.clk.witness
  if w = o then d else clkEvent 6 0x10 w o t (d.onClk fun c => { c with witness := w, gateWitness := 0x1E })

/-! ### Loss of signal (03 R57, R71, R73) -/

/-- Is ILF_MAP_MISMATCH raised on a sub-port: the last map names another slot set, or leaves a slot unused (03 R73)? -/
def mapMismatch (r : IlfRx) (sub : Nat) (x : Port) : Bool :=
  let m := tgetD r.held sub r.map
  !m.isEmpty && (maskSlots x.mask != (List.range 16).filter fun i =>
    let o := (m.getD i 0).toNat
    decide (128 ≤ o) && o % 16 == sub)

/-- Has a port loss of signal (10 R232)? -/
def portLos (d : Dev) (p : Nat) (x : Port) : Bool :=
  laneLos d x || (x.lanes == 0 && ((d.lane x.first).rx.loa || mapMismatch (d.lane x.first).rx (subOf p x) x))

/-! ### Delivery of words (10 R236) -/

/-- First-level tributaries of a port. -/
def tribsOfPort (d : Dev) (p : Nat) : List Nat := (d.fab.tribs.filter fun e => e.2.port == some p).map (·.1)

/-- Children of a container. -/
def kidsOf (d : Dev) (t : Nat) : List Nat :=
  (d.fab.tribs.filter fun e => e.2.port.isNone && e.2.parent == t && e.1 != t).map (·.1)

/-- Does the server of a tributary deliver no words, to the depth of R14? -/
def serverSilent (d : Dev) : Nat → Nat → Bool
  | 0, _ => false
  | n + 1, t =>
    match d.trib t with
    | none => false
    | some x =>
      let q := selectedTrib d x.parent
      x.port.isNone && ((d.layer (pathKey q)).noWords || stopped d q || serverSilent d n q)

/-- The aligners of lower-order ODUs count time only while words reach them, and the multiframe aligner only in frame
(05 R121, R139). BIP-8 memory of before a gap is dropped: the frames after it do not follow on it (05 R131). -/
def syncWatches (t : Time) (d : Dev) : Dev :=
  d.onFab fun f => { f with tribs := tmap f.tribs fun n x =>
    if !(isOdu x.typ && x.port.isNone) then x
    else
      let live := !serverSilent d 5 n
      let set := fun (w : Watch) (b : Bool) => if b then w.go t else w.stop t
      let keep := fun (f : OhField) => if live then f else { f with bips := [] }
      { x with fr := { x.fr with watch := set x.fr.watch live }
               mf := { x.mf with watch := set x.mf.watch (live && x.fr.st == .inFrame) }
               pm := keep x.pm, tcm := tmap x.tcm fun _ f => keep f } }

/-- A tributary's source stops or resumes delivering words. -/
def setWords (ts : List Nat) (missing : Nat → Bool) (t : Time) (d : Dev) : Dev :=
  if ts.all fun n => (d.layer (pathKey n)).noWords == missing n then d
  else syncWatches t
    (refresh t (ts.foldl (fun d n => d.modLayer (pathKey n) fun l => { l with noWords := missing n }) d))

/-- The tributaries that a port's received signal feeds: those of the working port it stands for (11 R260, R262). -/
def servedTribs (d : Dev) (p : Nat) : List Nat :=
  match servedObj d (.port p) with | some (.port q) => tribsOfPort d q | _ => []

/-- A framed port out of frame delivers no words to its VCs or its ODU (04 R88; 05 R119). -/
def silencePort (p : Nat) (t : Time) (d : Dev) : Dev :=
  setWords ((servedTribs d p).filter fun n => match d.trib n with | some y => isVc y.typ || isOdu y.typ | none => false)
    (fun _ => true) t d

/-- A port in OOF: the defect, and the framer; the multiframe aligner's time is held (05 R117, R121, R122, R128). -/
def portOof (p : Nat) (t : Time) (d : Dev) : Dev :=
  match d.port p with
  | none => d
  | some x =>
    let d := silencePort p t (d.modPort p fun x => { x with fr := { x.fr with st := .oof, errRun := 0 } })
    if x.fr.oof then d
    else setDef (secKey p) .oof true t (d.modPort p fun x =>
      { x with fr := { x.fr with oof := true, since := t }
               otn := { x.otn with mf := { x.otn.mf with watch := x.otn.mf.watch.stop t } }, fecOut := true })

/-- Takes up the loss of signal of a port; LANE_LOS on any lane of an OTUCn port puts it in OOF (05 R122). -/
def refreshLos (p : Nat) (t : Time) (d : Dev) : Dev :=
  match d.port p with
  | none => d
  | some x =>
    let d := setDef (secKey p) .los (portLos d p x) t d
    if x.typ = 0x0D && laneLos d x then portOof p t d else d

/-- Takes up a lane's condition in all its ports. -/
def lanePorts (l : Nat) (t : Time) (d : Dev) : Dev := (portsOnLane d l).foldl (fun d p => refreshLos p t d) d

/-- A lane enters a state (03 R57): LANE_LOS is clear in UP only; leaving UP ends ILF alignment and disqualifies the
slots that take the lane's clock (13 R309). -/
def laneTo (l : Nat) (st : LaneSt) (t : Time) (d : Dev) : Dev :=
  let d := d.modLane l fun x =>
    let los := st != .up
    { x with
      st := st, stTime := t, acq := t, los := los, losTime := if los == x.los then x.losTime else t
      anMismatch := false, rx := if los then { sourceId := x.rx.sourceId } else x.rx
      ilValid := if los then false else x.ilValid }
  lanePorts l t (if st = .up then d else refreshWitness t (lanesSlotsLost l t d))

/-- May the lanes of a group run (14 R332)? -/
def groupOn (d : Dev) (g : Nat) : Bool :=
  match (tgetD d.fab.pd.groups g {}).st with | .on => true | .idle => true | _ => false


/-- Does a group carry a port? -/
def groupBusy (d : Dev) (g : Nat) : Bool := d.fab.ports.any fun e => lgOfLane e.2.first == g

/-- A lane group is on; without a port it waits to be powered down (03 R58; 14 R332). -/
def groupUp (g : Nat) (t : Time) (d : Dev) : Dev :=
  d.onPd fun p => { p with groups := tput p.groups g ⟨if groupBusy d g then .on else .idle, t⟩ }

/-- A lane group is powered, and its enabled lanes acquire (03 R57; 14 R332; 18 R423). -/
def groupStart (g : Nat) (t : Time) (d : Dev) : Dev :=
  (List.range 8).foldl (fun d j =>
    let l := 8 * g + j
    if (d.lane l).cfg.enable && (d.lane l).st = .down then laneTo l .cdrAcq t d else d) (groupUp g t d)

end Sys2Proof.Machine
end

