-- ==== Sys2Proof/Machine/Periods.lean ====
section
/-!
DEFINITION. Nominal rates of ports, whose frames give the container frame of a tributary, and the nominal periods of
those frames (02 R43-R45; 04 R82; 05 R113, R114; 06 R150, R156).
-/
namespace Sys2Proof.Machine

/-! ### Rates -/

/-- A port's line rate in kb/s, where it may be an ILF sub-port (04 R82; 05 R113; 06 R143). -/
def lineKbps (typ : Nat) : Nat :=
  match typ with
  | 0x01 => 155520 | 0x02 => 622080 | 0x03 => 2488320 | 0x04 => 9953280 | 0x05 => 39813120
  | 0x08 => 2666057 | 0x09 => 10709225 | 0x0A => 11095727 | 0x0B => 43018414 | 0x0C => 111809974
  | 0x10 => 10312500 | 0x11 => 25781250
  | _ => 0

/-- Rate of one OTUC slice in kb/s: that of an ODUC1 (05 R114). -/
def sliceKbpsOtn : Nat := 105258138

/-- The rate that gives an ODU's frame period: for an ODUCn that of one slice (05 R114). -/
def frameKbps (typ kbps : Nat) : Nat := if typ = 0x0A then sliceKbpsOtn else kbps

/-- Bits of an ODU frame and of an OTU frame (05 R133; 07 R178). -/
def oduFrameBits : Nat := 122368
def otuFrameBits : Nat := 130560

/-! ### Container frames (02 R45) -/

/-- PDH clients and packet streams follow the DFE frame. -/
def dfeFramed (typ : Nat) : Bool := (decide (0x18 ≤ typ) && decide (typ ≤ 0x1C)) || typ == 0x29

/-- The object whose frame boundaries are the container frame boundaries of a tributary (02 R45). The frames of the
top-level ODU of an OTUk are the frames of the port, and with them those of the tributaries it carries. The OTUCn frame
is not the FlexO frame of its port (05 R115): an ODUCn, its own parent, names it. -/
def frameSrc (d : Dev) (typ : Nat) (port : Option Nat) (parent : Nat) : Obj :=
  if dfeFramed typ then .dev
  else if typ = 0x0A then .trib parent
  else match port with
    | some p => .port p
    | none => match d.trib parent with
      | some y => (match y.port with
        | some p => if isOdu y.typ && y.typ != 0x0A then .port p else .trib parent
        | none => .trib parent)
      | none => .trib parent

def contSrc (d : Dev) (t : Nat) : Obj :=
  match d.trib t with | some x => frameSrc d x.typ x.port x.parent | none => .dev

/-- Both directions of a container frame, or one (02 R46). -/
def contParts (d : Dev) (t : Nat) : List Part := [.frame (contSrc d t) .rx, .frame (contSrc d t) .tx]
def portParts (p : Nat) : List Part := [.frame (.port p) .rx, .frame (.port p) .tx]

/-! ### Periods -/

/-- A period in phase units as a fraction. -/
abbrev Period := Nat × Nat

/-- The time of `bits` at a rate in kb/s. -/
def periodOfBits (bits kbps : Nat) : Period := (bits * 262144, kbps)

/-- The period of a FlexO frame: 128 rows of 5,140 bits at the 105.643508 Gb/s of a FlexO instance before its FEC
(PRESUMED from G.709.1, log entry 54). -/
def flexoPeriod : Period := periodOfBits (128 * 5140) 105643508

/-- The nominal period of the frames of a port (02 R43; 05 R114; 06 R150). -/
def portPeriod (typ : Nat) : Period :=
  if isSdh typ || isEth typ then (frame, 1)
  else if typ = 0x0D then flexoPeriod
  else if isOtn typ then periodOfBits otuFrameBits (lineKbps typ)
  else periodOfBits (8 * 20461 * 66) 103125000

/-- The nominal period of the frames that an object gives: the DFE frame; a port's; the frame of an ODU, 1.16255 µs for
an ODUCn; the 500 µs multiframe of a path; the overhead-grain period of 100 positions of a fine-grain carrier, 1.28 µs
(02 R43, R45; 05 R114; 06 R150, R156). None where the object does not exist. -/
def framePeriod (d : Dev) : Obj → Option Period
  | .dev => some (frame, 1)
  | .port p => (d.port p).map fun x => portPeriod x.typ
  | .trib n => (d.trib n).map fun x =>
    if isOdu x.typ then periodOfBits oduFrameBits (frameKbps x.typ x.rate)
    else if isVc x.typ then (4 * frame, 1)
    else (33554432, 100000)
  | _ => none

/-- A period in phase units, rounded up. -/
def Period.up (p : Period) : Nat := (p.1 + p.2 - 1) / p.2

/-- The flywheel boundary that falls at a time, counted from the last valid frame start: boundary k falls k periods
after it, rounded down to the phase unit (02 R44). -/
def PortFrame.fly (f : PortFrame) (p : Period) (t : Time) : Option Nat :=
  let k := ((t - f.anchor) * p.2 + p.1 - 1) / p.1
  if f.anchor < t ∧ f.anchor + k * p.1 / p.2 = t then some k else none

/-- A frame starts (02 R42). -/
def PortFrame.next (f : PortFrame) (t : Time) : PortFrame := ⟨f.count + 1, t, t⟩

/-- A flywheel boundary: the frames that pass from one to the next are counted (02 R42, R44). -/
def PortFrame.flyTo (f : PortFrame) (p : Period) (k : Nat) (t : Time) : PortFrame :=
  let last := ((f.start - f.anchor) * p.2 + p.1 - 1) / p.1
  ⟨f.count + BitVec.ofNat 40 (k - last), t, f.anchor⟩

/-- The octet boundary at or after a time (02 R40). -/
def octetAt (t : Time) : Time := (t + 8 * frame - 1) / (8 * frame) * (8 * frame)

/-- The start of a DFE frame at or after a time. -/
def frameAt (t : Time) : Time := (t + frame - 1) / frame * frame

/-- Are an object's frames the DFE frames (02 R43, R45)? -/
def onDfe (d : Dev) : Obj → Bool
  | .dev => true
  | .port p => match d.port p with | some x => isEth x.typ | none => false
  | _ => false

/-- The earliest time at which a part of a change can apply: its boundary where the DFE gives it, otherwise its trigger
time (02 R46). -/
def earliest (d : Dev) (p : Part) (trig : Time) : Time :=
  match p with
  | .octet => octetAt trig
  | .frame o _ => if onDfe d o then frameAt trig else trig
  | .own => trig

/-- The time by which a part with no earlier change before it has applied, as far as firmware can compute it: a boundary
never lies further beyond the trigger time than one nominal period (02 R44). -/
def latest (d : Dev) (p : Part) (trig : Time) : Option Time :=
  match p with
  | .octet => some (octetAt trig)
  | .frame o _ => if onDfe d o then some (frameAt trig) else (framePeriod d o).map fun q => trig + q.up
  | .own => none

end Sys2Proof.Machine
end

