-- ==== Sys2Proof/Machine/Faults.lean ====
section
/-!
DEFINITION. The fault collector: sources, counting and escalation, the first-fault record, fencing, core recovery and
the entry to Snowdrop (18 R416-R428), with the abort of migrations (14 R344).
-/
namespace Sys2Proof.Machine

/-- A row of the source table: unit, initial class, N and W in phase units where the source escalates, ceiling. -/
structure SrcInfo where
  unit : Nat
  init : Nat
  esc : Option (Nat × Nat)
  ceil : Nat
deriving DecidableEq, Repr

/-- The unit that a DROOP source's domain belongs to (18 R416). -/
def unitOfPd (p : Nat) : Nat :=
  if p < 32 then p else if p < 64 then p - 32 else if p < 80 then 0x20 + (p - 64)
  else if p < 88 then 0x30 + (p - 80) else if p < 92 then 0x38 + (p - 88) else 0xFF

/-- The source table of R416; none for a reserved number. -/
def srcInfo (n : Nat) : Option SrcInfo :=
  let s1 := sec 1
  if n < 0x20 then some ⟨n, 0, some (1000, s1), 2⟩
  else if n < 0x30 then some ⟨n, 0, some (1000, s1), 2⟩
  else if n < 0x38 then some ⟨n, 0, some (1000, s1), 2⟩
  else if n = 0x38 then some ⟨0x50, 0, some (1000, s1), 1⟩
  else if n < 0x40 then none
  else if n < 0x60 then some ⟨n - 0x40, 0, some (16, s1), 2⟩
  else if n < 0x80 then some ⟨n - 0x60, 0, some (16, s1), 1⟩
  else if n < 0xE0 then some ⟨unitOfPd (n - 0x80), 0, some (100, s1), 1⟩
  else if n = 0xE0 then some ⟨0x50, 0, some (100, s1), 1⟩
  else if n < 0xE8 then none
  else if n < 0xF0 then some ⟨0x30 + (n - 0xE8), 0, some (10000, s1), 1⟩
  else if n < 0xF8 then some ⟨0x30 + (n - 0xF0), 1, some (16, s1), 2⟩
  else if n < 0x100 then none
  else if n < 0x120 then some ⟨n - 0x100, 2, none, 2⟩
  else if n < 0x130 then some ⟨0x20 + (n - 0x120), 2, none, 2⟩
  else if n < 0x140 then some ⟨0x40 + (n - 0x130), 0, some (10000, s1), 1⟩
  else if n < 0x150 then some ⟨0x40 + (n - 0x140), 1, some (64, s1), 2⟩
  else if n < 0x154 then some ⟨0x38 + (n - 0x150), 2, none, 2⟩
  else if n < 0x158 then some ⟨0x38 + (n - 0x154), 2, none, 2⟩
  else if n < 0x15C then some ⟨0x38 + (n - 0x158), 0, some (3, sec 3600), 2⟩
  else if n < 0x160 then none
  else
    match n with
    | 0x160 => some ⟨0x50, 0, some (1000, s1), 1⟩
    | 0x161 => some ⟨0xFF, 2, none, 2⟩
    | 0x162 => some ⟨0xFF, 2, none, 2⟩
    | 0x163 => some ⟨0xFF, 2, none, 2⟩
    | 0x164 => some ⟨0xFF, 0, some (1000, s1), 1⟩
    | 0x165 => some ⟨0xFF, 0, none, 0⟩
    | 0x166 => some ⟨0xFF, 0, none, 0⟩
    | 0x167 => some ⟨0xFF, 0, some (16, s1), 1⟩
    | 0x168 => some ⟨0xFF, 1, some (16, sec 60), 2⟩
    | 0x169 => some ⟨0xFF, 0, none, 0⟩
    | 0x16A => some ⟨0xFF, 1, none, 1⟩
    | 0x16B => some ⟨0xFF, 1, none, 1⟩
    | 0x16C => some ⟨0xFF, 2, none, 2⟩
    | 0x16D => some ⟨0xFF, 0, none, 0⟩
    | 0x16E => some ⟨0xFF, 1, none, 1⟩
    | 0x16F => some ⟨0xFF, 1, none, 1⟩
    | 0x170 => some ⟨0xFF, 0, none, 0⟩
    | 0x171 => some ⟨0xFF, 1, none, 1⟩
    | 0x172 => some ⟨0xFF, 0, none, 0⟩
    | 0x173 => some ⟨0xFF, 2, none, 2⟩
    | 0x174 => some ⟨0xFF, 2, none, 2⟩
    | 0x175 => some ⟨0x52, 1, some (4, sec 60), 2⟩
    | 0x178 => some ⟨0xFF, 3, none, 3⟩
    | 0x179 => some ⟨0xFF, 3, none, 3⟩
    | 0x17A => some ⟨0xFF, 3, none, 3⟩
    | 0x17B => some ⟨0xFF, 3, none, 3⟩
    | _ => none

def Dev.src (d : Dev) (n : Nat) : Src := tgetD d.aon.coll.src n {}
def Dev.setSrc (d : Dev) (n : Nat) (x : Src) : Dev := d.onColl fun c => { c with src := tput c.src n x }

/-- A source's current class (18 R418). -/
def srcClass (d : Dev) (n : Nat) : Nat :=
  match srcInfo n with | some i => i.init + (d.src n).rise | none => 0

/-- Counting and escalation of one event (18 R418): the source after it, and the count it reached. A window that has
ended closes first, and 16 W without an event returns the class to its initial class first. -/
def Src.step (x : Src) (i : SrcInfo) (t : Time) : Src × Nat :=
  let y := { x with total := x.total + 1, last := some t }
  match i.esc with
  | none => (y, 0)
  | some (n, w) =>
    let stale := match x.last with | some l => decide (l + 16 * w ≤ t) | none => false
    let y := if stale then { y with rise := 0 } else y
    let openW := match x.winStart with | some b => decide (t < b + w) | none => false
    let y := if openW then { y with count := y.count + 1 } else { y with count := 1, winStart := some t }
    let c := y.count
    if n ≤ c ∧ i.init + y.rise < i.ceil then ({ y with rise := y.rise + 1, count := 0, winStart := none }, c)
    else if n ≤ c then ({ y with count := 0, winStart := none }, c)
    else (y, c)

/-- Of two events of one cycle, does a new one go before the one recorded (18 R420)? -/
def FirstFault.yields (f : FirstFault) (cls source : Nat) (t : Time) : Bool :=
  f.time == t && (decide (f.cls < cls) || f.cls == cls && decide (source < f.source))

/-- The first event of Minor class or higher since the record was cleared; of one cycle, the event of highest class, then of
lowest source number (18 R420; events of one (SFN, phase) share a cycle, DEDUCED, log entry 92). -/
def firstFault (cls unit source : Nat) (t : Time) (d : Dev) : Dev :=
  let d := fltLatchFirst d
  d.onColl fun c => if c.first.valid && !c.first.yields cls source t then c else { c with first := ⟨true, cls, unit, source, t⟩ }
where
  /-- first_l latches when the record is written. -/
  fltLatchFirst (d : Dev) : Dev := if d.aon.coll.first.valid then d else fltLatch 18 d

/-- The fault record's word E5 (18 R432). -/
def faultE5 (cls count : Nat) (fence restart : Bool) : Word :=
  wd (b2n (decide (1 ≤ cls)) * 2 ^ 31 + b2n fence * 2 ^ 30 + b2n restart * 2 ^ 29 + b2n (decide (cls = 3)) * 2 ^ 28
    + count % 2 ^ 24)

/-- Counts an event and carries out what R418 to R421 give, but the fence and Snowdrop reactions. `unit` is the unit that
the record names; the fence is of the unit that R416 names. -/
def countFault (n unit : Nat) (detail : Word) (inj : Bool) (t : Time) (d : Dev) : Dev :=
  match srcInfo n with
  | none => d
  | some i =>
    let x := d.src n
    if d.aon.snowdrop then d.setSrc n { x with total := x.total + 1 }
    else
      let (y, cnt) := x.step i t
      let cls := i.init + y.rise
      let second := secOf t
      let inSec := if y.second = second then y.inSecond else 0
      let rec? := decide (cls = 3) || decide (inSec < 16)
      let sup := y.suppressed
      let y := { y with
        pending := y.pending || decide (1 ≤ cls), second := second
        inSecond := if rec? then inSec + 1 else inSec
        suppressed := if rec? then 0 else sup + 1 }
      let d := d.setSrc n y
      let d := if cls = 3 then flushRecords d.aon.fmn.staging.length d else d
      let core := decide (0x38 ≤ i.unit ∧ i.unit ≤ 0x3B) || n == 0x161
      let e5 := faultE5 cls cnt (decide (cls = 2) && (decide (i.unit ≠ 0xFF) || n == 0x161)) (decide (cls = 2) && core)
      let d := whenD rec? (addRecord 0x05 (b2n inj * 128 + cls) unit t [wd n, e5, wd sup, detail]) d
      let d := match cls with
        | 0 => fltLatch 17 d
        | 1 => fltLatch 23 d
        | 2 => fltLatch 22 d
        | _ => d
      if 1 ≤ cls then irqLatch 23 (firstFault cls unit n t d) else d

/-! ### Slice states (14 R338, R356) -/

/-- The state code of a slice (17 R414): 0 ACTIVE, 1 IDLE, 2 RETAIN, 3 OFF or fenced; a waking slice is not yet IDLE. -/
def sliceCode (d : Dev) (s : Nat) : Nat :=
  if d.aon.coll.fenced.contains s then 3
  else match (d.slice s).st with
    | .on => 0 | .idle => 1 | .retain => 2 | .waking => 3 | .off => 3

/-- A governor event (14 R356; 18 R432): its record and PF0's notification. -/
def govEvent (sub unit obj new old : Nat) (t : Time) (d : Dev) : Dev :=
  noteRecord 0 0x06 obj 0x06 sub unit t [wd obj, wd new, wd old, 0] d

/-- Contexts in a unit, and those that a migration holds there too. -/
def tribsIn (d : Dev) (u : Nat) : List (Nat × Trib) :=
  d.fab.tribs.filter fun e => e.2.unit == u || d.fab.migs.any fun m => m.t == e.1 && (m.src == u || m.dst == u)

/-- Is a slice in service? -/
def sliceUp (d : Dev) (s : Nat) : Bool :=
  !d.aon.coll.fenced.contains s && (match (d.slice s).st with | .idle => true | .on => true | _ => false)

/-- A slice enters a state, with the event of R356. -/
def sliceTo (s : Nat) (st : Pw) (since t : Time) (d : Dev) : Dev :=
  let o := sliceCode d s
  let d := d.setSlice s ⟨st, since⟩
  let n := sliceCode d s
  if n = o then d else govEvent 0x01 s s n o t d

/-- A powered slice is ACTIVE while it owns a context, and IDLE otherwise (14 R338). -/
def settleSlice (s : Nat) (t : Time) (d : Dev) : Dev :=
  if 32 ≤ s ∨ !sliceUp d s then d
  else
    let busy := !(tribsIn d s).isEmpty
    if busy == ((d.slice s).st == .on) then d else sliceTo s (if busy then .on else .idle) t t d

/-! ### Migrations (14 R344-R346) -/

/-- The cause codes of the abort record (18 R432). -/
def causeCode : AbortCause → Nat
  | .mismatch => 1 | .srcFault => 2 | .dstFault => 3 | .xcFault => 4 | .engineFault => 5

/-- A completion message (16 R386). -/
def completionWords (code : Nat) (tag ret handle mem dir : Nat) (t : Time) (detail : Word) : List Word :=
  [fwHeader 0x01 8, wd (code * 65536 + tag * 256 + ret), wd (handle * 65536 + mem * 256 + dir)] ++ timeWords t
    ++ [detail, 0, 0]

/-- Aborts a migration before C: the destination is freed, the source stays authoritative, MIG_ABORT is counted and
the event written with its cause; a GOV_MIGRATE completes with INTERNAL and the cause as its detail (14 R344, R346; 16 R395;
DESIGN CHOICE, log entry 94). -/
def abortMig (m : Mig) (cause : AbortCause) (t : Time) (d : Dev) : Dev :=
  let d := d.modTrib m.t fun x => { x with migrating := false, shadow := 0 }
  let d := d.onFab fun f => { f with migs := f.migs.filter fun y => y.t != m.t }
  let d := noteRecord 0 0x06 m.t 0x06 0x04 m.src t [wd m.t, wd (causeCode cause), wd m.dst, 0] d
  let d := pwrLatch 17 (countFault 0x169 0xFF 0 false t d)
  let d := match m.handle with
    | some (ch, h, tag) =>
      sendOut ch .completion (completionWords 0x0901 tag.toNat 0xFF h 0xFF 3 t (wd (causeCode cause))) d
    | none => d
  let d := settleSlice m.dst t d
  match cause with
  | .mismatch =>
    let k := tgetD d.aon.gov.mismatches m.t 0 + 1
    if 3 ≤ k then
      let d := d.onGov fun g => { g with mismatches := tdel g.mismatches m.t, stuckUntil := tput g.stuckUntil m.t (t + sec 3600) }
      pwrLatch 17 (countFault 0x16A 0xFF 0 false t d)
    else d.onGov fun g => { g with mismatches := tput g.mismatches m.t k }
  | _ => d.onGov fun g => { g with mismatches := tdel g.mismatches m.t }

/-- Aborts every migration before C that a predicate names. -/
def abortWhere (p : Mig → Option AbortCause) (t : Time) (d : Dev) : Dev :=
  d.fab.migs.foldl (fun d m =>
    if m.st = .committed ∨ m.st = .cutOver then d
    else match p m with | some c => abortMig m c t d | none => d) d

/-- Every message posted to a core is answered RX_RESET (18 R425, R427). -/
def answerPosts (d : Dev) : Dev :=
  allChans.foldl (fun d c =>
    if (d.chan c).bind.valid && decide (16 ≤ (d.chan c).bind.receiver) && decide ((d.chan c).bind.receiver ≤ 19)
    then rxReset c d else d) d

/-! ### Cores (18 R424, R425) -/

/-- Fences a core: the matrix accepts nothing from it, its channels respond under R373, and one CORE_RESTART event
is counted, which may lose the core (18 R424, R425). -/
def fenceCore (k : Nat) (t : Time) (d : Dev) : Dev :=
  let d := mastersReset [16 + k] d
  let d := d.onColl fun c => { c with fenced := sadd c.fenced (0x38 + k) }
  let d := d.modCore k fun x => { x with running := false }
  let d := fltLatch 21 d
  let d := countFault (0x158 + k) (0x38 + k) 0 false t d
  let d := d.onFw fun f => { f with restarts := f.restarts + 1 }
  let d := fltLatch 20 d
  if 2 ≤ srcClass d (0x158 + k) then
    let d := d.onColl fun c => { c with lost := sadd c.lost k }
    let d := d.modCore k fun x => { x with restarting := false }
    if [0, 1, 2, 3].all d.aon.coll.lost.contains && !d.aon.coll.clusterLost then
      let d := d.onColl fun c => { c with clusterLost := true }
      let d := countFault 0x173 0xFF 0 false t d
      answerPosts d
    else d
  else d.modCore k fun x => { x with remap := true, restarting := true }

/-! ### Fencing (18 R422; 01 R33) -/

/-- The contexts a unit owns stop, and what they carry gets no words (01 R33); one whose migration has committed is the
destination's (14 R344). -/
def stopContexts (u : Nat) (t : Time) (d : Dev) : Dev :=
  syncWatches t (refresh t (d.onFab fun f => { f with
    tribs := tmap f.tribs fun n x => if x.unit = u && !f.migs.any (fun m => m.t == n && m.st == .committed) then { x with unit := 0xFF } else x }))

/-- A fenced lane group's lanes lose their signal (01 R33; 03 R57). -/
def dropGroup (g : Nat) (t : Time) (d : Dev) : Dev :=
  let d := d.onPd fun p => { p with groups := tput p.groups g ⟨.off, t⟩ }
  (List.range 8).foldl (fun d j =>
    if (d.lane (8 * g + j)).st = .down then d else laneTo (8 * g + j) .down t d) d

/-- The HBM channel of a granule of a region (01 R29). -/
def hbmChannel (g : Nat) : Nat := g % 16

/-- Is an HBM channel in use: not fenced, and not waiting to rejoin its regions (18 R423)? -/
def hbmLive (d : Dev) (c : Nat) : Bool := !d.aon.coll.fenced.contains (0x40 + c) && !d.aon.coll.rejoin.contains c

/-- The channels in use. -/
def liveChannels (d : Dev) : List Nat := (List.range 16).filter (hbmLive d)

/-- Historic bins held in a fenced HBM channel are marked invalid (01 R29; 10 R250). -/
def loseBins (c : Nat) (d : Dev) : Dev :=
  let mark := fun (k : Nat) (day : Bool) (age : Nat) (b : Bin) =>
    if hbmChannel (Config.binGranule k day age) = c then { b with flags := b.flags ||| 4 } else b
  d.onPm fun p => { p with
    hist15 := tmap p.hist15 fun k l => l.mapIdx fun i b => mark k false i b
    prev24 := tmap p.prev24 fun k b => mark k true 0 b }

/-- The rank of a request (11 R263). -/
def reqPrio : Req → Nat
  | .lo => 1 | .sfp => 2 | .fs => 3 | .sf => 4 | .sd => 5 | .ms => 6 | .msw => 6 | .wtr => 7 | .exer => 8 | .rr => 9
  | .dnr => 10 | .nr => 11

/-- A protection event (11 R270; 18 R432; log entry 26): its record, and the notification of the group's owner. -/
def pgEvent (g sub e6 : Nat) (t : Time) (d : Dev) : Dev :=
  match d.pg g with
  | none => d
  | some x =>
    noteRecord x.owner 0x04 g 0x03 sub 0x50 t
      [wd g, wd (reqPrio x.act * 2 ^ 28 + x.selNow * 2 ^ 24 + x.bridgeNow * 2 ^ 20), wd e6, 0] d

/-- Changes a group's errorless state. -/
def modErrl (g : Nat) (f : Errl → Errl) (d : Dev) : Dev := d.modPg g fun x => { x with errl := f x.errl }

/-- The HBM units that a group holds. -/
def Errl.units (x : Errl) : Nat := x.chans.foldl (· + ·) 0

/-- Errorless groups lose the units that lay in a fenced HBM channel, and what was in them (11 R279). -/
def loseUnits (c : Nat) (t : Time) (d : Dev) : Dev :=
  d.fab.pgs.foldl (fun d e =>
    let x := e.2.errl
    if !x.on || x.chans.getD c 0 == 0 then d
    else pgEvent e.1 0x04 (4 * 2 ^ 28) t (modErrl e.1 (fun y => { y with
      chans := y.chans.set c 0, lines := [], st := .notAligned, nsw := none, freeSince := none }) d)) d

/-- A packet with spilled data in a fenced HBM channel is discarded and counted, with a gap marker (01 R29). -/
def loseSpilled (c : Nat) (d : Dev) : Dev :=
  let lose := fun (_ : Nat) (q : Queue) =>
    let bad := fun (p : QPkt) => p.spilled && p.chans.contains c
    let (kept, gap, lost) := q.pkts.foldl (fun (a : List QPkt × Nat × Nat) p =>
      if bad p then (a.1, a.2.1 + p.gap + 1, a.2.2 + 1) else (a.1 ++ [{ p with gap := p.gap + a.2.1 }], 0, a.2.2)) ([], 0, 0)
    if lost = 0 then q
    else { q with pkts := kept, gap := min (q.gap + gap) (2 ^ 32 - 1), cnt := tmod q.cnt 5 0 fun k => k + BitVec.ofNat 40 lost }
  d.onFab fun f => { f with scheds := tmap f.scheds fun _ s => { s with queues := tmap s.queues lose } }

/-- Contexts of a fenced slice have suspect bins (10 R250). -/
def suspectBins (ks : List Nat) (d : Dev) : Dev :=
  d.onPm fun p => ks.foldl (fun p k => { p with
    cur15 := tmod p.cur15 k {} fun b => { b with flags := b.flags ||| 1 }
    cur24 := tmod p.cur24 k {} fun b => { b with flags := b.flags ||| 1 } }) p

/-- Has a unit been fenced 4 times within 24 h, this fence included (18 R423)? -/
def fencedOften (u : Nat) (t : Time) (d : Dev) : Bool :=
  decide (4 ≤ (d.aon.coll.fenceLog.filter fun e => e.1 == u && decide (t ≤ e.2 + sec 86400)).length)

/-- A fence takes note of a unit: its bit, its place among the fences of the last 24 h, and the refusal of its return from
the fourth of them on (18 R422, R423). -/
def noteFence (u : Nat) (t : Time) (d : Dev) : Dev :=
  let d := d.onColl fun c => { c with
    fenced := sadd c.fenced u, fenceLog := c.fenceLog ++ [(u, t)], rejoin := c.rejoin.filter fun k => 0x40 + k != u }
  if fencedOften u t d then d.onColl fun c => { c with refused := sadd c.refused u } else d

/-- Fences a unit (18 R422). A unit already fenced stays so. -/
def fenceUnit (u : Nat) (t : Time) (d : Dev) : Dev :=
  if u = 0xFF ∨ d.aon.coll.fenced.contains u then d
  else if 0x38 ≤ u ∧ u ≤ 0x3B then fenceCore (u - 0x38) t d
  else
    let was := sliceCode d u
    let d := fltLatch 21 (noteFence u t d)
    let d := abortWhere (fun m =>
      if m.src = u then some .srcFault else if m.dst = u then some .dstFault
      else if u = 0x52 then some .engineFault else none) t d
    if u < 0x20 then
      let ks := (d.fab.tribs.filter fun e => e.2.unit == u).map fun e => pathKey e.1
      let d := stopContexts u t (suspectBins ks (d.setSlice u ⟨.off, t⟩))
      if was = 3 then d else govEvent 0x01 u u 3 was t d
    else if u < 0x30 then stopContexts u t (dropGroup (u - 0x20) t d)
    else if u < 0x38 then d.onPd fun p => { p with banks := tput p.banks (u - 0x30) ⟨.off, t⟩ }
    else if 0x40 ≤ u ∧ u < 0x50 then loseUnits (u - 0x40) t (loseSpilled (u - 0x40) (loseBins (u - 0x40) d))
    else d

/-! ### Snowdrop (18 R427) -/

/-- The ring slot of the newest record, and its capture, at the freeze (18 R435). -/
def freezeRing (t : Time) (d : Dev) : Dev :=
  let d := addRecord 0x0C 0x02 0x51 t [0, 0, 0, 0] d
  let d := flushRecords d.aon.fmn.staging.length d
  let d := d.onFmn fun r => { r with
    frozen := true, dumpBusy := true, slot := BitVec.ofNat 16 r.newest, busy := true, valid := false }
  d.onFmn fun r => { r with sts := r.sts.latch 23 }

/-- Entry to Snowdrop at a Grave event whose record is already queued (18 R427): the ring takes it and the freeze
record, cores are held, mailbox channels stop, XOFF pins go high. -/
def enterSnowdrop (source unit : Nat) (t : Time) (d : Dev) : Dev :=
  let d := irqLatch 19 (freezeRing t d)
  let d := [0, 1, 2, 3].foldl (fun d k => d.modCore k fun x => { x with running := false, restarting := false }) d
  let d := d.onFab fun f => { f with xoff := 0xFFFF, fw := { f.fw with load := none } }
  let d := d.onAon fun a => { a with snowdrop := true, graveSource := source, graveUnit := unit, graveTime := t }
  answerPosts d

/-- The power and clock status bits that name a source's count (17 R414, R415). -/
def sourceLatch (n : Nat) (d : Dev) : Dev :=
  if 0x80 ≤ n ∧ n ≤ 0xE0 then pwrLatch 19 d
  else match n with
    | 0x169 => pwrLatch 17 d
    | 0x16A => pwrLatch 17 d
    | 0x16B => pwrLatch 21 d
    | 0x16C => pwrLatch 20 d
    | 0x16D => pwrLatch 18 d
    | 0x16E => pwrLatch 18 d
    | 0x16F => pwrLatch 18 d
    | 0x171 => clkLatch 18 d
    | _ => d

/-- A fault event of a source, handled at the class the source then holds (18 R418-R422): the reaction is on the unit that
R416 names, and the records name `named`, another unit only where the event is injected (18 R430, R431). -/
def faultEventAs (n named : Nat) (detail : Word) (inj : Bool) (t : Time) (d : Dev) : Dev :=
  match srcInfo n with
  | none => d
  | some i =>
    if d.aon.snowdrop then countFault n named detail inj t d
    else
      let d := sourceLatch n (countFault n named detail inj t d)
      let cls := srcClass d n
      let unit := i.unit
      let d := if unit < 0x20 then
          abortWhere (fun m => if m.src = unit then some .srcFault else if m.dst = unit then some .dstFault else none) t d
        else if n = 0x38 then
          abortWhere (fun m => if detail.toNat = 16 + m.src ∨ detail.toNat = 16 + m.dst then some .xcFault else none) t d
        else if n = 0x175 then abortWhere (fun _ => some .engineFault) t d
        else d
      if cls = 3 then enterSnowdrop n named t d
      else if cls = 2 then
        if n = 0x161 then
          [0, 1, 2, 3].foldl (fun d k => if (d.core k).on && !d.aon.coll.fenced.contains (0x38 + k) then fenceCore k t d else d) d
        else fenceUnit unit t d
      else d

/-- A fault event with the unit that R416 names. -/
def fault (n : Nat) (detail : Word) (t : Time) (d : Dev) : Dev :=
  match srcInfo n with
  | none => d
  | some i => faultEventAs n i.unit detail false t d

/-- A decode miss (15 R361; 18 R431): DECODE_MISS is counted, the miss recorded, and for a host master IRQ_ERR_INFO is
updated (17 R413). `addr` is the matrix address. -/
def decodeMissAt (master addr : Nat) (write : Bool) (t : Time) (d : Dev) : Dev :=
  if d.aon.snowdrop then fault 0x164 (wd addr) t d
  else
    let d := d.onColl fun c => { c with miss := ⟨true, write, master, addr⟩ }
    let d := fault 0x164 (wd addr) t d
    if master ≤ 15 then regErr 3 master (addr - 0x30000000) d else d

/-- A lock violation (17 R402). -/
def lockViolation (master off : Nat) (t : Time) (d : Dev) : Dev :=
  let d := d.onAon fun a => { a with lockViolation := a.lockViolation + 1 }
  regErr 2 master off (fault 0x165 (wd off) t d)

end Sys2Proof.Machine
end

