-- ==== Sys2Proof/Machine/Etlum.lean ====
section
/-!
DEFINITION. Etlum commands in general: layout checks, return codes, change sets, scheduled changes, completions and
replies (16 R378-R392; 02 R46-R53). A command of R395 is a `Cmd`; the families define them.
-/
namespace Sys2Proof.Machine

/-! ### Return codes (16 R381) -/

def rcOk : Nat := 0x00
def rcDeferred : Nat := 0x01
def rcBadOpcode : Nat := 0x10
def rcBadArg : Nat := 0x11
def rcNoResource : Nat := 0x12
def rcConflict : Nat := 0x13
def rcPastTime : Nat := 0x14
def rcNotPermitted : Nat := 0x20
def rcLocked : Nat := 0x21
def rcTimeout : Nat := 0xE2
def rcInternal : Nat := 0xFF

/-- A return code with the full value of its detail (16 R381, R382). -/
structure Err where
  code : Nat
  detail : Nat
deriving DecidableEq, Repr

/-- BAD_ARG of a word and the lowest bit of its first field that failed. -/
def badArg (word low : Nat) : Err := ⟨rcBadArg, word * 256 + low⟩

/-- NO_RESOURCE of a resource of R381. -/
def noResource (r : Nat) : Err := ⟨rcNoResource, r * 256⟩

/-- The first failure of a list of checks. -/
def firstErr : List (Option Err) → Option Err
  | [] => none
  | some e :: _ => some e
  | none :: r => firstErr r

/-- A check: an error unless a condition holds. -/
def need (b : Bool) (e : Err) : Option Err := if b then none else some e

/-- An acknowledge in the MBX_ACK layout (15 R365). -/
def ackWord (code tag detail : Nat) : Word := wd (code % 256 * 2 ^ 24 + tag % 256 * 2 ^ 16 + detail % 2 ^ 16)

/-! ### Messages -/

/-- The kinds of R379. -/
inductive Kind where
  | config
  | query
  | action
deriving DecidableEq, Repr

/-- What a command acts on: the time of acceptance, the channel, the sender, and its messages in order, each from W0
(one, or the fragments of R392). -/
structure Ctx where
  t : Time
  ch : Nat
  m : Nat
  msgs : List (List Word)
deriving DecidableEq, Repr

/-- Word `i` of the last message. -/
def Ctx.w (c : Ctx) (i : Nat) : Word := (c.msgs.getLastD []).getD i 0

/-- Word `i` of the first message. -/
def Ctx.w1 (c : Ctx) (i : Nat) : Word := (c.msgs.headD []).getD i 0

/-- A fragment's place: opening, last, first item, items (16 R392). `obj` is what it names, and `word`, `bit` the place
of its position field. -/
structure FragPos where
  opening : Bool
  last : Bool
  first : Nat
  len : Nat
  obj : List Word
  word : Nat := 5
  bit : Nat := 0
deriving DecidableEq, Repr

/-- The answer of a query or action: the device after it, its code and detail, another full detail, and result words. -/
structure Res where
  dev : Dev
  code : Nat := 0
  detail : Nat := 0
  full : Option Nat := none
  items : List Word := []

/-- A command of R395. `vf`, `i2c`: who may send it (16 R384); `fields`: the bits it names in each word from W4, as
masks; `enc`: fields with reserved encodings, each as word, highest and lowest bit; `perm`: the sender's permission
about the object; `chk`: items 5 to 7 of R380 in that order; `obj`, `parts`: the changed object and the boundaries it
waits for; `place`: the slice capacity held from acceptance; `ready`: may it apply; `apply`: its effect at one of them;
`key`: its object word, selector and kept words in the configuration database, with `drop` for the entries it deletes
(19 R447); `grown`, `settled`: the device as the accepted changes not yet applied leave it, without and with those that
release something (16 R380 items 6 and 7). -/
structure Cmd where
  code : Nat
  n : Nat
  kind : Kind
  vf : Bool := false
  i2c : Bool := false
  mask : List (Nat × Nat) := []
  enc : List Word → List (Nat × Nat × Nat) := fun _ => []
  perm : Ctx → Dev → Bool := fun _ _ => true
  chk : Ctx → Dev → Option Err := fun _ _ => none
  frag : Option (List Word → FragPos) := none
  obj : Ctx → Dev → Obj := fun _ _ => .dev
  parts : Ctx → Dev → List Part := fun _ _ => [.octet]
  apply : Change → Part → Time → Dev → Dev := fun _ _ _ d => d
  place : Ctx → Dev → Option Place := fun _ _ => none
  ready : Change → Dev → Bool := fun _ _ => true
  onAccept : Change → Dev → Dev := fun _ d => d
  trigger : Ctx → Dev → Option Time := fun _ _ => none
  key : List Word → Option (Word × Word) := fun _ => none
  drop : List Word → DbEntry → Bool := fun _ _ => false
  run : Ctx → Dev → Res := fun _ d => { dev := d }
  grown : Dev → Dev := id
  settled : Dev → Dev := id

/-- The context of a change's own messages. -/
def Change.ctx (c : Change) : Ctx := ⟨c.accepted, c.ch, c.sender, c.msgs⟩

/-- Word `i` of the last message of a change. -/
def Change.w (c : Change) (i : Nat) : Word := (c.msgs.getLastD []).getD i 0

/-! ### Layout checks (16 R378-R380 item 2) -/

/-- The lowest bit of the run of reserved bits that holds bit `b`. -/
def runLow (mask : Nat) : Nat → Nat
  | 0 => 0
  | b + 1 => if mask.testBit b then b + 1 else runLow mask b

/-- The first reserved field of a word that is not zero, searched from [31] down: its highest non-zero bit and its
lowest bit (01 R5). -/
def badReserved (mask : Nat) (w : Word) : Option (Nat × Nat) :=
  let x := w.toNat &&& (2 ^ 32 - 1 - mask)
  if x = 0 then none else some (x.log2, runLow mask x.log2)

/-- The failing field of lowest word, then of highest bits. -/
def firstField : List (Nat × Nat × Nat) → Option (Nat × Nat × Nat)
  | [] => none
  | f :: r =>
    match firstField r with
    | none => some f
    | some g => if g.1 < f.1 ∨ (g.1 = f.1 ∧ f.2.1 < g.2.1) then some g else some f

/-- Bits [hi:lo] as a mask. -/
def bitsMask (hi lo : Nat) : Nat := 2 ^ (hi + 1) - 2 ^ lo

/-- Masks of W1 to W3 of a kind (16 R379). -/
def headMask (k : Kind) (i : Nat) : Nat :=
  match k, i with
  | .config, 1 => bitsMask 31 30 + bitsMask 23 16
  | .config, 2 => bitsMask 30 16 + bitsMask 7 0
  | .config, _ => 2 ^ 32 - 1
  | .query, 1 => bitsMask 31 30 + bitsMask 15 0
  | .query, _ => 2 ^ 32 - 1
  | .action, _ => 0

/-- The encodings of W1 to W3 that R379 refuses. -/
def headEnc (k : Kind) (ws : List Word) : List (Nat × Nat × Nat) :=
  let w1 := ws.getD 1 0
  let w2 := ws.getD 2 0
  let w3 := ws.getD 3 0
  match k with
  | .config =>
    (if bitAt w1 31 && bitAt w1 30 then [(1, 30, 30)] else [])
      ++ (if !bitAt w1 31 && w2 != 0 then [(2, 30, 16)] else [])
      ++ (if !bitAt w1 31 && w3 != 0 then [(3, 31, 0)] else [])
  | .query =>
    (if 2 ≤ fld w1 31 30 then [(1, 31, 30)] else [])
      ++ (if fld w1 31 30 = 0 && w2 != 0 then [(2, 31, 0)] else [])
      ++ (if fld w1 31 30 = 0 && w3 != 0 then [(3, 31, 0)] else [])
      ++ (if fld w1 31 30 = 1 && fld w3 5 0 != 0 then [(3, 31, 0)] else [])
  | .action => []

/-- The reserved bits of a port word that stands in the place of a T number, [16:0] of word `i` (00 R5; 16 R393's
preamble). -/
def portWordEnc (i : Nat) (w : Word) : List (Nat × Nat × Nat) :=
  (if fld w 16 12 = 0 then [] else [(i, 16, 12)]) ++ (if bitAt w 10 then [(i, 10, 10)] else [])

/-- The object class of a counter index in W4: the other codes are reserved (10 R245). -/
def classEnc (ws : List Word) : List (Nat × Nat × Nat) :=
  let c := fld (ws.getD 4 0) 31 24
  if 1 ≤ c ∧ c ≤ 0x0C then [] else [(4, 31, 24)]

/-- Item 2 of R380: word count, reserved fields, encodings. ECHO takes any count and free words. -/
def layoutErr (c : Cmd) (ws : List Word) : Option Err :=
  if c.code != 0x0109 && fld (ws.headD 0) 7 4 + 8 != c.n then some (badArg 0 4)
  else
    let res := (List.range ws.length).filterMap fun i =>
      if i = 0 then none
      else
        let mk := if i < 4 then headMask c.kind i
          else if c.code = 0x0109 then 2 ^ 32 - 1 else tgetD c.mask i 0
        (badReserved mk (ws.getD i 0)).map fun r => (i, r.1, r.2)
    match firstField (res ++ headEnc c.kind ws ++ c.enc ws) with
    | some f => some (badArg f.1 f.2.2)
    | none => none

/-! ### Permission (16 R384) -/

/-- May the sender send the command about its object? -/
def permitted (c : Cmd) (x : Ctx) (d : Dev) : Bool :=
  if x.m = 0 then true
  else if x.m ≤ 15 then c.vf && c.perm x d
  else if x.m = 20 then c.i2c
  else false

/-- The sender's own checks of a query's mode (16 R387). -/
def modeErr (c : Cmd) (x : Ctx) (d : Dev) : Option Err :=
  let host := fld (x.w 1) 31 30 = 1
  if c.kind = .query && host && x.m = 20 then some (badArg 1 30)
  else if (c.kind = .query && !host || c.code = 0x0109) && !(d.chan x.ch).bind.pairEn then some ⟨rcNotPermitted, 0⟩
  else none

/-! ### Scheduled changes (02 R46-R53) -/

/-- The trigger time a command names, or acceptance plus 2 frames (02 R46); none where R47 or R39 refuses it. -/
def triggerOf (x : Ctx) : Option Time :=
  if bitAt (x.w 1) 31 then
    let sfn := BitVec.ofNat 40 (fld (x.w 2) 7 0 * 2 ^ 32 + (x.w 3).toNat)
    match absTime sfn (fld (x.w 2) 30 16) x.t with
    | some t => if x.t + 8 * frame ≤ t then some t else none
    | none => none
  else some (x.t + 2 * frame)

/-- Do two parts wait for each other? Frame parts of different directions or frames do not (02 R46, R51). -/
def sameQueue : Part → Part → Bool
  | .frame o r, .frame q s => o == q && r == s
  | _, _ => true

/-- Can firmware establish that a change's boundary falls before a pending one's on the same object (02 R51)? It can
where the latest time at which a part of the new change may apply lies before the earliest at which a part of the pending
one may: the DFE gives both for octet boundaries and DFE frames, and of other frames firmware knows that a boundary falls
within one nominal period of the trigger time (02 R44; which bound firmware takes is a DESIGN CHOICE, log entry 55). -/
def overtakes (d : Dev) (parts : List Part) (trig : Time) (p : Change) : Bool :=
  parts.any fun a => p.parts.any fun b => sameQueue a b && (match latest d a trig with
    | some u => decide (u < earliest d b p.trig)
    | none => false)

/-- The pending change that a new one would overtake. -/
def conflictWith (d : Dev) (o : Obj) (parts : List Part) (trig : Time) : Option Change :=
  d.fab.fw.changes.find? fun p => p.obj == o && overtakes d parts trig p

/-- Does an earlier accepted change of the same object hold a part of a change back (02 R51)? -/
def heldBack (cs : List Change) (c : Change) (p : Part) : Bool :=
  (cs.takeWhile fun e => !(e.handle == c.handle && e.mem == c.mem)).any fun e =>
    e.obj == c.obj && e.parts.any (sameQueue p)

/-- Has the trigger time of a change come, and does no earlier change of its object hold back the instant that its own rows
give (02 R46, R51)? -/
def ownReady (d : Dev) (c : Change) (t : Time) : Bool := decide (c.trig ≤ t) && !heldBack d.fab.fw.changes c .own

/-- The first handle from `h` that no pending change holds (16 R381). -/
def freeHandle (used : List Nat) : Nat → Nat → Nat
  | 0, h => h
  | n + 1, h => if used.contains h then freeHandle used n ((h + 1) % 65536) else h

def nextHandle (d : Dev) : Nat :=
  freeHandle (d.fab.fw.changes.map (·.handle)) d.fab.fw.changes.length (d.fab.fw.nextHandle % 65536)

/-- Accepts a change: it joins the pending changes, and is armed at once unless an earlier change of its object waits
for another boundary (02 R52). -/
def acceptChange (cmd : Cmd) (x : Ctx) (o : Obj) (ps : List Part) (pl : Option Place) (trig : Time) (h mem : Nat) (d : Dev) : Dev :=
  let w0 := x.w 0
  let busy := d.fab.fw.changes.any fun p => p.obj == o && (p.trig != trig || p.parts != ps)
  let c : Change := { handle := h, ch := x.ch, sender := x.m, code := BitVec.ofNat 16 cmd.code
                      tag := BitVec.ofNat 8 (fld w0 15 8), msgs := x.msgs, obj := o, trig := trig, accepted := x.t
                      parts := ps, mem := mem, armed := !busy, place := pl }
  cmd.onAccept c (d.onFw fun f => { f with changes := f.changes ++ [c], nextHandle := (h + 1) % 65536 })

/-- The directions that a part of a change touches, one completion each (02 R46; 16 R386): a creation, a
deletion and a resize touch both; calendars and gate lists are the transmitter's (log entry 52). -/
def partDirs (code : Nat) : Part → List Nat
  | .octet => [3]
  | .frame _ .rx => [1]
  | .frame _ .tx => [2]
  | .own =>
    if code = 0x0305 ∨ code = 0x0306 ∨ code = 0x0224 ∨ code = 0x0225 ∨ code = 0x0226 ∨ code = 0x0301 then [1, 2]
    else if code = 0x0222 ∨ code = 0x0605 then [2]
    else [3]

/-- The unit ID of the core that serves a channel (18 R432). -/
def servingUnit (d : Dev) (c : Nat) : Nat := match servingCore d c with | some k => 0x38 + k | none => 0xFF

/-- Reports a change's application or end: completion and Forget-me-not event (02 R53; 16 R386). -/
def complete (c : Change) (dir ret : Nat) (t : Time) (detail : Word) (d : Dev) : Dev :=
  let w0 := (c.msgs.getLastD []).headD 0
  let d := match outChan d c.sender with
    | some o => sendOut o .completion (completionWords c.code.toNat c.tag.toNat ret c.handle c.mem dir t detail) d
    | none => d
  addRecord 0x04 0x02 (servingUnit d c.ch) t
    [wd (c.sender * 256 + c.ch), w0, ackWord ret c.tag.toNat c.handle, detail] d

/-- Takes a change off the pending list. -/
def dropChange (h : Nat) (d : Dev) : Dev :=
  d.onFw fun f => { f with changes := f.changes.filter fun c => c.handle != h }

/-- Ends a pending change with a return code, without its effect (16 R386). -/
def abortChange (c : Change) (ret : Nat) (t : Time) (d : Dev) : Dev :=
  let dirs := c.parts.flatMap (partDirs c.code.toNat)
  dropHandle ((dirs.filter fun r => !(dirs.contains 3 && r != 3)).eraseDups.foldl (fun d r => complete c r ret t 0 d) d)
where
  /-- Only this member leaves: a set's members share the handle. -/
  dropHandle (d : Dev) : Dev :=
    d.onFw fun f => { f with changes := f.changes.filter fun p => !(p.handle == c.handle && p.mem == c.mem) }

/-- Order of database entries: class, command, object word, selector (19 R447). -/
def DbEntry.le (a b : DbEntry) : Bool :=
  let k := fun e : DbEntry => (e.code.toNat * 2 ^ 32 + e.obj.toNat) * 2 ^ 32 + e.sel.toNat
  decide (k a ≤ k b)

/-- Puts an entry into the database in its place, over one of the same key (19 R447). -/
def dbPut (e : DbEntry) : List DbEntry → List DbEntry
  | [] => [e]
  | x :: r =>
    if x.code = e.code ∧ x.obj = e.obj ∧ x.sel = e.sel then e :: r
    else if DbEntry.le e x then e :: x :: r else x :: dbPut e r

/-- The database after a command's last direction applied (19 R447). -/
def dbApply (cmd : Cmd) (msgs : List (List Word)) (t : Time) (d : Dev) : Dev :=
  msgs.foldl (fun d ws =>
    let d := d.onFw fun f => { f with db := f.db.filter fun e => !cmd.drop ws e }
    match cmd.key ws with
    | none => d
    | some (o, sel) =>
      d.onFw fun f => { f with db := dbPut ⟨BitVec.ofNat 16 cmd.code, o, sel, ws.drop 5⟩ f.db, dbTime := t }) d

/-- Applies one part of a change (02 R46, R53). -/
def applyPart (cmd : Cmd) (c : Change) (p : Part) (t : Time) (d : Dev) : Dev :=
  let d := cmd.apply c p t d
  let rest := c.parts.filter (· != p)
  let same := fun x : Change => x.handle == c.handle && x.mem == c.mem
  let left := if rest.isEmpty then d.fab.fw.changes.filter (fun x => !same x)
    else d.fab.fw.changes.map (fun x => if same x then { x with parts := rest } else x)
  let d := d.onFw fun f => { f with changes := left }
  let d := if rest.isEmpty then dbApply cmd c.msgs t d else d
  (partDirs c.code.toNat p).foldl (fun d r => complete c r rcOk t 0 d) d

/-! ### Serving a message (16 R380, R383) -/

/-- What firmware answers: code, detail, and the full detail where it is another value (16 R382, R390). -/
structure Answer where
  dev : Dev
  code : Nat
  detail : Nat
  full : Option Nat := none

/-- The error of a check as an answer. -/
def refuse (e : Err) (d : Dev) : Answer := ⟨d, e.code, e.detail, none⟩

/-- Splits result words into fragments of 13 words (16 R387). -/
def chunks13 : Nat → List Word → List (List Word)
  | 0, _ => []
  | n + 1, ws => if ws.isEmpty then [] else ws.take 13 :: chunks13 n (ws.drop 13)

/-- Queues a reply on the paired channel (16 R387). -/
def reply (x : Ctx) (words : List Word) (d : Dev) : Dev :=
  let fs := chunks13 (words.length / 13 + 1) words
  let w0 := x.w 0
  (List.range fs.length).foldl (fun d i =>
    sendOut (d.chan x.ch).bind.pair .reply
      (pad 16 ([fwHeader 0x02 16, wd (w0.toNat / 65536 * 65536 + fld w0 15 8 * 256), wd (i * 65536 + fs.length)]
        ++ fs.getD i [])) d) d

/-- The fragment count of result words (16 R381). -/
def fragCount (words : List Word) : Nat := (words.length + 12) / 13

/-- The length of a result in 64-octet units, with its count word (16 R387). -/
def hostUnits (words : List Word) : Nat := (4 * (words.length + 1) + 63) / 64

/-- Answers a query in its mode (16 R383, R387). -/
def answerQuery (x : Ctx) (r : Res) : Answer :=
  if r.code != 0 then ⟨r.dev, r.code, r.detail, none⟩
  else if fld (x.w 1) 31 30 = 0 then ⟨reply x r.items r.dev, rcOk, fragCount r.items, none⟩
  else
    let u := hostUnits r.items
    if fld (x.w 1) 15 0 < u then ⟨r.dev, rcNoResource, min u 0xFFFF, none⟩
    else
      let a := (x.w 2).toNat * 2 ^ 32 + (x.w 3).toNat
      ⟨r.dev.onFab (fun f => { f with hostMem := (a, wd r.items.length :: r.items) :: f.hostMem }), rcOk, u, none⟩

/-- Is the message a change-set member (16 R379)? -/
def isMember (x : Ctx) : Bool := bitAt (x.w 1) 30

/-- Joins a change set, or opens it (16 R390). -/
def joinSet (cmd : Cmd) (x : Ctx) (d : Dev) : Answer :=
  let n := fld (x.w 1) 23 16
  let mem : Member := ⟨x.ch, BitVec.ofNat 16 cmd.code, BitVec.ofNat 8 (fld (x.w 0) 15 8), x.msgs⟩
  match d.fab.fw.sets.find? (·.num == n) with
  | some s =>
    if s.owner != x.m then ⟨d, rcConflict, s.owner, none⟩
    else if 256 ≤ s.members.length then ⟨d, rcNoResource, 0x0800, none⟩
    else ⟨d.onFw (fun f => { f with sets := f.sets.map fun y =>
            if y.num == n then { y with members := y.members ++ [mem], last := x.t } else y }), rcOk, s.members.length, none⟩
  | none =>
    if 256 ≤ d.fab.fw.sets.length then ⟨d, rcNoResource, 0x0800, none⟩
    else ⟨d.onFw (fun f => { f with sets := f.sets ++ [⟨n, x.m, [mem], x.t⟩] }), rcOk, 0, none⟩

/-- Item 4 of R380 (16 R385). -/
def lockErr (d : Dev) : Option Err :=
  if d.fab.fw.cfgLock then some ⟨rcLocked, 0⟩
  else if d.fab.fw.actPending then some ⟨rcLocked, 1⟩ else none

/-- A failed check that accepted changes bring about: CONFLICT and NO_RESOURCE as the check gives them; any other is an
object that is pending against the command, with detail 0 (16 R380 item 6; DESIGN CHOICE, log entry 56). -/
def pendingErr (e : Option Err) : Option Err :=
  e.map fun y => if y.code = rcConflict ∨ y.code = rcNoResource then y else ⟨rcConflict, 0⟩

/-- Items 5 to 8 of R380 for one change, with the trigger time it would take. Items 6 and 7 look at the device as it is
and as the accepted changes that are not yet applied leave it (DEDUCED, log entry 73). -/
def changeErr (cmd : Cmd) (x : Ctx) (trig : Option Time) (d : Dev) : Option Err :=
  let es := [cmd.chk x d, pendingErr (cmd.chk x (cmd.grown d)), pendingErr (cmd.chk x (cmd.settled d))]
  let byCode := fun (k : Nat) => firstErr (es.map fun e => match e with
    | some y => if y.code = k then some y else none
    | none => none)
  let other := match cmd.chk x d with
    | some y => if y.code = rcConflict ∨ y.code = rcNoResource then none else some y
    | none => none
  let tr := trig.getD x.t
  firstErr [other, byCode rcConflict,
    (conflictWith d (cmd.obj x d) (cmd.parts x d) tr).map fun p => ⟨rcConflict, p.tag.toNat⟩,
    byCode rcNoResource,
    need (decide (d.fab.fw.changes.length < 4096)) (noResource 2),
    need trig.isSome ⟨rcPastTime, 0⟩]

/-- The larger of what a change needs on the device as it is and as accepted changes leave it (01 R13; DEDUCED, log entry 74). -/
def morePlace : Option Place → Option Place → Option Place
  | some a, some b => if a.kbps < b.kbps then some b else some a
  | a, none => a
  | none, b => b

/-- Accepts or refuses a C command outside a change set (16 R383). -/
def serveConfig (cmd : Cmd) (x : Ctx) (d : Dev) : Answer :=
  let trig := match cmd.trigger x d with | some t => some t | none => triggerOf x
  match changeErr cmd x trig d with
  | some e => refuse e d
  | none =>
    let h := nextHandle d
    ⟨acceptChange cmd x (cmd.obj x d) (cmd.parts x d) (morePlace (cmd.place x d) (cmd.place x (cmd.grown d)))
      (trig.getD x.t) h 0xFF d, rcDeferred, h, none⟩

/-- Firmware's handling of a message that is no repeat (16 R380, R383, R390, R392). `x.msgs` holds the message, after
the fragments held. -/
def handle (cmd : Cmd) (x : Ctx) (d : Dev) : Answer :=
  let ws := x.msgs.getLastD []
  let item3 := fun (_ : Unit) =>
    if cmd.kind = .query ∧ x.m = 20 ∧ fld (x.w 1) 31 30 = 1 then some (badArg 1 30)
    else if !permitted cmd x d then some ⟨rcNotPermitted, 0⟩
    else modeErr cmd x d
  if fld (ws.headD 0) 3 0 != 1 then ⟨d, rcBadOpcode, 0, none⟩
  else
    match layoutErr cmd ws with
    | some e => refuse e d
    | none =>
      match item3 () with
      | some e => refuse e d
      | none =>
        match cmd.kind with
        | .query =>
          match cmd.chk x d with
          | some e => refuse e d
          | none => answerQuery x (cmd.run x d)
        | .action =>
          match cmd.chk x d with
          | some e => refuse e d
          | none => let r := cmd.run x d; ⟨r.dev, r.code, r.detail, r.full⟩
        | .config =>
          if isMember x && cmd.code != 0x0102 then
            match lockErr d with
            | some e => refuse e d
            | none => joinSet cmd x d
          else
            match lockErr d with
            | some e => refuse e d
            | none =>
              if cmd.code = 0x0102 then let r := cmd.run x d; ⟨r.dev, r.code, r.detail, r.full⟩ else serveConfig cmd x d

/-- Fragment handling around `handle` (16 R392): held fragments, opening and continuation, and at the last fragment coverage without
gap or overlap. -/
def handleFrag (cmd : Cmd) (x : Ctx) (d : Dev) : Answer :=
  let ws := x.msgs.getLastD []
  let held := (d.chan x.ch).frag
  let clear := fun d : Dev => d.modChan x.ch fun y => { y with frag := none }
  match cmd.frag with
  | none => handle cmd x (clear d)
  | some f =>
    let p := f ws
    let early : Option Err := if fld (ws.headD 0) 3 0 != 1 then some ⟨rcBadOpcode, 0⟩ else layoutErr cmd ws
    match early with
    | some e => refuse e (clear d)
    | none =>
      let ok := match held with
        | some h => h.code == BitVec.ofNat 16 cmd.code && (f (h.msgs.headD [])).obj == p.obj
        | none => false
      let before := if p.opening then [] else match held with | some h => h.msgs | none => []
      let covered := (before.map f).foldl (fun a q => match a with
        | some n => if q.first = n then some (n + q.len) else none
        | none => none) (some 0)
      if !p.opening && !ok then refuse (badArg p.word p.bit) (clear d)
      else if p.last && covered != some p.first then refuse (badArg p.word p.bit) (clear d)
      else if p.last then handle cmd { x with msgs := before ++ [ws] } (clear d)
      else if !permitted cmd x d then refuse ⟨rcNotPermitted, 0⟩ (clear d)
      else match lockErr d with
      | some e => refuse e (clear d)
      | none =>
        ⟨d.modChan x.ch (fun y => { y with
          frag := some ⟨BitVec.ofNat 16 cmd.code, ws.getD 4 0, before ++ [ws], x.t⟩ }), rcOk, 0, none⟩

/-- Remembers, acknowledges and records an answer (15 R369, R374; 16 R382; 18 R432). -/
def finish (x : Ctx) (a : Answer) : Dev :=
  let w0 := x.w 0
  let tag := fld w0 15 8
  let v := ackWord a.code tag a.detail
  let d := a.dev
  let unit := servingUnit d x.ch
  let orphan := (d.chan x.ch).orphan
  let d := d.modChan x.ch fun y => { y with
    lastAck := some (BitVec.ofNat 8 tag, v)
    lastErr := if a.code = rcOk ∨ a.code = rcDeferred then y.lastErr else v
    lastDetail := if a.code = rcOk ∨ a.code = rcDeferred then y.lastDetail else wd (a.full.getD a.detail) }
  let e := [wd (x.m * 256 + x.ch), w0, v, wd (a.full.getD a.detail)]
  let d :=
    if orphan then
      let d := addRecord 0x04 0x04 unit x.t e d
      if (d.chan x.ch).bind.pairEn then
        sendOut (d.chan x.ch).bind.pair .notification
          (pad 16 [fwHeader 0x03 16, wd (w0.toNat / 65536 * 65536 + tag * 256 + a.code), wd x.ch]) d
      else d
    else if a.code = rcOk ∨ a.code = rcDeferred then addRecord 0x04 0x01 unit x.t e d
    else addRecord 0x04 0x03 unit x.t e d
  acknowledge x.ch v d

/-- Firmware serves the message posted on a channel as a command (15 R369; 16 R380). -/
def serveAs (cmd : Cmd) (ch : Nat) (t : Time) (d : Dev) : Dev :=
  let c := d.chan ch
  let n := fld (c.data.headD 0) 7 4 + 8
  let ws := c.data.take n
  let x : Ctx := ⟨t, ch, c.bind.sender, [ws]⟩
  let tag := BitVec.ofNat 8 (fld (ws.headD 0) 15 8)
  match c.lastAck with
  | some (g, v) => if g = tag then acknowledge ch v d else finish x (handleFrag cmd x d)
  | none => finish x (handleFrag cmd x d)

/-- Acknowledges a message with a bare code (19 R439). -/
def ackCode (ch code : Nat) (d : Dev) : Dev :=
  acknowledge ch (ackWord code (tagOf (d.chan ch)) 0) d

/-- The words of a message as the client writes them (16 R378): W0 from the row and the operand, then `ws`. -/
def messageWords (code : Nat) (m : Msg) : List Word :=
  let n := m.count.toNat + 8
  (wd (code * 65536 + m.tag.toNat * 256 + m.count.toNat * 16 + m.ver.toNat) :: pad (n - 1) (m.ws.take (n - 1)))

/-- The client's post of a message (15 R366): data words, then go. On a channel already posted, the same words leave
it as it is; others are discarded as LATE_WRITE and a go_busy (15 R368; 17 R401; log entry 5). -/
def clientPost (ch : Nat) (ws : List Word) (t : Time) (d : Dev) : Dev :=
  let x := d.chan ch
  let off := 0x10000 + ch * 0x100
  if x.posted then
    if x.data.take ws.length = ws then d
    else
      let d := (List.range ws.length).foldl (fun d i => mbxLatch ch 20 (lateWrite x.bind.sender (off + 4 * i) d)) d
      fault 0x166 0 t (mbxLatch ch 19 d)
  else
    let d := if d.aon.snowdrop then d
      else d.modChan ch fun x => { x with data := ws ++ x.data.drop ws.length }
    post ch t d

/-- May the sender of a channel post (17 R412, i2c_post_lock)? -/
def mayPost (d : Dev) (ch : Nat) : Bool :=
  let b := (d.chan ch).bind
  decide (ch < 64) && b.valid && (decide (b.sender ≤ 15) || b.sender == 20) && !(b.sender == 20 && d.fab.i2cLock)

/-- An Etlum row: the client's post, and firmware's service of it if a running core serves the channel (log entry 5).
While Primrose waits for an image it serves FW_IMAGE_LOAD from PF0 on MB0 alone and answers every other post
NOT_PERMITTED (19 R439, R445). -/
def etlumRow (cmd : Cmd) (m : Msg) : Op := gFab fun t d =>
  if !mayPost d m.ch then
    if decide (m.ch < 64) && (d.chan m.ch).bind.valid && (d.chan m.ch).bind.sender == 20 then
      (List.range (m.count.toNat + 9)).foldl (fun d i =>
        decodeMissAt 20 (0x30010000 + m.ch * 0x100 + (if i < m.count.toNat + 8 then 4 * i else 0x40)) true t d) d
    else d
  else
    let ws := messageWords cmd.code m
    let d := clientPost m.ch ws t d
    let x := d.chan m.ch
    if !x.posted || x.data.take ws.length != ws then d
    else if d.aon.snowdrop || d.fab.fw.activating.isSome then d
    else if d.fab.boot.running then
      if (servingCore d m.ch).isSome then serveAs cmd m.ch t d else d
    else if d.fab.boot.failed || d.fab.boot.stage = 0x05 && d.fab.boot.bootsel then
      if cmd.code = 0x0B02 && m.ch = 0 then serveAs cmd m.ch t d else ackCode m.ch rcNotPermitted d
    else d

/-! ### Result items (16 R388) -/

/-- A result item: its number, instance and words. -/
def item (k inst : Nat) (ws : List Word) : List Word :=
  wd (k * 2 ^ 24 + ws.length % 256 * 2 ^ 16 + inst % 65536) :: ws

/-- A counter's two words. -/
def cntWords (c : Nat) : List Word := [wd (c / 2 ^ 32 % 256), wd (c % 2 ^ 32)]

/-- A 64-bit value's two words. -/
def words64 (n : Nat) : List Word := [wd (n / 2 ^ 32), wd (n % 2 ^ 32)]

/-- A flag as a word. -/
def flagWord (b : Bool) : List Word := [wd (b2n b)]

end Sys2Proof.Machine
end

