-- ==== Sys2Proof/Machine/Regs.lean ====
section
/-!
DEFINITION. The host register file: which master reaches which offset, what each register reads, and what a write does
by its access code (17; 15 R360, R364, R365; 18 R431, R435; 14 R337).
-/
namespace Sys2Proof.Machine

/-! ### Register views -/

/-- FAULT_N asserted (17 R411; 19 R439): Snowdrop, a boot failure, or from stage 0x08 a pending source of Major class. -/
def faultN (d : Dev) : Bool :=
  d.aon.snowdrop || d.fab.boot.failed ||
    (8 ≤ d.fab.boot.stage.toNat && d.aon.coll.src.any fun e => e.2.pending && decide (2 ≤ srcClass d e.1))

/-- ALERT_N asserted (17 R411): from stage 0x08, a latched bit of IRQ_STS [23:18] that IRQ_ALERT_EN enables. -/
def alertN (d : Dev) : Bool :=
  decide (8 ≤ d.fab.boot.stage.toNat) &&
    (d.fab.irq.sts.bits.extractLsb' 18 6 &&& d.fab.irq.alertEn != 0)

/-- SNOWDROP_N asserted (18 R427). -/
def snowdropN (d : Dev) : Bool := d.aon.snowdrop

def dpllCode : DpllSt → Nat
  | .freeRun => 0 | .acquiring => 1 | .locked => 2 | .holdover => 3 | .lost => 4

/-- ssm_set, or its default: the mode of the lowest-numbered SONET/SDH port, option 1 without one (13 R313). -/
def ssmSet (d : Dev) : Nat :=
  match d.fab.clk.ssm with
  | some n => n
  | none =>
    match d.fab.ports.find? fun e => decide (1 ≤ e.2.typ) && decide (e.2.typ ≤ 5) with
    | some e => if e.2.sdh.sonet then 2 else 1
    | none => 1

/-- A DPLL's own_ql or its default by ssm_set: SEC under option 1, ST3 under option 2 (13 R326). -/
def ownQl (d : Dev) (n : Nat) : BitVec 4 :=
  match (d.dpllCfg n).ownQl with
  | some q => q
  | none => if ssmSet d = 2 then 0b1010#4 else 0b1011#4

/-- A slot's quality level in force (13 R313). -/
def slotQl (d : Dev) (s : Nat) : BitVec 4 := (d.slot s).ql

/-- The QL a DPLL sends by its own state and slot (13 R326): LOCKED or ACQUIRING on a slot the slot's QL, else own_ql. -/
def dpllOwnQl (d : Dev) (n : Nat) : BitVec 4 :=
  let x := d.dpll n
  if (x.st = .locked ∨ x.st = .acquiring) ∧ x.input < 12 then slotQl d x.input else ownQl d n

/-- The QL a DPLL gives its lane groups (13 R326): in CASCADE, the QL that DPLL0 would send. -/
def dpllQl (d : Dev) (n : Nat) : BitVec 4 :=
  let x := d.dpll n
  if (x.st = .locked ∨ x.st = .acquiring) ∧ x.input = 0x10 then dpllOwnQl d 0 else dpllOwnQl d n

/-- The history is valid once it holds 300 samples (13 R319). -/
def histValid (x : Dpll) : Bool := decide (300 ≤ x.learned)

/-- A list of bits as a word, bit 0 first. -/
def bitsWord (p : Nat → Bool) (n : Nat) : Word :=
  wd ((List.range n).foldl (fun a i => a + (if p i then 2 ^ i else 0)) 0)

/-- MBX_CTL (15 R365). -/
def mbxCtl (x : Chan) : Word :=
  wd (b2n x.posted * 2 ^ 30 + b2n x.taken * 2 ^ 29 + b2n x.ackValid * 2 ^ 28 + b2n x.orphan * 2 ^ 27
    + b2n x.crossed * 2 ^ 26 + b2n x.bind.pri * 2 ^ 25 + b2n x.waking * 2 ^ 24)

/-- MBX_BIND (15 R365). -/
def mbxBind (b : Bind) : Word :=
  wd (b2n b.valid * 2 ^ 31 + b2n b.pri * 2 ^ 30 + b2n b.pairEn * 2 ^ 29 + b.pair * 2 ^ 16 + b.sender * 256 + b.receiver)

/-- A register of a channel's page. -/
def pageRead (d : Dev) (c off : Nat) : Word :=
  let x := d.chan c
  if off < 0x40 then x.data.getD (off / 4) 0
  else match off with
    | 0x40 => mbxCtl x
    | 0x44 => if x.orphan then 0 else x.ack
    | 0x48 => x.sts.val
    | 0x50 => mbxBind x.bind
    | _ => 0

/-- FLT_LIVE (18 R431). -/
def fltLive (d : Dev) : Word :=
  let pend := fun k : Nat => d.aon.coll.src.any fun e => e.2.pending && srcClass d e.1 == k
  wd (b2n d.aon.snowdrop * 2 ^ 31 + b2n d.aon.coll.factory * 2 ^ 30 + b2n (pend 2) * 2 ^ 29 + b2n (pend 1) * 2 ^ 28)
    ||| (bitsWord (coreRuns d) 4 <<< 24) ||| (bitsWord d.aon.coll.lost.contains 4 <<< 20)

/-- A register of the fault collector block (18 R431). -/
def fltRead (d : Dev) (off : Nat) : Word :=
  let c := d.aon.coll
  let f := c.first
  if 0x80 ≤ off ∧ off < 0xC0 then bitsWord (fun b => (d.src ((off - 0x80) / 4 * 32 + b)).pending) 32
  else match off with
    | 0x00 => c.sts.val
    | 0x04 => fltLive d
    | 0x08 => wd (b2n f.valid * 2 ^ 31 + f.cls * 2 ^ 28 + f.unit * 2 ^ 16 + f.source)
    | 0x0C => if f.valid then (timeWords f.time).headD 0 else 0
    | 0x10 => if f.valid then (timeWords f.time).getD 1 0 else 0
    | 0x18 => wd (b2n c.miss.valid * 2 ^ 31 + b2n c.miss.write * 2 ^ 30 + c.miss.master * 2 ^ 24 + c.miss.addr / 2 ^ 32 % 256)
    | 0x1C => wd (c.miss.addr % 2 ^ 32)
    | 0x20 => bitsWord c.fenced.contains 32
    | 0x24 => bitsWord (fun b => if b < 16 then c.fenced.contains (0x20 + b) else c.fenced.contains (0x40 + (b - 16))) 32
    | 0x28 => bitsWord (fun b => if b < 8 then c.fenced.contains (0x30 + b) else if b < 12 then c.fenced.contains (0x38 + (b - 8))
        else c.fenced.contains 0x52) 13
    | 0x2C => wd c.ret.unit.toNat
    | 0x30 => wd (c.ret.result.toNat * 2 ^ 30 + c.ret.stsUnit.toNat)
    | 0x34 => wd c.sel.source.toNat
    | 0x38 => wd (b2n c.sel.valid * 2 ^ 31 + b2n c.sel.pending * 2 ^ 30 + c.sel.cls.toNat * 2 ^ 28 + c.sel.inWindow.toNat)
    | 0x3C => wd (c.sel.total.toNat % 2 ^ 32)
    | 0x40 => wd (c.sel.total.toNat / 2 ^ 32)
    | 0x100 => if c.factory then wd (c.injUnit.toNat * 65536 + c.injSource.toNat) else 0
    | _ => 0

/-- A register of the power and thermal block (14 R337; 17 R414). -/
def pwrRead (d : Dev) (off : Nat) : Word :=
  let p := d.aon.pwr
  let g := d.aon.gov
  let s := d.aon.sense
  match off with
  | 0x00 => p.cap &&& 0x8FFFFFFF
  | 0x04 => p.policy &&& 0xF8FFFFFF
  | 0x08 => p.pack
  | 0x10 => p.sts.val
  | 0x14 => wd (b2n g.episode.isSome * 2 ^ 31 + b2n g.thermBind * 2 ^ 30 + g.step * 2 ^ 27 + b2n s.thermHigh * 2 ^ 26
      + g.scale * 2 ^ 12 + g.batch * 2 ^ 6 + g.margin)
  | 0x18 => wd (s.power.toNat * 65536)
  | 0x1C => wd (s.tmax.toNat * 65536 + s.sensor)
  | 0x20 => wd ((List.range 16).foldl (fun a i => a + sliceCode d i * 4 ^ i) 0)
  | 0x24 => wd ((List.range 16).foldl (fun a i => a + sliceCode d (16 + i) * 4 ^ i) 0)
  | _ => 0

/-- A register of the clocking block (17 R415). -/
def clkRead (d : Dev) (off : Nat) : Word :=
  let c := d.aon.clk
  if 0x10 ≤ off ∧ off < 0x20 then
    let n := (off - 0x10) / 4
    let x := d.dpll n
    wd (dpllCode x.st * 2 ^ 29 + x.input * 2 ^ 24 + b2n (histValid x) * 2 ^ 23 + b2n x.frozen * 2 ^ 22
      + (if n = 0 then b2n c.dispute * 2 ^ 21 + c.witness * 2 ^ 16 else 0x1F * 2 ^ 16)
      + (dpllQl d n).toNat * 2 ^ 12 + min x.hist.length 300)
  else match off with
    | 0x00 => wd (c.raw.toNat * 2 ^ 28 + c.deb.toNat * 2 ^ 24 + b2n c.settling.isSome * 2 ^ 23)
    | 0x20 => bitsWord (fun s => (d.slot s).qualified) 12
    | 0x30 => c.sts.val
    | _ => 0

/-- A register of the recorder access block (18 R435). -/
def recRegRead (d : Dev) (off : Nat) : Word :=
  let r := d.aon.fmn
  let newest := r.newest
  if 0x20 ≤ off ∧ off < 0x40 then r.data.getD ((off - 0x20) / 4) 0
  else match off with
    | 0x00 => r.sts.val
    | 0x04 => wd (b2n r.frozen * 2 ^ 31 + b2n r.dumpBusy * 2 ^ 30 + newest / 2 ^ 32 % 256)
    | 0x08 => r.headLo
    | 0x0C => wd r.slot.toNat
    | 0x10 => wd (b2n r.valid * 2 ^ 31 + b2n r.bad * 2 ^ 30 + r.numHi.toNat)
    | _ => 0

/-- The IDN_FW_VER layout of the running image: image octets 12 to 15 (19 R442); the part's own before an image is
held. -/
def runningVersion (d : Dev) : Word :=
  if d.fab.boot.image.length = 0 then Config.fwVersion else wd (beNat ((d.fab.boot.image.drop 12).take 4))

/-- A register of the identity block (17 R412). -/
def idnRead (d : Dev) (off : Nat) : Word :=
  let b := d.fab.boot
  match off with
  | 0x00 => (0x1280#16 ++ Config.variant ++ Config.stepping : BitVec 32)
  | 0x04 => Config.serial.extractLsb' 0 32
  | 0x08 => Config.serial.extractLsb' 32 32
  | 0x0C => wd (b.stage.toNat * 2 ^ 24 + b.source.toNat * 2 ^ 20 + b.result.toNat * 2 ^ 16 + d.aon.arbStep * 256)
  | 0x10 => wd d.aon.bootCount
  | 0x14 => runningVersion d
  | 0x18 => 1
  | 0x1C => wd (b2n d.fab.dbgLock * 2 ^ 31 + b2n d.fab.i2cLock * 2 ^ 30)
  | 0x20 => d.fab.scratch
  | _ => 0

/-- A word of a function's MSI-X table or pending-bit array (17 R409); vector control of a word never written reads
masked. -/
def msixRead (d : Dev) (fn off : Nat) : Word :=
  let m := tgetD d.fab.irq.msix fn {}
  if off < 0x29000 then
    let i := (off - 0x28000) / 4
    tgetD m.table i (if i % 4 = 3 then 1 else 0)
  else bitsWord (fun b => m.pba.contains ((off - 0x29000) / 4 * 32 + b)) 32

/-- IRQ_LIVE (17 R413). -/
def irqLive (d : Dev) : Word :=
  let clock := d.aon.clk.dispute ||
    [0, 1, 2, 3].any fun n => (d.dpll n).st == .lost || (d.dpll n).st == .freeRun
  wd (b2n (d.aon.coll.src.any fun e => e.2.pending) * 2 ^ 23
    + b2n (d.aon.gov.episode.isSome || d.aon.gov.thermBind || d.aon.sense.thermHigh) * 2 ^ 22 + b2n clock * 2 ^ 21)

/-- Is an offset of BAR0 named by a field table (17 R396), as function `fn` sees its MSI-X structures? -/
def mapped (fn off : Nat) : Bool :=
  off % 4 == 0 &&
  (decide (off ≤ 0x20)
  || (decide (0x10000 ≤ off) && decide (off < 0x14000) && decide (off % 0x100 ≤ 0x50))
  || off == 0x14000 || off == 0x14004 || off == 0x14008
  || (decide (0x20000 ≤ off) && decide (off ≤ 0x2000C))
  || (decide (0x28000 ≤ off) && decide (off < 0x28000 + (if fn = 0 then 784 else 16)))
  || (decide (0x29000 ≤ off) && decide (off < 0x29008))
  || (decide (0x30000 ≤ off) && decide (off ≤ 0x30040))
  || (decide (0x30080 ≤ off) && decide (off < 0x300C0)) || off == 0x30100
  || (decide (0x40000 ≤ off) && decide (off < 0x40100))
  || (decide (0x50000 ≤ off) && decide (off ≤ 0x50008)) || (decide (0x50010 ≤ off) && decide (off ≤ 0x50024))
  || off == 0x60000 || (decide (0x60010 ≤ off) && decide (off ≤ 0x60020)) || off == 0x60030
  || (decide (0x70000 ≤ off) && decide (off ≤ 0x70010)) || (decide (0x70020 ≤ off) && decide (off < 0x70040)))

/-- The bits of a register whose Reset entry is fw and that a scrub may zero (17 R408, R412; 15 R365). -/
def fwBits (off : Nat) : Nat :=
  if 0x10000 ≤ off then (if off < 0x14000 ∧ off % 0x100 = 0x40 then 2 ^ 25 else 0)
  else match off with
    | 0x00 => 0xFFFF
    | 0x0C => 0x00FFFF00
    | 0x18 => 0xF
    | 0x04 | 0x08 | 0x10 | 0x14 => 2 ^ 32 - 1
    | _ => 0

/-- A register whose fw fields a scrub has zeroed reads 0 there while no core runs to write them again (17 R408). -/
def zeroFw (d : Dev) (off : Nat) (w : Word) : Word :=
  if d.fab.boot.zeroed.contains off && (lowestRunning d).isNone then w &&& ~~~wd (fwBits off) else w

/-- The value a register holds for its reader: its fields as R7 reads them. -/
def regValue (d : Dev) (fn off : Nat) : Word :=
  if off < 0x10000 then zeroFw d off (idnRead d off)
  else if off < 0x14000 then zeroFw d off (pageRead d ((off - 0x10000) / 0x100) (off % 0x100))
  else if off < 0x20000 then
    match off with
    | 0x14000 => wd (b2n d.fab.mbx.locked * 2 ^ 31)
    | 0x14004 => bitsWord (fun c => (d.chan c).posted) 32
    | 0x14008 => bitsWord (fun c => (d.chan (32 + c)).posted) 32
    | _ => 0
  else if off < 0x28000 then
    match off with
    | 0x20000 => d.fab.irq.sts.val
    | 0x20004 => irqLive d
    | 0x20008 => wd (d.fab.irq.alertEn.toNat * 2 ^ 18)
    | 0x2000C => d.fab.irq.errInfo
    | _ => 0
  else if off < 0x30000 then msixRead d fn off
  else if off < 0x40000 then fltRead d (off - 0x30000)
  else if off < 0x50000 then
    let w := tgetD d.fab.wv ((off - 0x40000) / 0x10) {}
    match off % 0x10 with
    | 0x0 => w.index
    | 0x4 => wd (b2n w.valid * 2 ^ 31 + b2n w.busy * 2 ^ 30 + b2n w.bad * 2 ^ 29)
    | 0x8 => w.value.extractLsb' 0 32
    | _ => w.value.extractLsb' 32 32
  else if off < 0x60000 then pwrRead d (off - 0x50000)
  else if off < 0x70000 then clkRead d (off - 0x60000)
  else recRegRead d (off - 0x70000)

/-! ### Admission (15 R360, R364; 17 R398, R405) -/

/-- Is a channel page's register writable by the master (15 R364)? -/
def admitsPageWrite (d : Dev) (m c off : Nat) : Bool :=
  if off < 0x44 then isSender d m c && !(m == 20 && d.fab.i2cLock)
  else if off = 0x4C then isReceiver d m c && !(m == 20 && d.fab.i2cLock)
  else if off = 0x48 then (isSender d m c || isReceiver d m c || pfOrCore m) && !(m == 20 && d.fab.i2cLock)
  else admitsPage d m c && !(m == 20 && d.fab.i2cLock)

/-- May a master read, or write, an offset (15 R360, R364; 17 R405)? -/
def admits (d : Dev) (m off : Nat) (write : Bool) : Bool :=
  let page := decide (0x10000 ≤ off) && decide (off < 0x14000)
  let c := (off - 0x10000) / 0x100
  if !mapped (if 1 ≤ m ∧ m ≤ 15 then m else 0) off then false
  else if page then
    if m = 22 then d.fab.pd.debug && !write
    else if write then admitsPageWrite d m c (off % 0x100) else admitsPage d m c
  else if decide (0x40000 ≤ off) && decide (off < 0x40100) then
    let w := (off - 0x40000) / 0x10
    if w < 12 then m == 0 else m == 16 + (w - 12)
  else if m = 0 then true
  else if m ≤ 15 then decide (off < 0x10000) && !write || decide (0x28000 ≤ off) && decide (off < 0x30000)
  else if m ≤ 19 then true
  else if m = 20 then
    !write && (decide (off < 0x10000) || decide (0x14000 ≤ off) && decide (off < 0x14010)
      || decide (0x30000 ≤ off) && decide (off < 0x40000) || decide (0x70000 ≤ off))
  else if m = 22 then d.fab.pd.debug && !write
  else false

/-- The matrix address of a BAR0 offset (15 R359). -/
def matrixAddr (off : Nat) : Nat := 0x30000000 + off

/-- The MSI-X structures also take the halves of aligned 64-bit accesses (17 R398). -/
def wholeOk (a : Acc) : Bool := a.whole

/-- Is a master a fenced core, from which the matrix accepts nothing (15 R358)? -/
def fencedMaster (d : Dev) (m : Nat) : Bool :=
  decide (16 ≤ m) && decide (m ≤ 19) && d.aon.coll.fenced.contains (0x38 + (m - 16))

/-- A decode miss with the error response of its master (15 R361): a read is answered with an error, as is a write by any
master but a function, whose write is discarded; a miss of the DMA and migration engine is an engine fault (18 R416). -/
def missAt (m addr : Nat) (write : Bool) : Op := fun t d =>
  let d := decodeMissAt m addr write t d
  let d := if m = 21 then fault 0x175 0 t d else d
  if write && decide (m ≤ 15) then d else d.setBus 0 true

/-- A write by a master to an offset: a decode miss, or its effect; in Snowdrop BAR0 writes are ignored, but
REC_SEL and a go, which is answered RX_RESET; in standby the fixed domain is off (15 R361; 18 R427; 14 R331). -/
def guardWrite (a : Acc) (off : Nat) (f : Op) : Op := gFab fun t d =>
  if fencedMaster d a.master then d
  else if !(wholeOk a) || !(admits d a.master off true) then missAt a.master (matrixAddr off) true t d
  else if d.aon.snowdrop && off != 0x7000C && !(decide (0x10000 ≤ off) && decide (off < 0x14000) && off % 0x100 == 0x40) then d
  else f t d

/-- A read by a master of an offset, with the side effect its field table names: a decode miss answers an error. -/
def guardRead (a : Acc) (off : Nat) (f : Op) : Op := gFab fun t d =>
  if fencedMaster d a.master then d
  else if !(wholeOk a) || !(admits d a.master off false) then missAt a.master (matrixAddr off) false t d
  else f t (d.setBus (regValue d (if 1 ≤ a.master ∧ a.master ≤ 15 then a.master else 0) off) false)

/-! ### The writes of each register -/

/-- MBX_DATAi (15 R365; 17 R401). -/
def writeData (c i : Nat) (a : Acc) : Op := fun _ d =>
  if (d.chan c).posted then mbxLatch c 20 (lateWrite a.master (0x10000 + c * 0x100 + 4 * i) d)
  else d.modChan c fun x => { x with data := lset x.data i a.data }

/-- MBX_CTL (15 R366, R368): go = 1 posts, or is ignored while a message is posted. -/
def writeCtl (c : Nat) (a : Acc) : Op := fun t d =>
  if !bitAt a.data 31 then d
  else if (d.chan c).posted then fault 0x166 0 t (mbxLatch c 19 d)
  else post c t d

/-- MBX_ACKW (15 R367). -/
def writeAckw (c : Nat) (a : Acc) : Op := fun t d =>
  if (d.chan c).posted then acknowledge c a.data d
  else fault 0x166 0 t (mbxLatch c 18 d)

def writeMbxSts (c : Nat) (a : Acc) : Op := fun _ d => d.modChan c fun x => { x with sts := x.sts.write a.data }
def writeIrqSts (a : Acc) : Op := fun _ d => d.onIrq fun q => { q with sts := q.sts.write a.data }
def writePwrSts (a : Acc) : Op := fun _ d => d.onPwr fun p => { p with sts := p.sts.write a.data }
def writeClkSts (a : Acc) : Op := fun _ d => d.onClk fun c => { c with sts := c.sts.write a.data }
def writeRecSts (a : Acc) : Op := fun _ d => d.onFmn fun r => { r with sts := r.sts.write a.data }

/-- FLT_STS: clearing first_l re-arms the first-fault record (18 R420, R431). -/
def writeFltSts (a : Acc) : Op := fun _ d =>
  d.onColl fun c =>
    let q := c.sts.write a.data
    { c with sts := q, first := if c.sts.has 18 && !q.has 18 then {} else c.first }

/-- One write-once bit (17 R402): the bit after the write, and whether the write would have changed a locked bit. -/
def writeOnce (old new : Bool) : Bool × Bool := (old || new, old && !new)

/-- IDN_LOCK (17 R402, R412): dbg_lock switches PD95 off (15 R476). -/
def writeIdnLock (a : Acc) : Op := fun t d =>
  let p := writeOnce d.fab.dbgLock (bitAt a.data 31)
  let q := writeOnce d.fab.i2cLock (bitAt a.data 30)
  let d := d.onFab fun f => { f with dbgLock := p.1, i2cLock := q.1 }
  let d := if p.1 then d.onPd fun x => { x with debug := false } else d
  if p.2 || q.2 then lockViolation a.master 0x1C t d else d

/-- WV_SEL (17 R405, R406). -/
def writeWvSel (w : Nat) (a : Acc) : Op := fun _ d =>
  let x := tgetD d.fab.wv w {}
  if x.busy then lateWrite a.master (0x40000 + w * 0x10) d
  else d.onFab fun f => { f with wv := tput f.wv w { x with index := a.data, busy := true, valid := false } }

/-- FLT_ACK (18 R421). -/
def writeFltAck (a : Acc) : Op := fun _ d =>
  let n := fld a.data 8 0
  d.onColl fun c => { c with src := tupd c.src n fun x => { x with pending := false } }

/-- Is a unit ID one that R417 defines? -/
def unitDefined (u : Nat) : Bool :=
  decide (u < 0x38) || (decide (0x38 ≤ u) && decide (u < 0x3C)) || (decide (0x40 ≤ u) && decide (u ≤ 0x52)) || u == 0xFF

/-- Is a return refused (18 R423): not fenced, a core, 0xFF, undefined, or fenced 4 times within 24 h. -/
def returnRefused (u : Nat) (d : Dev) : Bool :=
  !(unitDefined u) || u == 0xFF || (decide (0x38 ≤ u) && decide (u < 0x3C)) || !(d.aon.coll.fenced.contains u)
    || d.aon.coll.refused.contains u

/-- FLT_RETURN (18 R423, R431). -/
def writeReturn (a : Acc) : Op := fun t d =>
  let u := fld a.data 7 0
  if d.aon.coll.ret.busy then lateWrite a.master 0x3002C d
  else
    if returnRefused u d then
      fltLatch 19 (d.onColl fun c => { c with ret := ⟨BitVec.ofNat 8 u, false, 3, BitVec.ofNat 8 u⟩ })
    else d.onColl fun c => { c with ret := { c.ret with unit := BitVec.ofNat 8 u, busy := true }, retSince := t }

/-- FLT_SRC_SEL (18 R431): the write captures the source in one cycle; valid sets when the capture completes. -/
def writeSrcSel (a : Acc) : Op := fun _ d =>
  let n := fld a.data 8 0
  if d.aon.coll.sel.busy then lateWrite a.master 0x30034 d
  else d.onColl fun c => { c with sel := { c.sel with source := BitVec.ofNat 9 n, busy := true, valid := false } }

/-- FLT_INJ (18 R430): ignored outside factory test mode. -/
def writeInj (a : Acc) : Op := fun t d =>
  if !d.aon.coll.factory then d
  else
    let u := fld a.data 23 16
    let n := fld a.data 8 0
    let d := d.onColl fun c => { c with injUnit := BitVec.ofNat 8 u, injSource := BitVec.ofNat 9 n }
    if bitAt a.data 31 then faultEventAs n u 0 true t d else d

/-- Starts the capture of a ring slot (18 R435). -/
def startCapture (slot : Nat) (d : Dev) : Dev :=
  d.onFmn fun r => { r with slot := BitVec.ofNat 16 slot, busy := true, valid := false }

/-- REC_SEL (18 R435). -/
def writeRecSel (a : Acc) : Op := fun _ d =>
  if d.aon.fmn.busy then lateWrite a.master 0x7000C d else startCapture (fld a.data 15 0) d

/-- A word of an MSI-X table; unmasking a vector with its bit pending sends one message (17 R409, R410). -/
def writeMsix (fn off : Nat) (w : Word) (d : Dev) : Dev :=
  if 0x29000 ≤ off then d
  else
    let i := (off - 0x28000) / 4
    let m := tgetD d.fab.irq.msix fn {}
    let w := if i % 4 = 3 then w &&& 1 else w
    let m := { m with table := tput m.table i w }
    let v := i / 4
    let d := d.onIrq fun q => { q with msix := tput q.msix fn m }
    if i % 4 = 3 && !bitAt w 0 && m.pba.contains v then
      msixEvent fn v (d.onIrq fun q => { q with msix := tput q.msix fn { m with pba := sdel m.pba v } })
    else d

/-- The binding that a word of MBX_BIND's layout names (15 R365). -/
def bindOfWord (w : Word) : Bind :=
  ⟨bitAt w 31, bitAt w 30, bitAt w 29, fld w 21 16, fld w 12 8, fld w 4 0⟩

/-- MBX_BIND on the core-side write path (15 R370; 17 R402): RO for every other master, and LK under MBX_LOCK.locked. -/
def writeBind (c : Nat) (a : Acc) : Op := fun t d =>
  if !(decide (16 ≤ a.master) && decide (a.master ≤ 19)) then d
  else if !d.fab.mbx.locked then d.modChan c fun x => { x with bind := bindOfWord a.data }
  else if mbxBind (bindOfWord a.data) == mbxBind (d.chan c).bind then d
  else lockViolation a.master (0x10050 + c * 0x100) t d

/-- MBX_LOCK on the core-side write path (15 R370; 17 R402): write-once, and RO for every other master. -/
def writeMbxLock (a : Acc) : Op := fun t d =>
  if !(decide (16 ≤ a.master) && decide (a.master ≤ 19)) then d
  else
    let p := writeOnce d.fab.mbx.locked (bitAt a.data 31)
    let d := d.onFab fun f => { f with mbx := { f.mbx with locked := p.1 } }
    if p.2 then lockViolation a.master 0x14000 t d else d

/-- A write to an admitted offset, by its registers' access codes (17 R7): RO registers ignore it. -/
def regWrite (a : Acc) (off : Nat) : Op := fun t d =>
  let fn := if 1 ≤ a.master ∧ a.master ≤ 15 then a.master else 0
  if 0x10000 ≤ off ∧ off < 0x14000 then
    let c := (off - 0x10000) / 0x100
    let o := off % 0x100
    if o < 0x40 then writeData c (o / 4) a t d
    else match o with
      | 0x40 => writeCtl c a t d
      | 0x48 => writeMbxSts c a t d
      | 0x4C => writeAckw c a t d
      | 0x50 => writeBind c a t d
      | _ => d
  else if 0x28000 ≤ off ∧ off < 0x30000 then writeMsix fn off a.data d
  else if 0x40000 ≤ off ∧ off < 0x50000 then
    if off % 0x10 = 0 then writeWvSel ((off - 0x40000) / 0x10) a t d else d
  else match off with
    | 0x1C => writeIdnLock a t d
    | 0x20 => d.onFab fun f => { f with scratch := a.data }
    | 0x14000 => writeMbxLock a t d
    | 0x20000 => writeIrqSts a t d
    | 0x20008 => d.onIrq fun q => { q with alertEn := BitVec.ofNat 6 (fld a.data 23 18) }
    | 0x30000 => writeFltSts a t d
    | 0x30014 => writeFltAck a t d
    | 0x3002C => writeReturn a t d
    | 0x30034 => writeSrcSel a t d
    | 0x30100 => writeInj a t d
    | 0x50000 => d.onPwr fun p => { p with cap := a.data &&& 0x8FFFFFFF }
    | 0x50004 => d.onPwr fun p => { p with policy := a.data &&& 0xF8FFFFFF }
    | 0x50008 => d.onPwr fun p => { p with pack := a.data }
    | 0x50010 => writePwrSts a t d
    | 0x60030 => writeClkSts a t d
    | 0x70000 => writeRecSts a t d
    | 0x7000C => writeRecSel a t d
    | _ => d

/-- The register that an alias word names, and its bit (17 R404). -/
def aliasOf (off : Nat) : Nat × Nat := (0x20000 + (off - 0x1000000) / 128 * 4, (off - 0x1000000) / 4 % 32)

/-- The bits of access code RW in the aliased space (17 R404): IRQ_ALERT_EN, FLT_INJ in factory mode, PWR_CAP,
PWR_POLICY and PWR_PACK. -/
def rwMask (d : Dev) (off : Nat) : Word :=
  match off with
  | 0x20008 => 0x00FC0000
  | 0x30100 => if d.aon.coll.factory then 0x00FF01FF else 0
  | 0x50000 => 0x8FFFFFFF
  | 0x50004 => 0xF8FFFFFF
  | 0x50008 => 0xFFFFFFFF
  | _ => 0

/-- Does an alias word exist (17 R404): its register is mapped and no MSI-X structure. -/
def aliasMapped (off : Nat) : Bool :=
  decide (0x1000000 ≤ off) && decide (off < 0x1800000) && off % 4 == 0 &&
    (let x := (aliasOf off).1
     mapped 0 x && !(decide (0x28000 ≤ x) && decide (x < 0x2A000)))

/-- A write of an alias word by a master (15 R360, R361). -/
def guardAlias (a : Acc) (off : Nat) (f : Op) : Op := gFab fun t d =>
  if fencedMaster d a.master then d
  else if !(wholeOk a) || !(aliasMapped off && pfOrCore a.master) then missAt a.master (matrixAddr off) true t d
  else if d.aon.snowdrop then d
  else f t d

/-- Does the matrix admit an access (15 R359, R360, R362)? The map is fixed, but for the issuing core's remap window. -/
def busAdmits (d : Dev) (x : Miss) : Bool :=
  let m := x.master
  let core := decide (16 ≤ m) && decide (m ≤ 19)
  let debugRead := m == 22 && d.fab.pd.debug && !x.write
  let within := fun base size : Nat => decide (base ≤ x.addr) && decide (x.addr < base + size)
  if within 0 0x400000 then core && (!(d.core (m - 16)).remap || decide (x.addr < 0x40000))
  else if within 0x10000000 0x40000 then core || debugRead
  else if within 0x20000000 0x400000 then core || m == 21 || debugRead
  else if within 0x30000000 0x4000000 then
    let off := x.addr - 0x30000000
    x.whole && (if 0x1000000 ≤ off then aliasMapped off && (pfOrCore m || debugRead) else admits d m off x.write)
  else if within 0x34000000 0x10000 || within 0x38000000 0x1000000 then core
  else if within 0x40000000 0x40000000 || within 0x1000000000 0x200000000 then core || m == 21
  else false

/-- A write of an alias word (17 R404): only an RW bit takes it. -/
def aliasWrite (a : Acc) (off : Nat) : Op := fun _ d =>
  let x := aliasOf off
  if !bitAt (rwMask d x.1) x.2 then d
  else
    let one : Word := wd (2 ^ x.2)
    let set := fun w : Word => if bitAt a.data 0 then w ||| one else w &&& ~~~ one
    match x.1 with
    | 0x20008 => d.onIrq fun q => { q with alertEn := BitVec.ofNat 6 (fld (set (wd (q.alertEn.toNat * 2 ^ 18))) 23 18) }
    | 0x30100 => d.onColl fun c =>
        let w := set (wd (c.injUnit.toNat * 65536 + c.injSource.toNat))
        { c with injUnit := BitVec.ofNat 8 (fld w 23 16), injSource := BitVec.ofNat 9 (fld w 8 0) }
    | 0x50000 => d.onPwr fun p => { p with cap := set p.cap }
    | 0x50004 => d.onPwr fun p => { p with policy := set p.policy }
    | 0x50008 => d.onPwr fun p => { p with pack := set p.pack }
    | _ => d

end Sys2Proof.Machine
end

