-- ==== Sys2Proof/Machine/Sha.lean ====
section
/-!
DEFINITION. SHA-256 (FIPS 180-4), which 19 R442-R448 and 10 R253 use, and the CRC and BIP units of 09.
-/
namespace Sys2Proof.Machine

/-! ### SHA-256 -/

/-- The greatest number of `bits` bits whose `k`th power is at most `x`. -/
def rootOf (k x : Nat) : Nat → Nat → Nat
  | 0, r => r
  | bits + 1, r => rootOf k x bits (if (r + 2 ^ bits) ^ k ≤ x then r + 2 ^ bits else r)

/-- The first primes, smallest first, from `m` on: those that no earlier one divides. -/
def primesFrom : Nat → Nat → List Nat → List Nat
  | 0, _, ps => ps
  | n + 1, m, ps => primesFrom n (m + 1) (if ps.any fun q => m % q == 0 then ps else ps ++ [m])

/-- The 64 primes below 312. -/
def shaPrimes : List Nat := primesFrom 310 2 []

/-- The first 32 bits of the fractional part of a number's `k`th root (FIPS 180-4 §4.2.2, §5.3.3). -/
def rootFraction (k p : Nat) : Word := wd (rootOf k (p * 2 ^ (32 * k)) 36 0)

/-- The round constants: cube roots of the 64 primes; the starting value: square roots of the first 8. -/
def shaK : List Word := shaPrimes.map (rootFraction 3)
def shaInit : List Word := (shaPrimes.take 8).map (rootFraction 2)

/-- The XOR of a word's right rotations. -/
def rotations (w : Word) (ns : List Nat) : Word := ns.foldl (fun x n => x ^^^ w.rotateRight n) 0

/-- A round on the working words a to h, in a list, with the sum of its constant and schedule word (§6.2.2). -/
def shaRound (s : List Word) (kw : Word) : List Word :=
  let at_ := fun i => s.getD i 0
  let choose := (at_ 4 &&& at_ 5) ||| (~~~at_ 4 &&& at_ 6)
  let majority := (at_ 0 &&& at_ 1) ||| (at_ 2 &&& (at_ 0 ||| at_ 1))
  let t := at_ 7 + rotations (at_ 4) [6, 11, 25] + choose + kw
  [t + rotations (at_ 0) [2, 13, 22] + majority] ++ s.take 3 ++ [at_ 3 + t] ++ (s.drop 4).take 3

/-- The message schedule after its first 16 words, newest first, grown by `n` words (§6.2.2). -/
def shaSched : Nat → List Word → List Word
  | 0, r => r
  | n + 1, r =>
    let back := fun i => r.getD (i - 1) 0
    let low := rotations (back 15) [7, 18] ^^^ back 15 >>> 3
    let high := rotations (back 2) [17, 19] ^^^ back 2 >>> 10
    shaSched n ((back 16 + back 7 + low + high) :: r)

/-- One 16-word block. -/
def shaBlock (s : List Word) (ws : List Word) : List Word :=
  let r := (List.zipWith (· + ·) shaK (shaSched 48 ws.reverse).reverse).foldl shaRound s
  List.zipWith (· + ·) s r

/-- Blocks of 16 words. -/
def shaBlocks : Nat → List Word → List Word → List Word
  | 0, _, s => s
  | n + 1, ws, s => shaBlocks n (ws.drop 16) (shaBlock s (ws.take 16))

/-- The padded message (§5.1.1), as words: a one bit, zeros to 8 octets short of a block, the length in bits. -/
def shaPad (os : List Octet) : List Word :=
  packWords (os ++ 0x80 :: List.replicate ((119 - os.length % 64) % 64) 0 ++ natBe 8 (8 * os.length))

/-- SHA-256 of octets. -/
def sha256 (os : List Octet) : List Octet :=
  let ws := shaPad os
  (shaBlocks (ws.length / 16) ws shaInit).flatMap octetsOf

/-! ### CRC units (09 R221-R223) -/

/-- The parameters of a CRC unit (09 R221). -/
structure Crc where
  w : Nat
  g : Nat
  init : Nat
  refin : Bool := false
  refout : Bool := false
  xorout : Nat := 0
deriving DecidableEq, Repr

/-- One bit into the register. -/
def crcBit (c : Crc) (reg : Nat) (b : Bool) : Nat :=
  let f := xor b (reg.testBit (c.w - 1))
  let sh := reg * 2 % 2 ^ c.w
  if f then sh ^^^ c.g else sh

/-- The bits of an octet in the unit's input order. -/
def octetBits (refin : Bool) (o : Octet) : List Bool :=
  let l := [7, 6, 5, 4, 3, 2, 1, 0].map fun i => o.getLsbD i
  if refin then l.reverse else l

/-- A number's `n` bits reversed. -/
def revBits (n x : Nat) : Nat :=
  (List.range n).foldl (fun a i => a * 2 + (if x.testBit i then 1 else 0)) 0

/-- The check value over bits. -/
def crcBits (c : Crc) (bs : List Bool) : Nat :=
  let r := bs.foldl (crcBit c) c.init
  (if c.refout then revBits c.w r else r) ^^^ c.xorout

/-- The check value over octets. -/
def crcOctets (c : Crc) (os : List Octet) : Nat := crcBits c (os.flatMap (octetBits c.refin))

def crcIlf : Crc := { w := 32, g := 0x04C11DB7, init := 0xFFFFFFFF, xorout := 0xFFFFFFFF }
def crcFcs : Crc := { w := 32, g := 0x04C11DB7, init := 0xFFFFFFFF, refin := true, refout := true, xorout := 0xFFFFFFFF }
def crcTrace : Crc := { w := 7, g := 0x09, init := 0 }
def crcHec : Crc := { w := 16, g := 0x1021, init := 0 }
def crcPfcs : Crc := { w := 32, g := 0x04C11DB7, init := 0xFFFFFFFF, xorout := 0xFFFFFFFF }
def crcJc8 : Crc := { w := 8, g := 0x0D, init := 0 }
def crcJc5 : Crc := { w := 5, g := 0x03, init := 0 }
def crcMap : Crc := { w := 16, g := 0x1021, init := 0xFFFF }

/-- The `n` bits of a number, most significant first. -/
def natBits (n x : Nat) : List Bool := (List.range n).map fun i => x.testBit (n - 1 - i)

/-- The number that bits spell, most significant first; the bits of octets in line order, and octets from bits. -/
def bitsNat (bs : List Bool) : Nat := bs.foldl (fun a b => 2 * a + b.toNat) 0
def lineBits (os : List Octet) : List Bool := os.flatMap (octetBits false)
def bitOctets (bs : List Bool) : List Octet :=
  (List.range (bs.length / 8)).map fun i => BitVec.ofNat 8 (bitsNat ((bs.drop (8 * i)).take 8))

/-- Octets as words of a 32-bit running XOR, folded into one octet (09 R222). -/
def bip8 (os : List Octet) : Octet := os.foldl (· ^^^ ·) 0

/-- The number of ones of a value. -/
def popCount (n x : Nat) : Nat := ((List.range n).filter x.testBit).length

end Sys2Proof.Machine
end

