-- ==== Sys2Proof/Machine/Operands.lean ====
section
/-!
DEFINITION. The 40-bit lane word (01 R19-R25), and the object words of Etlum arguments.
-/
namespace Sys2Proof.Machine

/-- Payload, tag, octet_count and poison of a lane word (01 R19). -/
def lwPayload (w : LaneWord) : Word := w.extractLsb' 0 32
def lwTag (w : LaneWord) : Nat := (w.extractLsb' 32 4).toNat
def lwCount (w : LaneWord) : Nat := (w.extractLsb' 36 2).toNat
def lwPoison (w : LaneWord) : Bool := w.getLsbD 38

/-- Even parity holds over [39:0] (01 R19). -/
def lwParityOk (w : LaneWord) : Bool := popCount 40 w.toNat % 2 == 0

/-- The lane word with parity computed (01 R19). -/
def lwSeal (w : LaneWord) : LaneWord :=
  let b := w.toNat % 2 ^ 39
  BitVec.ofNat 40 (b + (if popCount 39 b % 2 = 1 then 2 ^ 39 else 0))

/-- A lane word from its fields; octet_count is 0b11 but on packet end (01 R21). -/
def lw (tag : Nat) (payload : Word) (poison : Bool := false) (count : Nat := 3) : LaneWord :=
  lwSeal (BitVec.ofNat 40 (b2n poison * 2 ^ 38 + count % 4 * 2 ^ 36 + tag % 16 * 2 ^ 32 + payload.toNat))

def tagData : Nat := 0
def tagFrame : Nat := 1
def tagOverhead : Nat := 2
def tagJust : Nat := 3
def tagStart : Nat := 4
def tagEnd : Nat := 5
def tagGap : Nat := 6
def tagIdle : Nat := 7
def tagCtx : Nat := 8

/-- A word as a stage writes it: octet_count 0b11 but on packet end, parity recomputed (01 R19, R21). -/
def lwOut (w : LaneWord) : LaneWord :=
  lwSeal (if lwTag w = tagEnd then w else w ||| BitVec.ofNat 40 (3 * 2 ^ 36))

/-- A word with poison set (01 R23). -/
def lwPoisoned (w : LaneWord) : LaneWord := lwOut (w ||| BitVec.ofNat 40 (2 ^ 38))

/-- What a stage forwards for a word it reads, and whether it counts LW_PARITY (01 R23, R24): a parity error poisons
the word; a reserved tag makes it a poisoned data word. -/
def stageRead (w : LaneWord) : LaneWord × Bool :=
  if 9 ≤ lwTag w then (lw tagData (lwPayload w) true, true)
  else if !lwParityOk w then (lwPoisoned w, true)
  else (lwOut w, false)

/-- Words of which the first is read as `hit` where that differs from the stored one, and whether it counts LW_PARITY (DESIGN
CHOICE, log entry 96). -/
def firstRead (hit : Option LaneWord) (ws : List LaneWord) : List LaneWord × Bool :=
  match hit, ws with
  | some v, _ :: r => ((stageRead v).1 :: r, (stageRead v).2)
  | _, _ => (ws, false)

/-- Words of a packet's octets (01 R20, R22): start, data, end. -/
def packetWords (os : List Octet) : List LaneWord :=
  let ws := packWords os
  let n := ws.length
  let lastCount := (os.length + 3) % 4
  (List.range n).map fun i =>
    if i = 0 then lw tagStart (ws.getD i 0)
    else if i + 1 = n then lw tagEnd (ws.getD i 0) false lastCount
    else lw tagData (ws.getD i 0)

/-- The lane of a lane word (16 R393's preamble). -/
def laneOfWord (w : Word) : Nat := fld w 6 0

/-- The octets of some words. -/
def octetsOfWords (ws : List Word) : List Octet := ws.flatMap octetsOf

/-- Octets of PHY or PID numbers: two words, first in [31:24]. -/
def eightOf (a b : Word) : List Octet := octetsOf a ++ octetsOf b

end Sys2Proof.Machine
end

