-- ==== Sys2Proof/Machine/Images.lean ====
section
/-!
DEFINITION. Flash regions and firmware images (19 R440-R443), and the recorder's dump (18 R434).
-/
namespace Sys2Proof.Machine

/-! ### Boot configuration block (19 R441) -/

def bankAddr (b : Nat) : Nat := if b = 0 then 0x00100000 else 0x00500000
def ledgerAddr : Nat := 0x00900000
def wearAddr : Nat := 0x00910000
def dumpAddr (slot : Nat) : Nat := 0x00920000 + slot * 66560

/-- The block is present with a correct CRC-32. -/
def bcbValid (m : List (Nat × Octet)) : Bool :=
  beNat (flashRead m 0 4) == 0x42434231 && beNat (flashRead m 64 4) == crcOctets crcIlf (flashRead m 0 64)

/-- pb_compat and snowdrop_squelch, with the defaults. -/
def bcbPbCompat (m : List (Nat × Octet)) : Bool := bcbValid m && (flashGet m 4).getLsbD 0
def bcbSquelch (m : List (Nat × Octet)) : BitVec 16 :=
  if bcbValid m then BitVec.ofNat 16 (beNat (flashRead m 6 2)) else 0

/-- bcb_hash. -/
def bcbHash (m : List (Nat × Octet)) : List Octet := sha256 (flashRead m 0 68)

/-- DEVICE_CONFIG's rewrite of octet 4 and the CRC-32. -/
def bcbRewrite (pb : Bool) (m : List (Nat × Octet)) : List (Nat × Octet) :=
  let m := flashPut m 4 (BitVec.ofNat 8 (b2n pb))
  flashWrite m 64 (natBe 4 (crcOctets crcIlf (flashRead m 0 64)))

/-! ### Images (19 R442, R443) -/

def imgAt (img : List Octet) (off n : Nat) : Nat := beNat ((img.drop off).take n)
def imgKey (img : List Octet) : Nat := imgAt img 6 2
def imgBodyLen (img : List Octet) : Nat := imgAt img 8 4
def imgVersion (img : List Octet) : Nat := imgAt img 12 4
def imgSvn (img : List Octet) : Nat := imgAt img 16 1
def imgProto (img : List Octet) : Nat := imgAt img 17 1
def imgFlags (img : List Octet) : Nat := imgAt img 18 2
def imgDbFormat (img : List Octet) : Nat := imgAt img 20 4

/-- fw_hash: the SHA-256 of octets 0 to 191 of the header. -/
def fwHash (img : List Octet) : List Octet := sha256 (img.take 192)

/-- Check 1: magic, header version, length and reserved fields. -/
def imgHeaderOk (img : List Octet) : Bool :=
  imgAt img 0 4 == 0x45544C4D && imgAt img 4 2 == 1 && decide (imgBodyLen img ≤ 2097152)
    && img.length == 256 + imgBodyLen img && decide (imgSvn img ≤ 128) && decide (imgFlags img % 2 ^ 16 / 256 = 0)
    && decide (imgFlags img / 4 % 4 = 0) && imgAt img 24 8 == 0 && imgAt img 192 64 == 0

/-- The first check of R443 that fails, 1 to 7. -/
def imageFault (img : List Octet) (d : Dev) : Option Nat :=
  if !imgHeaderOk img then some 1
  else if 4 ≤ imgKey img || d.aon.revoked.contains (imgKey img) then some 2
  else if sha256 ((img.drop 64).take 64) != Config.keyHash (imgKey img) then some 3
  else if !Config.verifySig ((img.drop 64).take 64) ((img.drop 128).take 64) (sha256 (img.take 128)) then some 4
  else if sha256 (img.drop 256) != (img.drop 32).take 32 then some 5
  else if imgSvn img < d.aon.arbStep then some 6
  else if (imgFlags img).testBit 1 && !d.aon.coll.factory && !d.aon.testMode then some 7
  else none

/-- The image that a flash bank holds, by the length its header gives. -/
def bankImage (m : List (Nat × Octet)) (b : Nat) : List Octet :=
  let hdr := flashRead m (bankAddr b) 256
  flashRead m (bankAddr b) (256 + min (imgBodyLen hdr) 2097152)

/-- The return code of a failed check (19 R449): header or length BAD_ARG, else NOT_PERMITTED (log entry 12). -/
def imageCode (k : Nat) : Nat := if k = 1 then rcBadArg else rcNotPermitted

/-- boot_result of a host image's failed check (19 R439; log entry 12). -/
def imageResult (k : Nat) : Nat := if k = 1 then 8 else if k = 2 then 7 else if k = 6 then 6 else 5

/-! ### The dump (18 R434) -/

/-- A record's 64 octets: word Ek in octets 8k to 8k + 7. -/
def recordOctets (r : Rec) : List Octet :=
  (List.range 8).flatMap fun k => natBe 8 (lw (if k = 0 then 1 else 0) (r.ws.getD k 0)).toNat

/-- Does a slot hold a dump: its magic, and its CRC-32 over the rest of the slot. -/
def holdsDump (m : List (Nat × Octet)) (slot : Nat) : Bool :=
  let o := flashRead m (dumpAddr slot) 66560
  beNat (o.take 4) == 0x464D4E44 && beNat ((o.drop 60).take 4) == crcOctets crcIlf (o.take 60 ++ o.drop 64)

def dumpBootCount (m : List (Nat × Octet)) (slot : Nat) : Nat := beNat (flashRead m (dumpAddr slot + 8) 4)

/-- The slot that the engine writes next. -/
def dumpSlot (m : List (Nat × Octet)) : Nat :=
  if !holdsDump m 0 then 0
  else if !holdsDump m 1 then 1
  else if dumpBootCount m 1 < dumpBootCount m 0 then 1 else 0

/-- The octets of a dump made now. -/
def dumpOctets (d : Dev) : List Octet :=
  let rs := (d.aon.fmn.log.take 1024).reverse
  let head := natBe 4 0x464D4E44 ++ natBe 2 1 ++ natBe 2 rs.length ++ natBe 4 d.aon.bootCount
    ++ natBe 2 d.aon.graveSource ++ natBe 1 d.aon.graveUnit ++ natBe 1 0 ++ natBe 8 (time55 d.aon.graveTime)
    ++ natBe 8 d.aon.fmn.newest ++ List.replicate 28 0
  let led := (List.range 64).flatMap fun i =>
    let e := tgetD d.aon.wear i {}
    natBe 8 (e.wear % 2 ^ 40 * 65536 + e.frac % 65536)
  let recs := rs.flatMap recordOctets
  let rest := led ++ List.replicate 448 0 ++ recs ++ List.replicate (65536 - recs.length) 0
  head ++ natBe 4 (crcOctets crcIlf (head ++ rest)) ++ rest

/-- Firmware erases the slot that the engine would write next, if it is not erased. -/
def eraseNext (d : Dev) : Dev := d.onFlash fun m => flashProgram m (dumpAddr (dumpSlot m)) 66560 []

end Sys2Proof.Machine
end

