-- ==== Sys2Proof/Machine/Wear.lean ====
section
/-!
DEFINITION. The lifetime ledger: its accrual, its flash copies and its restoration (14 R351-R354).
-/
namespace Sys2Proof.Machine

/-! ### AF(T) in fixed point (14 R351; log entry 13) -/

/-- One, in the fixed point of `expFix`. -/
def fixOne : Int := 2 ^ 64

/-- Taylor sum of exp over a small argument, by Horner from the tenth term. -/
def expSmall (x : Int) : Int :=
  [10, 9, 8, 7, 6, 5, 4, 3, 2, 1].foldl (fun acc k => fixOne + x * acc / (fixOne * k)) fixOne

/-- `n` squarings. -/
def squareN : Nat → Int → Int
  | 0, x => x
  | n + 1, x => squareN n (x * x / fixOne)

/-- exp of a fixed-point argument: exp(x / 1,024) squared ten times. -/
def expFix (x : Int) : Int := squareN 10 (expSmall (x / 1024))

/-- 256 × AF × 65,536 for a sum of `c` readings in 0.125 °C: T = sum ÷ 8c + 273.15 K (14 R351). -/
def afInc (sum : Int) (c : Nat) : Nat :=
  let cc : Int := c
  let tn := sum * 100 + 27315 * 8 * cc
  let x := fixOne * (70000000000 * (100 * tn - 800 * cc * 36315)) / (8617333 * 36315 * tn)
  (expFix x * (256 * 65536) / fixOne).toNat

/-- The rated life of an entry in wu. -/
def ratedLife : Nat := 323149824000

/-- Is the domain of a sensor ON (14 R335, R351)? A slice is on in ACTIVE and IDLE. -/
def sensorOn (d : Dev) (s : Nat) : Bool :=
  if s < 32 then
    !d.aon.coll.fenced.contains s && ((d.slice s).st == .on || (d.slice s).st == .idle || (d.slice s).st == .waking)
  else if s < 48 then (tgetD d.fab.pd.groups (s - 32) {}).st == .on
  else if s < 56 then (tgetD d.fab.pd.banks (s - 48) {}).st == .on
  else if s < 60 then (d.core (s - 56)).on && !d.aon.coll.fenced.contains (0x38 + (s - 56))
  else if s = 62 then true
  else !d.aon.standby

/-- Adds one second's increment, in 1/65,536 wu, to an entry. -/
def Wear.add (w : Wear) (inc : Nat) : Wear :=
  let tot := w.wear * 65536 + w.frac + inc
  { w with wear := tot / 65536 % 2 ^ 40, frac := tot % 65536, hourMax := max w.hourMax inc
           days := match w.days with
             | x :: r => (x + inc) :: r
             | [] => [inc] }

/-- One second's accrual of every entry whose domain is on, with WEAR_HALF and WEAR_HIGH (14 R351, R353). -/
def accrue (t : Time) (d : Dev) : Dev :=
  let d := (List.range 64).foldl (fun d s =>
    if !sensorOn d s then d
    else
      let w := (tgetD d.aon.wear s {}).add (afInc (d.aon.sense.tempSum.getD s 0) d.aon.sense.tempCount)
      let half := decide (ratedLife ≤ 2 * w.wear)
      let high := decide (9 * ratedLife ≤ 10 * w.wear)
      let d1 := d.onAon fun a => { a with wear := tput a.wear s { w with half := w.half || half, high := w.high || high } }
      let d1 := if half && !w.half then fault 0x16D (wd s) t d1 else d1
      if high && !w.high then fault 0x16E (wd s) t d1 else d1) d
  d.onSense fun x => { x with tempSum := [], tempCount := 0 }

/-- A day of 30-day accrual ends at every E that is a multiple of 86,400 s. -/
def newDay (t : Time) (d : Dev) : Dev :=
  if atFrame (8000 * 86400) t then
    d.onAon fun a => { a with wear := tmap a.wear fun _ w => { w with days := (0 :: w.days).take 30 } }
  else d

/-- The mean AF of an entry over its days, in 1/256: its accrual per second in wu. -/
def Wear.meanAf (w : Wear) (t : Time) : Nat :=
  let secs := max 1 (min (t / sec 1) (30 * 86400))
  w.days.foldl (· + ·) 0 / 65536 / secs

/-! ### Flash copies (14 R352; layout: log entry 6) -/

/-- A copy: sequence, 64 entries of 8 octets, 64 highest increments of 4 octets, CRC-32. -/
def wearCopy (seq : Nat) (d : Dev) : List Octet :=
  let es := (List.range 64).map fun i => tgetD d.aon.wear i {}
  let body := natBe 4 seq ++ es.flatMap (fun e => natBe 8 (e.wear % 2 ^ 40 * 65536 + e.frac % 65536))
    ++ es.flatMap (fun e => natBe 4 e.hourMax)
  body ++ natBe 4 (crcOctets crcIlf body)

/-- A copy in flash that verifies. -/
def readCopy (m : List (Nat × Octet)) (k : Nat) : Option (List Octet) :=
  let o := flashRead m (wearAddr + k * 32768) 776
  if beNat (o.drop 772) = crcOctets crcIlf (o.take 772) then some o else none

/-- The latest copy that verifies, with its place. -/
def latestCopy (m : List (Nat × Octet)) : Option (Nat × List Octet) :=
  match readCopy m 0, readCopy m 1 with
  | some a, some b => if beNat (a.take 4) < beNat (b.take 4) then some (1, b) else some (0, a)
  | some a, none => some (0, a)
  | none, some b => some (1, b)
  | none, none => none

/-- The place and the sequence number of the copy to write next. -/
def nextCopy (m : List (Nat × Octet)) : Nat × Nat :=
  match latestCopy m with
  | some (p, o) => (1 - p, beNat (o.take 4) + 1)
  | none => (0, 1)

/-- Writes the ledger to the other copy; a new hour begins (14 R352). -/
def saveWear (d : Dev) : Dev :=
  let p := nextCopy d.aon.flash.mem
  let d := d.onFlash fun m => flashProgram m (wearAddr + p.1 * 32768) 4096 (wearCopy p.2 d)
  d.onAon fun a => { a with wear := tmap a.wear fun _ w => { w with hourMax := 0 } }

/-- Restores the ledger at the boot after an AON power-on, with the charge for the time the copy did not cover; where
no copy verifies, every entry starts from 0 and WEAR_UNKNOWN is counted (14 R352). -/
def restoreWear (t : Time) (d : Dev) : Dev :=
  match latestCopy d.aon.flash.mem with
  | none => fault 0x16F 0 t (d.onAon fun a => { a with wear := [] })
  | some (_, o) =>
    let es := (List.range 64).map fun i =>
      let v := beNat ((o.drop (4 + 8 * i)).take 8)
      let h := beNat ((o.drop (516 + 4 * i)).take 4)
      let tot := v + 3600 * h
      let w := tot / 65536 % 2 ^ 40
      (i, { wear := w, frac := tot % 65536, half := decide (ratedLife ≤ 2 * w), high := decide (9 * ratedLife ≤ 10 * w) : Wear })
    d.onAon fun a => { a with wear := es }

/-- WEAR_ACCRUAL (14 R351, R353): at each E that is a multiple of 8,000. AON counts it in Snowdrop too. -/
def execWearAccrual (s : State) : Out :=
  s.run (gAon fun t d => if atFrame 8000 t then newDay t (accrue t d) else d)

/-- WEAR_LEDGER_FLASH_WRITE (14 R352). -/
def execWearLedgerFlashWrite (s : State) : Out := s.run (gAon fun _ d => saveWear d)

end Sys2Proof.Machine
end

