-- ==== Sys2Proof/Machine/Resets.lean ====
section
/-!
DEFINITION. Resets, standby wakes and the boot (19 R436-R445, R450-R451; 14 R331; 15 R373; 18 R430).
-/
namespace Sys2Proof.Machine

/-- Discards the change sets that some masters own (16 R390). -/
def dropSets (ms : List Nat) (d : Dev) : Dev :=
  d.onFw fun f => { f with sets := f.sets.filter fun s => !ms.contains s.owner }

/-- The system reset (19 R436): every domain but AON; fence and pending bits, lost cores and the CORE_RESTART sources'
classes are cleared. -/
def sysReset (bootsel : Bool) (d : Dev) : Dev :=
  let d := d.onColl fun c => { c with
    src := tmap c.src fun n x =>
      let x := { x with pending := false }
      if 0x158 ≤ n ∧ n ≤ 0x15B then { x with rise := 0, count := 0, winStart := none } else x
    fenced := [], lost := [], clusterLost := false, factory := false, ret := { c.ret with busy := false } }
  let d := d.onAon fun a => { a with standby := false }
  { d with fab := { boot := { afterPor := false, bootsel := bootsel } } }

/-- The AON power-on reset (19 R436, R437; 02 R37): everything but OTP and flash. -/
def powerOn (p : PorPins) (d : Dev) : Dev :=
  let a := d.aon
  { aon := { bootCount := a.bootCount + 1, arbStep := a.arbStep, revoked := a.revoked, flash := a.flash
             fresh := a.fresh, oscsel := p.oscsel, testMode := p.testMode, i2caddr := p.i2caddr
             clk := { raw := p.refsel, settling := some 0 } }
    fab := { boot := { bootsel := p.bootsel } } }

/-- AON_POWER_ON_RESET (19 R436, R437; 18 R428): in Snowdrop, POR_N does nothing. Device time restarts at 0. -/
def execAonPowerOnReset (cause : PorCause) (pins : PorPins) (s : State) : Out :=
  .next (if s.dev.aon.snowdrop && cause == .porPin then s
    else { clock := {}, dev := powerOn pins s.dev, pending := s.pending })

/-- SYSTEM_RESET (19 R436, R437): ignored in Snowdrop. -/
def execSystemReset (bootsel : Bool) (s : State) : Out :=
  s.run fun _ d => if d.aon.snowdrop then d else sysReset bootsel d

/-- WAKE_N (14 R331): it wakes from standby through a full boot. -/
def execWakeN (bootsel : Bool) (s : State) : Out :=
  s.run fun _ d => if d.aon.standby && !d.aon.snowdrop then sysReset bootsel d else d

/-- I2C_WAKE_COMMAND (14 R331). -/
def execI2cWakeCommand (bootsel : Bool) (s : State) : Out :=
  s.run fun _ d => if d.aon.standby && !d.aon.snowdrop then sysReset bootsel d else d

/-- The masters a PCIe reset event resets, by R373: PF0 and every VF. -/
def hostMasters : List Nat := List.range 16

/-- PCIE_RESET (15 R373; 19 R436): the PCIe host block, with its MSI-X structures, and the channels of PF0 and the VFs. -/
def execPcieReset (kind : PcieReset) (s : State) : Out :=
  s.run (gRun fun _ d =>
    match kind with
    | .conventional | .linkDown | .flrPf0 =>
      let d := mastersReset hostMasters (dropSets hostMasters d)
      d.onIrq fun q => { q with msix := [] })

/-- VF_FLR (15 R373). -/
def execVfFlr (vf : Nat) (s : State) : Out :=
  s.run (gRun fun _ d =>
    if 1 ≤ vf ∧ vf ≤ 15 then
      let d := mastersReset [vf] (dropSets [vf] d)
      d.onIrq fun q => { q with msix := tdel q.msix vf }
    else d)

/-- I2C_PORT_RESET (15 R373). -/
def execI2cPortReset (s : State) : Out := s.run (gRun fun _ d => mastersReset [20] (dropSets [20] d))

/-! ### Boot (19 R438, R439) -/

/-- A boot record (18 R432). -/
def bootRecord (sub what : Nat) (version result : Word) (unit : Nat) (t : Time) (d : Dev) : Dev :=
  addRecord 0x0B sub unit t [wd what, version, result, 0] d

/-- Enters a stage: its code shows, and a boot record is written. -/
def enterStage (st : Nat) (t : Time) (d : Dev) : Dev :=
  let d := d.onBoot fun b => { b with stage := BitVec.ofNat 8 st }
  bootRecord 0x01 st (runningVersion d) (wd d.fab.boot.result.toNat) 0xFF t d

/-- Stops at the stage with a boot_result (19 R439). -/
def bootFail (res : Nat) (d : Dev) : Dev :=
  d.onBoot fun b => { b with failed := true, result := BitVec.ofNat 4 res }

/-- An HBM channel that fails training is fenced as HBM_UNCORR at Major class (19 R438). -/
def failHbm (c : Nat) (t : Time) (d : Dev) : Dev :=
  let n := 0x140 + c
  let d := d.setSrc n { d.src n with rise := 1, last := none }
  fault n 0 t d

/-- The bank Primrose tries first (19 R443): the active-bank record's. -/
def firstBank (d : Dev) : Nat := d.aon.flash.activeBank

/-- What firmware does as it starts to serve: the binding table is locked, dumps of the preceding power-on are reported,
the ledger restored, the next dump slot erased, every core runs (15 R370, R371; 18 R434; 14 R352). -/
def firmwareUp (t : Time) (d : Dev) : Dev :=
  let b := imageBinds d.fab.boot.image
  let d := setBinds (if bindsOk b then b else defaultBinds) d
  let d := d.onFab fun f => { f with mbx := { f.mbx with locked := true } }
  let d := d.onBoot fun b => { b with running := true }
  let d := d.onFw fun f => { f with imageStart := t, restarts := 0 }
  let d := [0, 1, 2, 3].foldl (fun d k => d.modCore k fun x => { x with remap := false }) d
  let up := fun (u k : Nat) => (k, ({ st := if d.aon.coll.fenced.contains (u + k) then .off else .on, since := t } : Dom))
  let d := d.onPd fun p => { p with banks := (List.range 8).map (up 0x30), groups := (List.range 16).map (up 0x20) }
  let d := if (imgFlags d.fab.boot.image).testBit 1 && d.aon.testMode then
      d.onColl fun c => { c with factory := true }
    else d
  let d := if d.fab.boot.afterPor then
      let d := [0, 1].foldl (fun d k =>
        if holdsDump d.aon.flash.mem k && dumpBootCount d.aon.flash.mem k + 1 == d.aon.bootCount then
          addRecord 0x0C 0x03 0x51 t
            [wd k, wd (beNat (flashRead d.aon.flash.mem (dumpAddr k + 12) 2)), wd (dumpBootCount d.aon.flash.mem k), 0] d
        else d) d
      restoreWear t d
    else d
  eraseNext d

/-- Verification of the image fetched (19 R443, R445): from flash the other bank is tried, from the host there is no
fallback. -/
def verifyStage (t : Time) (d : Dev) : Dev :=
  if d.fab.boot.source = 2 then
    match imageFault d.fab.boot.image d with
    | some k => bootFail (imageResult k) d
    | none => enterStage 0x07 t d
  else
    let b0 := firstBank d
    let use := fun (b res : Nat) =>
      enterStage 0x07 t (d.onBoot fun x => { x with image := bankImage d.aon.flash.mem b, bank := b, result := BitVec.ofNat 4 res })
    if (imageFault (bankImage d.aon.flash.mem b0) d).isNone then use b0 0
    else if (imageFault (bankImage d.aon.flash.mem (1 - b0)) d).isNone then use (1 - b0) 1
    else bootFail 3 d

/-- BOOT_STAGE (19 R438, R439, R445): the work of the stage ends, and the boot passes to its next stage or stops. -/
def execBootStage (x : BootInfo) (s : State) : Out :=
  s.run (gRun fun t d =>
    let b := d.fab.boot
    if b.failed then d
    else match b.stage.toNat with
      | 0x00 => enterStage 0x01 t ([0, 1, 2, 3].foldl (fun d k => d.modCore k fun y => { y with on := true, running := true }) d)
      | 0x01 => if x.romOk then enterStage 0x02 t d else bootFail 2 d
      | 0x02 => enterStage 0x03 t d
      | 0x03 => enterStage 0x04 t (d.onBoot fun y => { y with
          pbCompat := bcbPbCompat d.aon.flash.mem, squelch := bcbSquelch d.aon.flash.mem })
      | 0x04 =>
        let d := x.hbmFailed.foldl (fun d c => if c < 16 then failHbm c t d else d) d
        if (List.range 16).all x.hbmFailed.contains then bootFail 4 d
        else
          let d := enterStage 0x05 t (d.onBoot fun y => { y with source := if y.bootsel then 2 else 1 })
          if b.bootsel then setBinds defaultBinds d else d
      | 0x05 => if b.source = 2 && b.image.isEmpty then d else enterStage 0x06 t d
      | 0x06 => verifyStage t d
      | 0x07 => enterStage 0x08 t d
      | 0x08 => firmwareUp t (enterStage 0xFF t d)
      | _ => d)

/-! ### Images and activation (19 R444, R449-R451) -/

/-- FW_IMAGE_LOAD_COMPLETE (19 R449): the image is written and read back; the completion carries the result. INTERNAL
counts FW_INTERNAL (16 R381; DEDUCED, log entry 94). -/
def execFwImageLoadComplete (ok : Bool) (s : State) : Out :=
  s.run (gFw fun t d =>
    match d.fab.fw.load with
    | none => d
    | some l =>
      let d := d.onFlash fun m => flashProgram m (bankAddr l.bank) 4194304 (if ok then l.image else l.image.take 255)
      let d := d.onFw fun f => { f with load := none }
      let d := if ok then d else fault 0x168 0 t d
      match outChan d (d.chan l.ch).bind.sender with
      | some o => sendOut o .completion
          (completionWords 0x0B02 l.tag.toNat (if ok then rcOk else rcInternal) l.handle 0xFF 3 t 0) d
      | none => d)

/-- Arms, in the order of acceptance, each change whose trigger falls within 2.5 s and whose object has no change armed for
another boundary (02 R52; 19 R450). -/
def armAhead (t : Time) (cs : List Change) : List Change :=
  cs.foldl (fun l c =>
    let other := fun p : Change => p.obj == c.obj && p.armed && (p.trig != c.trig || p.parts != c.parts)
    l ++ [if decide (c.trig ≤ t + sec 5 / 2) && !(cs ++ l).any other then { c with armed := true } else c]) []

/-- FW_ACTIVATE_BOUNDARY (19 R450): changes due within 2.5 s are armed, as far as one pending bank per object allows;
the cores are held. -/
def execFwActivateBoundary (s : State) : Out :=
  s.run (gFw fun t d =>
    match d.fab.fw.changes.find? (fun c => c.code == 0x0B03#16 && decide (c.trig ≤ t)) with
    | none => d
    | some c =>
      if !isOctet t then d
      else
        let bank := fld (c.w 4) 0 0
        let d := d.onFw fun f => { f with
          changes := armAhead t (f.changes.filter fun p => p.handle != c.handle)
          activating := some (bank, t), actChange := some c }
        [0, 1, 2, 3].foldl (fun d k => d.modCore k fun x => { x with running := false }) d)

/-- Ends an activation: the cores run, the completion is sent, LOCKED ends; unarmed changes whose arming point has
passed are discarded with TIMEOUT (02 R52; 19 R450, R451). -/
def endActivation (ret : Nat) (detail : Word) (t : Time) (d : Dev) : Dev :=
  let d := [0, 1, 2, 3].foldl (fun d k =>
    if (d.core k).on && !d.aon.coll.fenced.contains (0x38 + k) then d.modCore k fun x => { x with running := true } else d) d
  let c := d.fab.fw.actChange
  let d := d.onFw fun f => { f with activating := none, actChange := none, actPending := false }
  let d := match c with | some c => complete c 3 ret t detail d | none => d
  (d.fab.fw.changes.filter fun p => !p.armed && decide (p.trig < t + 2 * frame)).foldl
    (fun d p => abortChange p rcTimeout t d) d

/-- ACTIVATION_COMPLETE (19 R450): within 2 s of the boundary the new image is loaded and named by the active-bank
record. -/
def execActivationComplete (s : State) : Out :=
  s.run (gRun fun t d =>
    match d.fab.fw.activating with
    | none => d
    | some (bank, b) =>
      if b + sec 2 ≤ t then d else
      let d := d.onBoot fun b => { b with image := bankImage d.aon.flash.mem bank, bank := bank }
      let d := d.onAon fun a => { a with flash := { a.flash with activeBank := bank } }
      let d := endActivation rcOk 0 t d
      let d := d.onFw fun f => { f with imageStart := t, restarts := 0 }
      bootRecord 0x03 0 (runningVersion d) 0 0xFF t d)

/-- ACTIVATION_FALLBACK (19 R451): 2 s after the boundary the previous image is reloaded; the completion carries INTERNAL, detail 0x0001. -/
def execActivationFallback (s : State) : Out :=
  s.run (gRun fun t d =>
    match d.fab.fw.activating with
    | none => d
    | some (_, b) =>
      if t < b + sec 2 then d else
      let d := fault 0x168 1 t (endActivation rcInternal 1 t d)
      d.onFw fun f => { f with imageStart := t, restarts := 0 })

/-- ARB_BURN (19 R444): after 600 s without CORE_RESTART, arb_step rises to the image's svn, and the slots that the
image revokes, but its own, are burnt. -/
def execArbBurn (s : State) : Out :=
  s.run (gFw fun t d =>
    let img := d.fab.boot.image
    if decide (t < d.fab.fw.imageStart + sec 600) || d.fab.fw.restarts != 0 then d
    else d.onAon fun a => { a with
      arbStep := min 128 (max a.arbStep (imgSvn img))
      revoked := (List.range 4).foldl (fun r k =>
        if (imgFlags img).testBit (4 + k) && k != imgKey img then sadd r k else r) a.revoked })

/-- TEST_PIN (18 R430): TEST_MODE high at reset release and no factory unlock within 10 s of firmware start. -/
def execTestPin (s : State) : Out :=
  s.run (gFw fun t d => if d.aon.testMode && !d.aon.coll.factory && decide (d.fab.fw.imageStart + sec 10 ≤ t) then fault 0x174 0 t d else d)

/-! ### Cores (14 R332; 15 R372; 18 R424) -/

/-- CORE_WAKE_COMPLETE (15 R372): the core resumes; waking clears on its channels. -/
def execCoreWakeComplete (core : Nat) (s : State) : Out :=
  s.run (gRun fun _ d =>
    if core < 4 && !(d.core core).on && allChans.any (fun c => (d.chan c).waking && receiverOf d c == 16 + core) then
      let d := d.modCore core fun x => { x with on := true, running := true }
      allChans.foldl (fun d c => if receiverOf d c == 16 + core then d.modChan c fun x => { x with waking := false } else d) d
    else d)

/-- CORE_POWER_DOWN (14 R332; 15 R372): never CC0, and never while a channel bound to the core has posted set. -/
def execCorePowerDown (core : Nat) (s : State) : Out :=
  s.run (gFw fun _ d =>
    let bound := fun c : Nat => (d.chan c).bind.receiver == 16 + core || (d.chan c).bind.sender == 16 + core
    let busy := allChans.any fun c => (d.chan c).posted && bound c
    if 1 ≤ core && core < 4 && coreRuns d core && !busy then
      d.modCore core fun x => { x with on := false, running := false }
    else d)

/-- CRYPTO_POWER_DOWN (14 R332): 1 ms after the last operation. -/
def execCryptoPowerDown (s : State) : Out :=
  s.run (gFw fun t d => if t < d.fab.pd.cryptoAt + 262144 then d else d.onPd fun p => { p with crypto := false })

/-- CORE_WDOG (18 R424): a running core leaves its watchdog unserviced. -/
def execCoreWdog (core : Nat) (s : State) : Out :=
  s.run (gFab fun t d =>
    if core < 4 && (coreRuns d core || d.aon.snowdrop) && d.fab.fw.activating.isNone then fault (0x150 + core) 0 t d else d)

/-- CORE_EXC (18 R424). -/
def execCoreExc (core : Nat) (s : State) : Out :=
  s.run (gFab fun t d =>
    if core < 4 && (coreRuns d core || d.aon.snowdrop) then fault (0x154 + core) 0 t d else d)

/-- CORE_RESTART_COMPLETE (18 R424; 14 R345; 02 R52): the core serves again, its fence clears; firmware clears a
migrating mark with no engine entry; if every core was down it reloads its unarmed changes, and those whose arming
point has passed end with TIMEOUT. -/
def execCoreRestartComplete (core : Nat) (s : State) : Out :=
  s.run (gRun fun t d =>
    if !(core < 4 && (d.core core).restarting) then d
    else
      let all := (lowestRunning d).isNone
      let d := d.modCore core fun x => { x with on := true, running := true, restarting := false, remap := false }
      let d := d.onColl fun c => { c with fenced := sdel c.fenced (0x38 + core) }
      let d := (bootRecord 0x02 core (runningVersion d) 0 (0x38 + core) t d).onBoot fun b => { b with zeroed := [] }
      let migs := d.fab.migs
      let clear := fun (n : Nat) (x : Trib) =>
        if x.migrating && !migs.any (·.t == n) then { x with migrating := false, shadow := 0 } else x
      let d := d.onFab fun f => { f with tribs := tmap f.tribs clear }
      if all then
        (d.fab.fw.changes.filter fun p => !p.armed && decide (p.trig < t + 2 * frame)).foldl
          (fun d p => abortChange p rcTimeout t d) d
      else d)

end Sys2Proof.Machine
end

