-- ==== Sys2Proof/Machine/CmdSystem.lean ====
section
/-!
DEFINITION. Commands of class 0x01 (device), 0x0A (recorder) and 0x0B (firmware and attestation), but the change-set
commands (16 R382-R385, R395; 18 R433, R434; 19 R441-R450; 15 R476).
-/
namespace Sys2Proof.Machine

/-- All bits of a word named. -/
def anyW : Nat := 2 ^ 32 - 1

/-- T numbers that a master owns. -/
def ownedTs (d : Dev) (m : Nat) : List Nat := (d.fab.tribs.filter fun e => e.2.owner == m).map (·.1)

def cmdDeviceInfoGet : Cmd := {
  code := 0x0101, n := 8, kind := .query, vf := true, i2c := true
  run := fun x d =>
    let ts := ownedTs d x.m
    { dev := d
      items := item 1 0 [1] ++ item 2 0 [runningVersion d] ++ item 3 0 [wd Config.variant.toNat]
        ++ item 4 0 [wd d.aon.bootCount]
        ++ item 5 0 (match ts with | [] => [0xFFFFFFFF, 0xFFFFFFFF] | a :: _ => [wd a, wd (ts.getLastD a)]) } }

def cmdLastErrorGet : Cmd := {
  code := 0x0104, n := 8, kind := .query, vf := true, i2c := true
  run := fun x d =>
    { dev := d, items := item 1 0 [(d.chan x.ch).lastErr] ++ item 2 0 [(d.chan x.ch).lastDetail] } }

/-- A tributary's descendants and itself, to the depth of R14. -/
def familyOf (d : Dev) (t : Nat) : List Nat :=
  let kids := fun ts : List Nat =>
    (d.fab.tribs.filter fun e => e.2.port.isNone && ts.contains e.2.parent && !ts.contains e.1).map (·.1)
  let l1 := [t] ++ kids [t]
  let l2 := l1 ++ kids l1
  let l3 := l2 ++ kids l2
  l3 ++ kids l3

def cmdOwnerSet : Cmd := {
  code := 0x0105, n := 8, kind := .config
  mask := [(4, bitsMask 31 24 + bitsMask 16 0), (5, bitsMask 4 0)]
  enc := fun ws =>
    let w := ws.getD 4 0
    match fld w 31 24 with
    | 1 => if fld w 16 7 = 0 then [] else [(4, 16, 7)]
    | 2 => portWordEnc 4 w
    | 3 => []
    | 4 => if fld w 16 12 = 0 then [] else [(4, 16, 12)]
    | _ => [(4, 31, 24)]
  chk := fun x d =>
    let o := fld (x.w 4) 16 0
    firstErr [
      need (match fld (x.w 4) 31 24 with
        | 1 => decide (o < 128)
        | 2 => (d.port (portOfWord o)).isSome && decide (o < 4096)
        | 3 => (d.trib o).isSome
        | _ => (d.pg o).isSome) (badArg 4 0),
      need (decide (fld (x.w 5) 4 0 ≤ 15)) (badArg 5 0)]
  obj := fun x _ =>
    let o := fld (x.w 4) 16 0
    match fld (x.w 4) 31 24 with
    | 1 => .lane o | 2 => .port (portOfWord o) | 3 => .trib o | _ => .group o
  key := fun ws => some (ws.getD 4 0, 0)
  apply := fun c _ _ d =>
    let o := fld (c.w 4) 16 0
    let m := fld (c.w 5) 4 0
    match fld (c.w 4) 31 24 with
    | 1 => d.modLane o fun l => { l with owner := m }
    | 2 => d.modPort (portOfWord o) fun p => { p with owner := m }
    | 3 => (familyOf d o).foldl (fun d t => d.modTrib t fun x => { x with owner := m }) d
    | _ => d.modPg o fun g => { g with owner := m } }

def cmdCfgLock : Cmd := {
  code := 0x0106, n := 8, kind := .action, mask := [(4, 1)]
  run := fun x d => { dev := d.onFw fun f => { f with cfgLock := bitAt (x.w 4) 0 } } }

def cmdDeviceConfig : Cmd := {
  code := 0x0107, n := 8, kind := .action, mask := [(4, bitsMask 31 31)]
  run := fun x d => { dev := d.onFlash (bcbRewrite (bitAt (x.w 4) 31)) } }

/-- AON-only standby (14 R331, R352): the ledger is written to flash first. -/
def cmdDeviceStandby : Cmd := {
  code := 0x0108, n := 8, kind := .action, mask := [(4, anyW)]
  enc := fun ws => if ws.getD 4 0 = 0x53544259 then [] else [(4, 31, 0)]
  run := fun _ d => { dev := (saveWear d).onAon fun a => { a with standby := true } } }

def cmdEcho : Cmd := {
  code := 0x0109, n := 8, kind := .action, vf := true, i2c := true
  run := fun x d => { dev := reply x (item 1 0 ((x.msgs.getLastD []).drop 4)) d } }

/-! ### Change sets (16 R390) -/

def cmdCsAbort : Cmd := {
  code := 0x0103, n := 8, kind := .action, vf := true, mask := [(4, bitsMask 7 0)]
  chk := fun x d =>
    match d.fab.fw.sets.find? (·.num == fld (x.w 4) 7 0) with
    | none => some (badArg 4 0)
    | some s => need (s.owner == x.m) ⟨rcConflict, s.owner⟩
  run := fun x d => { dev := d.onFw fun f => { f with sets := f.sets.filter fun s => s.num != fld (x.w 4) 7 0 } } }

/-- The effect of a change at once in every part, on a scratch copy (16 R390). -/
def applyAll (cmd : Cmd) (c : Change) (t : Time) (d : Dev) : Dev :=
  c.parts.foldl (fun d p => cmd.apply c p t d) d

/-- The context of a set's member at commit. -/
def memberCtx (x : Ctx) (m : Member) : Ctx := ⟨x.t, m.ch, x.m, m.msgs⟩

/-- Checks the members in turn, each as if the earlier ones had applied: an earlier member counts toward R48 and waits
for nothing. Answers the failing member, or the accepted
changes' objects, parts and places. -/
def checkMembers (cmdOf : Nat → Option Cmd) (x : Ctx) (trig : Option Time) :
    Nat → List Member → Dev → Except (Nat × Err) (List (Obj × List Part × Option Place))
  | _, [], _ => .ok []
  | i, m :: r, d =>
    match cmdOf m.code.toNat with
    | none => .error (i, ⟨rcBadOpcode, 0⟩)
    | some cmd =>
      let y := memberCtx x m
      match changeErr cmd y trig d with
      | some e => .error (i, e)
      | none =>
        let o := cmd.obj y d
        let ps := cmd.parts y d
        let pl := cmd.place y d
        let tr := trig.getD x.t
        let c : Change := { handle := 0, ch := m.ch, sender := x.m, code := m.code, tag := m.tag, msgs := m.msgs
                            obj := o, trig := tr, accepted := x.t, parts := ps, place := pl }
        match checkMembers cmdOf x trig (i + 1) r (applyAll cmd c tr (acceptChange cmd y o [] none tr 0 i d)) with
        | .ok l => .ok ((o, ps, pl) :: l)
        | .error e => .error e

/-- Accepts every member with one trigger and one handle. -/
def acceptMembers (cmdOf : Nat → Option Cmd) (x : Ctx) (tr : Time) (h : Nat) :
    Nat → List Member → List (Obj × List Part × Option Place) → Dev → Dev
  | i, m :: r, p :: q, d =>
    let d := match cmdOf m.code.toNat with
      | some cmd => acceptChange cmd (memberCtx x m) p.1 p.2.1 p.2.2 tr h i d
      | none => d
    acceptMembers cmdOf x tr h (i + 1) r q d
  | _, _, _, d => d

/-- CS_COMMIT (16 R390; 02 R49): every member is checked, then all are accepted or the set is discarded. -/
def commitSet (cmdOf : Nat → Option Cmd) (x : Ctx) (d : Dev) : Res :=
  let n := fld (x.w 1) 23 16
  match d.fab.fw.sets.find? (·.num == n) with
  | none => { dev := d, code := rcBadArg, detail := 0x0110 }
  | some s =>
    if s.owner != x.m then { dev := d, code := rcConflict, detail := s.owner }
    else
      let d := d.onFw fun f => { f with sets := f.sets.filter fun y => y.num != n }
      let trig := triggerOf x
      match checkMembers cmdOf x trig 0 s.members d with
      | .error (i, e) => { dev := d, code := e.code, detail := i, full := some e.detail }
      | .ok l =>
        let h := nextHandle d
        { dev := acceptMembers cmdOf x (trig.getD x.t) h 0 s.members l d, code := rcDeferred, detail := h }

def cmdCsCommit (cmdOf : Nat → Option Cmd) : Cmd := {
  code := 0x0102, n := 8, kind := .config, vf := true
  enc := fun ws => if bitAt (ws.getD 1 0) 31 then [] else [(1, 31, 31)]
  run := commitSet cmdOf }

/-! ### Recorder -/

/-- A record as REC_READ returns it (18 R433): lost, aged out or on a fenced channel in the lost form. -/
def readRecord (d : Dev) (n : Nat) : List Word :=
  let lost := [wd (n / 2 ^ 32 % 256), wd (n % 2 ^ 32), 0, 0, 0, 0, 0, 0]
  let far := decide (65536 ≤ d.aon.fmn.newest - n)
  if far && d.aon.coll.fenced.contains (0x40 + recHbm n) then lost
  else match d.aon.fmn.log.find? (·.num == n) with
    | some r => if r.lost then lost else r.ws
    | none => lost

def cmdRecRead : Cmd := {
  code := 0x0A01, n := 8, kind := .query, i2c := true
  mask := [(4, bitsMask 7 0), (5, anyW), (6, bitsMask 16 0)]
  enc := fun ws => let c := fld (ws.getD 6 0) 16 0; if 1 ≤ c ∧ c ≤ 65536 then [] else [(6, 16, 0)]
  chk := fun x d =>
    let n := fld (x.w 4) 7 0 * 2 ^ 32 + (x.w 5).toNat
    need (!d.aon.fmn.log.isEmpty && decide (n ≤ d.aon.fmn.newest)) (badArg 4 0)
  run := fun x d =>
    let n := fld (x.w 4) 7 0 * 2 ^ 32 + (x.w 5).toNat
    let c := min (fld (x.w 6) 16 0) (d.aon.fmn.newest + 1 - n)
    { dev := d, items := (List.range c).flatMap fun i => item 1 i (readRecord d (n + i)) } }

def cmdRecMark : Cmd := {
  code := 0x0A02, n := 8, kind := .action, vf := true, i2c := true
  mask := [(4, anyW), (5, anyW), (6, anyW), (7, anyW)]
  run := fun x d => { dev := addRecord 0x0A 0 0xFF x.t [x.w 4, x.w 5, x.w 6, x.w 7] d } }

def cmdRecDumpRead : Cmd := {
  code := 0x0A03, n := 8, kind := .query, i2c := true
  mask := [(4, anyW), (5, anyW)]
  chk := fun x _ => firstErr [
    need (decide ((x.w 4).toNat < 2080)) (badArg 4 0),
    need (decide (1 ≤ (x.w 5).toNat) && decide ((x.w 4).toNat + (x.w 5).toNat ≤ 2080)) (badArg 5 0)]
  run := fun x d =>
    { dev := d
      items := (List.range (x.w 5).toNat).flatMap fun i =>
        let u := (x.w 4).toNat + i
        item 1 u (packWords (flashRead d.aon.flash.mem (dumpAddr 0 + 64 * u) 64)) } }

def cmdRecDumpClear : Cmd := {
  code := 0x0A04, n := 8, kind := .action, mask := [(4, anyW)]
  enc := fun ws => if ws.getD 4 0 = 0x434C5244 then [] else [(4, 31, 0)]
  run := fun _ d =>
    let m := d.aon.flash.mem
    let z := fun k d' => if holdsDump m k then Dev.onFlash d' fun m => flashWrite m (dumpAddr k) [0, 0, 0, 0] else d'
    { dev := eraseNext (z 1 (z 0 d)) } }

/-! ### Firmware and attestation -/

def cmdFwInfoGet : Cmd := {
  code := 0x0B01, n := 8, kind := .query, vf := true, i2c := true
  run := fun _ d =>
    let bank := fun b : Nat =>
      let img := bankImage d.aon.flash.mem b
      item 4 b [wd (imgVersion img), wd (imgSvn img), wd ((imageFault img d).getD 0)]
    { dev := d, items := item 1 0 [runningVersion d] ++ item 2 0 [1] ++ item 3 0 [wd d.aon.arbStep] ++ bank 0 ++ bank 1 } }

/-- A completion sent at once to the sender of a channel. -/
def completeNow (x : Ctx) (code h ret : Nat) (d : Dev) : Dev :=
  match outChan d x.m with
  | some o => sendOut o .completion (completionWords code (fld (x.w 0) 15 8) ret h 0xFF 3 x.t 0) d
  | none => d

/-- FW_IMAGE_LOAD with the image read from host memory (19 R445, R449): checks 1 to 7; a pass starts the write, which
erases the bank first (19 R440), a fault or a conflict completes at once. Before firmware runs, Primrose takes the image as the one to verify. -/
def cmdFwImageLoad (image : List Octet) : Cmd := {
  code := 0x0B02, n := 8, kind := .action
  mask := [(4, anyW), (5, anyW), (6, anyW), (7, 1)]
  run := fun x d =>
    let img := image.take (x.w 6).toNat
    let bank := fld (x.w 7) 0 0
    if !d.fab.boot.running then
      { dev := d.onBoot fun b => { b with image := img, source := 2, bank := 2, failed := false, result := 0, stage := 0x05, bootsel := true } }
    else
      let h := nextHandle d
      let d := d.onFw fun f => { f with nextHandle := (h + 1) % 65536 }
      let done := fun ret d => ({ dev := completeNow x 0x0B02 h ret d, code := rcDeferred, detail := h } : Res)
      match imageFault img d with
      | some k => done (imageCode k) d
      | none =>
        if d.fab.boot.bank = bank || d.fab.fw.load.isSome then done rcConflict d
        else
          let d := d.onFlash fun m => flashProgram m (bankAddr bank) 4194304 []
          { dev := d.onFw fun f => { f with load := some ⟨x.ch, BitVec.ofNat 8 (fld (x.w 0) 15 8), h, bank, img⟩ }
            code := rcDeferred, detail := h } }

def cmdFwActivate : Cmd := {
  code := 0x0B03, n := 8, kind := .config, mask := [(4, 1)]
  chk := fun x d =>
    let img := bankImage d.aon.flash.mem (fld (x.w 4) 0 0)
    need ((imageFault img d).isNone && imgProto img == 1 && imgDbFormat img == imgDbFormat d.fab.boot.image)
      ⟨rcNotPermitted, 0⟩
  parts := fun _ _ => [.own]
  onAccept := fun _ d => d.onFw fun f => { f with actPending := true, sets := [] } }

def cmdCertGet : Cmd := {
  code := 0x0B04, n := 8, kind := .query, vf := true, i2c := true
  run := fun _ d =>
    { dev := d, items := item 1 0 (packWords Config.deviceCert) ++ item 2 0 (packWords Config.caCert)
        ++ item 3 0 (packWords Config.rootCert) } }

/-- An entry of the database serialisation (19 R447). -/
def dbEntryOctets (code : Nat) (o sel : Word) (ws : List Word) : List Octet :=
  natBe 2 code ++ [0, 0] ++ octetsOf o ++ octetsOf sel ++ natBe 2 ws.length ++ octetsOfWords ws

/-- The database serialisation: the applied commands' entries, then the registers of class 0xFE (19 R447; a deletion
leaves none, DEDUCED, log entry 95). -/
def dbSerial (d : Dev) : List Octet :=
  d.fab.fw.db.flatMap (fun e => dbEntryOctets e.code.toNat e.obj e.sel e.ws)
    ++ dbEntryOctets 0xFE00 0x20008 0 [regValue d 0 0x20008]
    ++ [0x50000, 0x50004, 0x50008].flatMap fun off => dbEntryOctets 0xFE00 (wd off) 0 [regValue d 0 off]

/-- The configuration digest (19 R447). -/
def cfgDigest (d : Dev) : List Octet := sha256 (dbSerial d)

def cmdCfgDigestGet : Cmd := {
  code := 0x0B06, n := 8, kind := .query, vf := true, i2c := true
  run := fun _ d => { dev := d, items := item 1 0 (packWords (cfgDigest d)) ++ item 2 0 (timeWords d.fab.fw.dbTime) } }

/-- The record of ATTEST_QUOTE before its signature (19 R448). -/
def quoteOctets (x : Ctx) (d : Dev) : List Octet :=
  let inc := fld (x.w 12) 2 0
  let pick := fun (b : Nat) (os : List Octet) => if inc.testBit b then os else List.replicate os.length 0
  let head := d.fab.fw.ledger.getLast?
  natBe 4 0x41545131 ++ natBe 2 1 ++ natBe 2 inc ++ natBe 8 Config.serial.toNat ++ natBe 4 d.aon.bootCount
    ++ natBe 4 (runningVersion d).toNat ++ natBe 1 d.aon.arbStep ++ natBe 1 (imgSvn d.fab.boot.image)
    ++ natBe 1 d.fab.boot.result.toNat
    ++ natBe 1 (b2n d.aon.coll.factory + 2 * b2n d.fab.pd.debug + 4 * b2n d.fab.fw.actPending)
    ++ natBe 4 0 ++ natBe 8 (time55 x.t) ++ octetsOfWords ((List.range 8).map fun i => x.w (4 + i))
    ++ pick 0 (fwHash d.fab.boot.image) ++ pick 0 (bcbHash d.aon.flash.mem)
    ++ pick 1 (cfgDigest d) ++ pick 1 (natBe 8 (time55 d.fab.fw.dbTime))
    ++ pick 2 (natBe 8 (match head with | some r => r.seq | none => 0))
    ++ pick 2 (match head with | some r => sha256 (r.octets.take 144) | none => List.replicate 32 0)

def cmdAttestQuote : Cmd := {
  code := 0x0B05, n := 13, kind := .query, vf := true, i2c := true
  mask := ((List.range 8).map fun i => (4 + i, anyW)) ++ [(12, bitsMask 2 0)]
  run := fun x d =>
    let q := quoteOctets x d
    { dev := d.onPd fun p => { p with crypto := true, cryptoAt := x.t }, items := item 1 0 ((packWords (q ++ Config.sign q)).take 70) } }

def cmdDebugUnlock : Cmd := {
  code := 0x0B07, n := 8, kind := .action, mask := [(4, anyW)]
  enc := fun ws => if ws.getD 4 0 = 0x44424755 then [] else [(4, 31, 0)]
  chk := fun _ d => need (!d.fab.dbgLock) ⟨rcNotPermitted, 0⟩
  run := fun _ d => { dev := d.onPd fun p => { p with debug := true } } }

end Sys2Proof.Machine
end

