-- ==== Sys2Proof/Machine/Clocking.lean ====
section
/-!
DEFINITION. Reference slots, DPLLs, witness and dispute, output clocks, and the commands of class 0x08
(13 R306-R328; 16 R395).
-/
namespace Sys2Proof.Machine

/-- The dispute ends; learning stays frozen for 60 s (13 R324). -/
def clearDispute (t : Time) (d : Dev) : Dev :=
  if !d.aon.clk.dispute then d
  else clkEvent 7 0x10 0 1 t (clkLatch 20 (d.onClk fun c => { c with
    dispute := false, clearRun := 0, noWitRun := 0, dispRun := 0, runIdx := [], freezeEnd := some (t + 480000 * frame) }))

/-- The dispute is declared: three samples leave the history, and learning freezes (13 R324). -/
def declareDispute (t : Time) (d : Dev) : Dev :=
  let ix := d.aon.clk.runIdx
  let d := d.modDpll 0 fun x => { x with
    hist := ((List.range x.hist.length).filter fun i => !ix.contains i).map fun i => x.hist.getD i 0
    frozen := true }
  let d := d.onClk fun c => { c with dispute := true, clearRun := 0, noWitRun := 0, runIdx := [], freezeEnd := none }
  fault 0x170 0 t (clkEvent 7 0x10 1 0 t (clkLatch 20 d))

/-- The gate's comparison of the forced slot and the witness (13 R324). `ok`: both offsets are valid; `learned`: DPLL0
took a sample in the gate. -/
def disputeGate (ok learned : Bool) (t : Time) (d : Dev) : Dev :=
  let d := if learned then d.onClk fun c => { c with runIdx := c.runIdx.map (· + 1) } else d
  let c := d.aon.clk
  match forcedSlot d with
  | none => d
  | some f =>
    let changed := c.gateForced != f || c.gateWitness != c.witness
    if changed then d
    else if c.witness = 0x1F then
      let n := c.noWitRun + 1
      let d := d.onClk fun c => { c with noWitRun := n, dispRun := 0, clearRun := 0, runIdx := [] }
      if 10 ≤ n then clearDispute t d else d
    else if !ok then d
    else
      let diff := ((d.slot f).off - (d.slot c.witness).off).natAbs
      let apart := decide (d.fab.clk.xcheck * 100 < diff)
      let low := decide (diff ≤ d.fab.clk.xcheck * 80)
      let dr := if apart then c.dispRun + 1 else 0
      let cr := if low then c.clearRun + 1 else 0
      let ix := if apart then (if learned then 0 :: c.runIdx else c.runIdx) else []
      let d := d.onClk fun c => { c with dispRun := dr, clearRun := cr, noWitRun := 0, runIdx := ix }
      if !c.dispute && decide (3 ≤ dr) then declareDispute t d
      else if c.dispute && decide (10 ≤ cr) then clearDispute t d
      else d

/-! ### REFSEL (13 R314) -/

/-- REFSEL_CHANGE: a new value starts or restarts the 1 ms count. -/
def execRefselChange (v : BitVec 4) (s : State) : Out :=
  s.run fun t d => if d.aon.clk.raw = v then d else d.onClk fun c => { c with raw := v, settling := some t }

/-- REFSEL_DEBOUNCED: the value has been stable for 262,144 phase units. -/
def execRefselDebounced (s : State) : Out :=
  s.run fun t d =>
    match d.aon.clk.settling with
    | none => d
    | some b =>
      if t < b + 262144 then d
      else
        let o := d.aon.clk.deb
        let v := d.aon.clk.raw
        let d := d.onClk fun c => { c with settling := none, pinSeen := true, deb := v }
        if o = v then d
        else
          let d := clkEvent 3 0x10 v.toNat o.toNat t (clkLatch 21 (d.onClk fun c => { c with gateForced := 0x1E }))
          refreshWitness t (if v.toNat < 12 then d else clearDispute t d)

/-! ### Monitors (13 R310-R313) -/

/-- CLK_ACTIVITY_WINDOW_END (13 R310): the 3rd consecutive missing window disqualifies at once. -/
def execClkActivityWindowEnd (slot : Nat) (edge : Bool) (s : State) : Out :=
  s.run fun t d =>
    if 12 ≤ slot || !slotLive d slot then d
    else if edge then d.modSlot slot fun x => { x with missing := 0, edges1pps := min 16 (x.edges1pps + 1) }
    else
      let n := (d.slot slot).missing + 1
      let d := d.modSlot slot fun x => { x with missing := min n 3, missInGate := true, edges1pps := 0 }
      if 3 ≤ n then refreshWitness t (disqualify slot t d) else d

/-- A slot's gate (13 R311, R312): its offset, and its state machine. -/
def slotGate (n : Nat) (m : GateMeas) (t : Time) (d : Dev) : Dev :=
  let x := d.slot n
  let live := slotLive d n
  let valid := live && m.valid && !x.missInGate && ((d.slotCfg n).typ != 4 || x.edges1pps == 16)
  let off := (m.off * 10 - d.fab.clk.ffo) / 10
  let d := d.modSlot n fun x => { x with missInGate := false }
  let d := if valid then (if off = x.off then d else slotTime n 4 t (d.modSlot n fun x => { x with off := off })) else d
  if x.qualified then
    if valid && decide (12000 < off.natAbs) then disqualify n t d else d
  else
    let k := if valid && decide (off.natAbs ≤ 9200) then min 10 (x.soak + 1) else 0
    let d := if k = x.soak then d else slotTime n 3 t (d.modSlot n fun x => { x with soak := k })
    if k = 10 then setQualified n true t d else d

/-- Is the slot's gate valid (13 R311)? -/
def gateValid (d : Dev) (n : Nat) (m : GateMeas) : Bool :=
  slotLive d n && m.valid && !(d.slot n).missInGate && ((d.slotCfg n).typ != 4 || (d.slot n).edges1pps == 16)

/-- One history sample of a DPLL (13 R319). -/
def learn (n : Nat) (off : Int) (d : Dev) : Dev :=
  if (d.dpll n).st = .locked && !(d.dpll n).frozen then
    d.modDpll n fun x => { x with hist := (off :: x.hist).take 300, learned := min 300 (x.learned + 1) }
  else d

/-- FREQUENCY_GATE_END (13 R311, R312, R319, R323, R324): at every E that is a multiple of 8,000. -/
def execFrequencyGateEnd (m : List GateMeas) (outOff : List Int) (s : State) : Out :=
  s.run fun t d =>
    if !atFrame 8000 t then d
    else
      let gm := fun n : Nat => m.getD n ⟨false, 0⟩
      let learned := (d.dpll 0).st == .locked && !(d.dpll 0).frozen && decide (0 < outOff.length)
      let ok := match forcedSlot d with
        | some f => gateValid d f (gm f) && gateValid d d.aon.clk.witness (gm d.aon.clk.witness)
        | none => false
      let d := [0, 1, 2, 3].foldl (fun d n => match outOff[n]? with
        | some o => learn n o (d.modDpll n fun x => if x.st == .acquiring || x.st == .locked then { x with out := o } else x)
        | none => d) d
      let w := d.aon.clk.witness
      let offs := fun (n : Nat) (d : Dev) => if gateValid d n (gm n) then
        d.modSlot n fun x => { x with off := ((gm n).off * 10 - d.fab.clk.ffo) / 10 } else d
      let d0 := match forcedSlot d with | some f => offs w (offs f d) | none => d
      let d := disputeGate ok learned t d0
      let d := (List.range 12).foldl (fun d n => slotGate n (gm n) t d) d
      let d := refreshWitness t d
      d.onClk fun c => { c with gateForced := c.deb.toNat, gateWitness := c.witness }

/-- ESMC_QL_TIMEOUT (13 R313): 5 s without a valid PDU; QL_FAILED counts as DNU. -/
def execEsmcQlTimeout (slot : Nat) (s : State) : Out :=
  s.run fun t d =>
    let eth := (portsOnLane d (d.slotCfg slot).lane).any fun p => match d.port p with
      | some x => isEth x.typ || isFlexe x.typ
      | none => false
    if slot < 12 && slotRecovered (d.slotCfg slot) && eth && decide (tgetD (d.slot slot).times 0x10 0 + sec 5 ≤ t) then
      setSlotQl slot 0xF t (d.modSlot slot fun x => { x with infoQl := none })
    else d

/-! ### DPLLs (13 R315-R322) -/

/-- What R315 or the pins ask of a DPLL. -/
inductive DpllReq where
  | free
  | hold
  | input (n : Option Nat)
deriving DecidableEq, Repr

/-- The order of G.781 for a QL under ssm_set: lower is better (log entry 16). -/
def qlRank (ssm : Nat) (q : BitVec 4) : Nat :=
  let order : List Nat := if ssm = 2 then [0b0001, 0b0000, 0b0111, 0b0100, 0b1101, 0b1010, 0b1100, 0b1110]
    else [0b0010, 0b0100, 0b1000, 0b1011]
  match order.findIdx? (· == q.toNat) with
  | some i => i
  | none => if q = 0xF then 20 else 10

/-- Is an input usable: a qualified slot, or DPLL0's output? -/
def inputOk (d : Dev) (n : Nat) : Bool := n == 0x10 || (decide (n < 12) && (d.slot n).qualified)

/-- The QL of an input. -/
def inputQl (d : Dev) (n : Nat) : BitVec 4 := if n = 0x10 then dpllOwnQl d 0 else slotQl d n

/-- The list of a DPLL as inputs: 0xF is DPLL0's output. -/
def dpllList (c : DpllCfg) : List Nat := c.list.filterMap fun x => x.map fun n => if n = 0xF then 0x10 else n

/-- The input that R315 selects from candidates, the current one kept where revert is clear. -/
def pickInput (c : DpllCfg) (cur : Nat) (better : Nat → Nat → Bool) (cands : List Nat) : Option Nat :=
  if !c.revert && cands.contains cur then some cur
  else match cands with
    | [] => none
    | a :: r => some (r.foldl (fun b n => if better n b then n else b) a)

/-- The request of a DPLL now (13 R314, R315). -/
def dpllReq (d : Dev) (n : Nat) : DpllReq :=
  if n = 0 then
    let v := d.aon.clk.deb.toNat
    if !d.aon.clk.pinSeen then .free
    else if v < 12 then .input (some v) else if v = 12 then .hold else .free
  else
    let c := d.dpllCfg n
    let cands := (dpllList c).filter (inputOk d)
    let cur := (d.dpll n).input
    match c.mode with
    | 0 => .input (dpllList c).head?
    | 1 => .input (pickInput c cur (fun _ _ => false) cands)
    | 2 => .input (pickInput c cur (fun a b => decide (qlRank (ssmSet d) (inputQl d a) < qlRank (ssmSet d) (inputQl d b)))
        (cands.filter fun i => inputQl d i != 0xF))
    | 3 => .input (some 0x10)
    | 4 => .hold
    | _ => .free

/-- The mean of the history in 0.0001 ppm (13 R320). -/
def histMean (x : Dpll) : Int := if x.hist.isEmpty then 0 else x.hist.foldl (· + ·) 0 / x.hist.length

/-- Bandwidth code of an input for a DPLL: 0x0 to 0x4 of CLK_SLOT_CONFIG; 5 for DPLL0's output (13 R316). -/
def inputBw (d : Dev) (n inp : Nat) : Nat := if inp = 0x10 then 5 else (d.slotCfg inp).bw.toNat / 16 ^ n % 16

/-- The lock dwell, 10 ÷ bandwidth, in phase units (13 R316). -/
def dwell (bw : Nat) : Nat :=
  match bw with
  | 0 => sec 1000 | 1 => sec 100 | 2 => sec 10 | 3 => sec 10 / 3 | 4 => sec 1 | _ => ms 100

/-- The output's offset at a time: in FREE_RUN and HOLDOVER it moves by at most 0.1 ppm per second (13 R320). -/
def Dpll.outNow (x : Dpll) (t : Time) : Int :=
  let k : Int := (((t - x.slewAt) * 1000 / sec 1 : Nat) : Int)
  if x.st != .freeRun && x.st != .holdover || decide ((x.out - x.start).natAbs ≤ k.toNat) then x.out
  else if x.start < x.out then x.start + k else x.start - k

/-- A new offset for the output to move to, or to keep the present one. -/
def Dpll.aim (x : Dpll) (target : Option Int) (t : Time) : Dpll :=
  { x with start := x.outNow t, slewAt := t, out := target.getD (x.outNow t) }

/-- A DPLL changes state: state_l and its event. In LOST the output stays at its last offset, that of the last gate while the
DPLL followed an input (DESIGN CHOICE, log entry 91). -/
def dpllTo (n : Nat) (st : DpllSt) (inp : Nat) (t : Time) (d : Dev) (target : Option Int := none) : Dev :=
  let o := (d.dpll n).st
  let d := d.modDpll n fun x => { x.aim target t with st := st, input := inp, entered := t }
  let d := if o = st then d else clkEvent 4 (0x10 + n) (dpllCode st) (dpllCode o) t (clkLatch 22 d)
  if n = 0 then refreshWitness t d else d

/-- Into FREE_RUN; `pin`: at a pin request. DPLL0_FREE_RUN is counted otherwise (13 R328). -/
def toFreeRun (n : Nat) (pin : Bool) (t : Time) (d : Dev) : Dev :=
  if (d.dpll n).st = .freeRun then d
  else
    let d := dpllTo n .freeRun 0x1F t d (some d.fab.clk.ffo)
    if n = 0 && !pin then fault 0x171 0 t d else d

/-- Into HOLDOVER at the history value, or FREE_RUN without a valid history. -/
def toHoldover (n : Nat) (t : Time) (d : Dev) : Dev :=
  if (d.dpll n).st = .holdover then d
  else if histValid (d.dpll n) then dpllTo n .holdover 0x1F t d (some (histMean (d.dpll n)))
  else toFreeRun n false t d

/-- Is build-out on (13 R322)? -/
def buildOutOn (d : Dev) (n : Nat) : Bool := n != 1 || (d.dpllCfg 1).pbo

/-- A build-out: counted, its residual kept (13 R322). -/
def buildOut (n residual : Nat) (t : Time) (d : Dev) : Dev :=
  if buildOutOn d n then
    clkEvent 5 (0x10 + n) residual 0 t (clkLatch 19 (d.modDpll n fun x => { x with buildOuts := x.buildOuts + 1, residual := residual }))
  else d

/-- Into ACQUIRING on an input, with its bandwidth. -/
def acquire (n inp : Nat) (t : Time) (d : Dev) : Dev :=
  dpllTo n .acquiring inp t (d.modDpll n fun x => { x with bw := inputBw d n inp })

/-- The lock criteria (13 R317): phase within ±200 ns, frequency within ±0.05 ppm. -/
def lockMet (m : DpllMeas) : Bool := decide (m.phase.natAbs ≤ 2000) && decide (m.freq.natAbs ≤ 500)

/-- The rows of R317 but the timed ones, in order. -/
def dpllStep (n : Nat) (m : DpllMeas) (t : Time) (d : Dev) : Dev :=
  let x := d.dpll n
  let d := d.modDpll n fun x => { x with phase := m.phase, freq := m.freq }
  if x.st = .lost then d
  else match dpllReq d n with
    | .free => toFreeRun n true t d
    | .hold => toHoldover n t d
    | .input none => if x.st = .acquiring || x.st = .locked then dpllTo n .lost 0x1F t d else d
    | .input (some i) =>
      if !inputOk d i then (if x.st = .acquiring || x.st = .locked then dpllTo n .lost 0x1F t d else d)
      else match x.st with
        | .freeRun => buildOut n m.residual t (acquire n i t d)
        | .holdover => buildOut n m.residual t (acquire n i t d)
        | .acquiring =>
          if i != x.input then acquire n i t (d.modDpll n fun x => { x with residual := if buildOutOn d n then m.residual else x.residual })
          else if lockMet m then d else d.modDpll n fun x => { x with entered := t }
        | .locked =>
          if i != x.input then buildOut n m.residual t (acquire n i t d)
          else if 10000 < m.phase.natAbs then fault 0x172 0 t (dpllTo n .acquiring i t d)
          else d
        | .lost => d

/-- DPLL_EVALUATION (13 R317, R318): once per phase unit. -/
def execDpllEvaluation (n : Nat) (m : DpllMeas) (s : State) : Out :=
  s.run fun t d => if n < 4 then dpllStep n m t d else d

/-- DPLL_LOCK (13 R317): the lock criteria have held for the dwell. -/
def execDpllLock (n : Nat) (s : State) : Out :=
  s.run fun t d =>
    let x := d.dpll n
    if n < 4 && x.st = .acquiring && decide (x.entered + dwell x.bw ≤ t) then dpllTo n .locked x.input t d else d

/-- DPLL_LOST_EXIT (13 R317): phase 0 of the second DFE frame after entry. -/
def execDpllLostExit (n : Nat) (s : State) : Out :=
  s.run fun t d =>
    let x := d.dpll n
    if n < 4 && x.st = .lost && decide ((eOf x.entered + 2) * frame ≤ t) then toHoldover n t d else d

/-- FREEZE_END (13 R324): 60 s after the dispute cleared, learning resumes. -/
def execFreezeEnd (s : State) : Out :=
  s.run fun t d =>
    match d.aon.clk.freezeEnd with
    | none => d
    | some e =>
      if t < e then d
      else clkEvent 8 0x10 0 0 t ((d.modDpll 0 fun x => { x with frozen := false }).onClk fun c => { c with freezeEnd := none })

/-- Is REF_OUT[k] squelched (13 R327)? -/
def refOutSquelched (d : Dev) (k : Nat) : Bool :=
  match tget d.fab.clk.outs k with
  | none => true
  | some o =>
    let st := (d.dpll 1).st
    d.aon.snowdrop || !(st == .locked || (o.hold && st == .holdover))
      || decide (qlRank (ssmSet d) o.ql < qlRank (ssmSet d) (dpllQl d 1))

/-! ### Commands of class 0x08 -/

/-- Bandwidth codes a slot type offers (13 R316). -/
def bwAllowed (typ : Nat) : List Nat :=
  match typ with
  | 1 => [1] | 2 => [1] | 3 => [1, 2] | 4 => [0] | 5 => [2, 3, 4] | 6 => [2] | _ => [0, 1, 2, 3, 4]

/-- May the slot take the type (13 R308)? -/
def typeSuits (n typ : Nat) : Bool := typ == 0 || (decide (n < 4) && decide (typ ≤ 4)) || (decide (4 ≤ n) && decide (5 ≤ typ))

/-- The host sets the QL of slots 0 to 3 and of slots of OTN lanes (13 R313). -/
def hostQl (d : Dev) (n : Nat) (c : SlotCfg) : Bool :=
  decide (n < 4) || d.fab.ports.any fun e => decide (e.2.first ≤ c.lane) && decide (c.lane < e.2.first + max e.2.lanes 1)
    && decide (8 ≤ e.2.typ) && decide (e.2.typ ≤ 0x0D)

def cmdClkSlotConfig : Cmd := {
  code := 0x0801, n := 8, kind := .config, mask := [(4, bitsMask 3 0), (5, anyW - bitsMask 19 16), (6, bitsMask 6 0)]
  enc := fun ws =>
    let w := ws.getD 5 0
    (if fld w 31 28 ≤ 6 then [] else [(5, 31, 28)])
      ++ [3, 2, 1, 0].filterMap fun k => if fld w (4 * k + 3) (4 * k) ≤ 4 then none else some (5, 4 * k + 3, 4 * k)
  chk := fun x _ =>
    let n := fld (x.w 4) 3 0
    let w := x.w 5
    let typ := fld w 31 28
    firstErr ([need (decide (n < 12)) (badArg 4 0), need (typeSuits n typ) (badArg 5 28)]
      ++ [3, 2, 1, 0].map fun k => need ((bwAllowed typ).contains (fld w (4 * k + 3) (4 * k))) (badArg 5 (4 * k)))
  key := fun ws => some (ws.getD 4 0, 0)
  apply := fun c _ t d =>
    let n := fld (c.w 4) 3 0
    let w := c.w 5
    let y : SlotCfg := { typ := fld w 31 28, rank := fld w 27 24, ql := BitVec.ofNat 4 (fld w 23 20)
                         bw := BitVec.ofNat 16 (fld w 15 0), lane := fld (c.w 6) 6 0 }
    let o := d.slotCfg n
    if y = o then d
    else
      let d := d.onClkCfg fun k => { k with slots := tput k.slots n y }
      let d := disqualify n t (d.modSlot n fun x => { x with missing := 0, edges1pps := 0, missInGate := true })
      let d := if y.typ = o.typ then d else slotTime n 1 t d
      let d := if y.rank = o.rank then d else slotTime n 6 t d
      let moved := y.lane != o.lane || y.typ != o.typ
      let d := if hostQl d n y then setSlotQl n y.ql t d
        else if moved then setSlotQl n 0xF t (d.modSlot n fun x => { x with infoQl := none }) else d
      refreshWitness t d }

/-- Entries of a DPLL list (16 R395). -/
def listOf (w : Word) : List (Option Nat) :=
  (octetsOf w).map fun o => if 128 ≤ o.toNat then some (o.toNat % 16) else none

def cmdClkDpllConfig : Cmd := {
  code := 0x0802, n := 8, kind := .config
  mask := [(4, bitsMask 1 0), (5, bitsMask 31 27 + bitsMask 23 20), (6, 0x8F8F8F8F)]
  enc := fun ws =>
    let w := ws.getD 6 0
    (if fld (ws.getD 5 0) 31 29 ≤ 5 then [] else [(5, 31, 29)])
      ++ [3, 2, 1, 0].filterMap fun k =>
        let n := fld w (8 * k + 3) (8 * k)
        if bitAt w (8 * k + 7) && decide (12 ≤ n) && decide (n ≤ 14) then some (6, 8 * k + 3, 8 * k) else none
  chk := fun x _ =>
    if fld (x.w 4) 1 0 = 0 then
      firstErr [need (fld (x.w 5) 31 29 == 0) (badArg 5 29), need (!bitAt (x.w 5) 28) (badArg 5 28),
        need (!bitAt (x.w 5) 27) (badArg 5 27), need (x.w 6 == 0) (badArg 6 0)]
    else none
  key := fun ws => some (ws.getD 4 0, 0)
  apply := fun c _ _ d =>
    let n := fld (c.w 4) 1 0
    let w := c.w 5
    d.onClkCfg fun k => { k with dplls := tmod k.dplls n {} fun x =>
      if n = 0 then { x with ownQl := some (BitVec.ofNat 4 (fld w 23 20)) }
      else { mode := fld w 31 29, revert := bitAt w 28, pbo := bitAt w 27
             ownQl := some (BitVec.ofNat 4 (fld w 23 20)), list := listOf (c.w 6) } } }

def cmdClkOutConfig : Cmd := {
  code := 0x0803, n := 8, kind := .config, mask := [(4, 1), (5, bitsMask 7 0)]
  enc := fun ws => let f := fld (ws.getD 5 0) 2 0; if 1 ≤ f ∧ f ≤ 6 then [] else [(5, 2, 0)]
  key := fun ws => some (ws.getD 4 0, 0)
  apply := fun c _ _ d =>
    let w := c.w 5
    let o : OutCfg := { freq := fld w 2 0, hold := bitAt w 3, ql := BitVec.ofNat 4 (fld w 7 4) }
    d.onClkCfg fun k => { k with outs := tput k.outs (fld (c.w 4) 0 0) o } }

def cmdClkHistoryReset : Cmd := {
  code := 0x0804, n := 8, kind := .config, mask := [(4, bitsMask 1 0)]
  apply := fun c _ _ d =>
    let n := fld (c.w 4) 1 0
    let d := if n = 0 then d.onClk fun k => { k with runIdx := [] } else d
    d.modDpll n fun x => { x with hist := [], learned := 0 } }

def cmdClkDeviceConfig : Cmd := {
  code := 0x0805, n := 8, kind := .config
  mask := [(4, bitsMask 19 0), (5, bitsMask 31 30 + bitsMask 6 0), (6, bitsMask 15 0)]
  enc := fun ws => let f := fld (ws.getD 5 0) 31 30; if f = 1 ∨ f = 2 then [] else [(5, 31, 30)]
  chk := fun x _ =>
    let xc := fld (x.w 5) 6 0
    firstErr [need (decide ((signed 20 (fld (x.w 4) 19 0)).natAbs ≤ 500000)) (badArg 4 0),
      need (decide (1 ≤ xc) && decide (xc ≤ 90)) (badArg 5 0)]
  key := fun _ => some (0, 0)
  apply := fun c _ t d =>
    let ffo := signed 20 (fld (c.w 4) 19 0)
    let d := [0, 1, 2, 3].foldl (fun d n => d.modDpll n fun x => if x.st == .freeRun then x.aim (some ffo) t else x) d
    d.onClkCfg fun k => { k with
      ffo := ffo, ssm := some (fld (c.w 5) 31 30), xcheck := fld (c.w 5) 6 0
      txDpll := BitVec.ofNat 16 (fld (c.w 6) 15 0) } }

/-- Status items of a slot (13 R328): each value with the time of its last change. -/
def slotItems (d : Dev) (n : Nat) : List Word :=
  let x := d.slot n
  let c := d.slotCfg n
  let it := fun (k : Nat) (v : Word) => item k n (v :: timeWords (tgetD x.times k 0))
  it 1 (wd c.typ) ++ it 2 (wd (b2n x.qualified)) ++ it 3 (wd x.soak) ++ it 4 (wd (unsigned 32 x.off))
    ++ it 5 (wd x.ql.toNat) ++ it 6 (wd c.rank)

/-- Status items of a DPLL (13 R328). -/
def dpllItems (d : Dev) (n : Nat) : List Word :=
  let x := d.dpll n
  item 7 n [wd (dpllCode x.st)] ++ item 8 n [wd x.input] ++ item 9 n [wd (unsigned 32 x.phase)]
    ++ item 10 n [wd (b2n (histValid x) * 2 ^ 31 + x.hist.length)] ++ item 11 n [wd (unsigned 32 (histMean x))]
    ++ item 12 n (flagWord x.frozen) ++ item 13 n (flagWord (n == 0 && d.aon.clk.dispute))
    ++ item 14 n [wd (if n = 0 then d.aon.clk.witness else 0x1F)] ++ item 15 n (cntWords x.buildOuts.toNat)
    ++ item 16 n [wd x.residual]

def cmdClkStatusGet : Cmd := {
  code := 0x0806, n := 8, kind := .query, vf := true, i2c := true
  perm := fun _ _ => false
  run := fun _ d => { dev := d, items := (List.range 12).flatMap (slotItems d) ++ [0, 1, 2, 3].flatMap (dpllItems d) } }

end Sys2Proof.Machine
end

