-- ==== Sys2Proof/Machine/Measures.lean ====
section
/-!
DEFINITION. The values behind the wide-value windows (17 R407).
-/
namespace Sys2Proof.Machine

/-- Objects of each PM class (10 R245). -/
def objCount (cls : Nat) : Nat :=
  match cls with
  | 1 => 128
  | 2 => 1280
  | 3 => 1280
  | 0x0B => 32
  | 0x0C => 8
  | _ => 131072

/-- A rail's value (17 R407, class 0x20). -/
def railValue (r : RailSample) : Nat := r.mv % 65536 * 2 ^ 48 + r.ma10 % 65536 * 2 ^ 32

/-- The value that an index names at a time; none where the index names none (17 R407). -/
def wideValue (d : Dev) (t : Time) (ix : Nat) : Option Nat :=
  let cls := ix / 2 ^ 24
  let it := ix % 2 ^ 24
  if 1 ≤ cls ∧ cls ≤ 0x0C then
    if it / 128 < objCount cls then some (tgetD d.fab.pm.run ix 0).toNat else none
  else match cls with
    | 0x00 => match it with
      | 0 => some (time55 t)
      | 1 => some d.aon.lateWrite.toNat
      | 2 => some d.aon.lockViolation.toNat
      | 3 => some d.aon.cfgMismatch.toNat
      | 4 => some (eOf t)
      | _ => none
    | 0x20 => if it < 16 then some (railValue (d.aon.sense.rails.getD it ⟨0, 0⟩)) else none
    | 0x21 => if it < 64 then some (d.aon.sense.temps.getD it 0).toNat else none
    | 0x22 => if it < 64 then some ((tgetD d.aon.wear it {}).wear % 2 ^ 40) else none
    | 0x30 => if it < 12 then some (unsigned 64 (d.slot it).off)
        else if 0x10 ≤ it ∧ it < 0x14 then some (unsigned 64 (d.dpll (it - 0x10)).phase) else none
    | _ => none

end Sys2Proof.Machine
end

