-- ==== Sys2Proof/Machine/Pm.lean ====
section
/-!
DEFINITION. Performance monitoring: failures, seconds, degrade, bins, thresholds and the signed ledger, with the
commands of class 0x07 (10 R234, R241-R254; 16 R395).
-/
namespace Sys2Proof.Machine

/-! ### Failures (10 R241) -/

/-- The raised defects of a layer that a bit number names. -/
def defsOfBit (d : Dev) (k bit : Nat) : List Def := (d.layer k).defs.filter fun x => defBit k x == bit

/-- The time of a bit's last change: the latest of its defects. -/
def bitTime (d : Dev) (k bit : Nat) : Time :=
  ((d.layer k).chg.filter fun e => defBit k e.1 == bit).foldl (fun a e => max a e.2) 0

/-- The owner's notification and record of a failure (10 R241). -/
def noteFailure (k bit sub : Nat) (t : Time) (d : Dev) : Dev :=
  let fc := (tgetD d.fab.pm.run (k + 0x06) 0).toNat
  noteRecord (ownerOfObj d k) 0x01 k 0x02 sub (unitOfObj d k) t [wd k, wd bit, wd fc, 0] d

/-- FAILURE_DECLARE (10 R241): a defect that R233 does not suppress, raised for 2.5 s. Far-end defects count FE_FC. -/
def execFailureDeclare (x : FailureId) (s : State) : Out :=
  s.run (gFw fun t d =>
    let xs := defsOfBit d x.layer x.bit
    let l := d.layer x.layer
    let far := decide (3 ≤ keyCls x.layer) && xs.any fun y => y == .msRdi || y == .oduBdi || y == .vcRdi || y == .mtnRdi
    let ok := !xs.isEmpty && !(l.ssf && xs.all contentDef) && !xs.all (portSuppressed d x.layer)
      && decide (bitTime d x.layer x.bit + 20000 * frame ≤ t) && !l.fails.contains x.bit
    if ok then
      let d := d.modLayer x.layer fun l => { l with fails := l.fails ++ [x.bit] }
      noteFailure x.layer x.bit 0x01 t (addCnt x.layer (if far then 0x16 else 0x06) 1 d)
    else d)

/-- FAILURE_CLEAR (10 R241): the defect has been clear for 10 s. -/
def execFailureClear (x : FailureId) (s : State) : Out :=
  s.run (gFw fun t d =>
    let ok := (d.layer x.layer).fails.contains x.bit && (defsOfBit d x.layer x.bit).isEmpty
      && decide (bitTime d x.layer x.bit + 80000 * frame ≤ t)
    if ok then noteFailure x.layer x.bit 0x02 t (d.modLayer x.layer fun l => { l with fails := sdel l.fails x.bit }) else d)

/-! ### Bins (10 R247-R251) -/

/-- Saturation of a bin value. -/
def satBin (n : Nat) : Nat := min n (2 ^ 40 - 1)

/-- Adds to a bin's value. -/
def Bin.add (b : Bin) (num n : Nat) : Bin := { b with vals := tput b.vals num (satBin (tgetD b.vals num 0 + n)) }

/-- The threshold-crossing check of a counter (10 R251): once per bin. -/
def checkTca (ix : Nat) (t : Time) (d : Dev) : Dev :=
  match tget d.fab.fw.tca ix with
  | none => d
  | some th =>
    let k := ix - ix % 128
    let v := tgetD (tgetD d.fab.pm.cur15 k {}).vals (ix % 128) 0
    if th.toNat ≤ v ∧ !d.fab.pm.fired.contains ix then
      noteRecord (ownerOfObj d k) 0x02 ix 0x09 0 (unitOfObj d k) t [wd ix, wd (v / 2 ^ 32), wd (v % 2 ^ 32), 0]
        (d.onPm fun p => { p with fired := p.fired ++ [ix] })
    else d

/-- Folds the increase of one running counter into the current bins. -/
def foldOne (ix : Nat) (t : Time) (d : Dev) : Dev :=
  let run := tgetD d.fab.pm.run ix 0
  let n := (run - tgetD d.fab.pm.folded ix 0).toNat
  if n = 0 then d
  else
    let k := ix - ix % 128
    checkTca ix t (d.onPm fun p => { p with
      folded := tput p.folded ix run
      cur15 := tmod p.cur15 k {} fun b => b.add (ix % 128) n
      cur24 := tmod p.cur24 k {} fun b => b.add (ix % 128) n })

/-- Folds every running counter into the current bins (10 R248). -/
def foldAll (t : Time) (d : Dev) : Dev := (d.fab.pm.run.map (·.1)).foldl (fun d ix => foldOne ix t d) d

/-- The number of the 15-minute period that a frame count lies in, from the epoch. -/
def periodOf (d : Dev) (e : Nat) : Nat := (e - d.fab.fw.epochE) / 7200000

/-- Adds a committed count to the running counter and to the bins of the second in which it occurred (10 R244). -/
def commitCnt (k num n second : Nat) (t : Time) (d : Dev) : Dev :=
  if n = 0 then d
  else
    let ix := k + num
    let p0 := periodOf d (second * 8000)
    let p1 := periodOf d (eOf t)
    let d := d.onPm fun p => { p with
      run := tput p.run ix (tgetD p.run ix 0 + BitVec.ofNat 40 n)
      folded := tput p.folded ix (tgetD p.folded ix 0 + BitVec.ofNat 40 n) }
    let d := if p0 = p1 then
        d.onPm fun p => { p with cur15 := tmod p.cur15 k {} fun b => b.add num n }
      else
        d.onPm fun p => { p with hist15 := tupd p.hist15 k fun l => l.modify (p1 - p0 - 1) fun b => b.add num n }
    let d := if p0 / 96 = p1 / 96 then
        d.onPm fun p => { p with cur24 := tmod p.cur24 k {} fun b => b.add num n }
      else
        d.onPm fun p => { p with prev24 := tupd p.prev24 k fun b => b.add num n }
    checkTca ix t d

/-! ### Seconds (10 R243, R244) -/

/-- The classification of the second that ends. -/
def Layer.classify (l : Layer) (num : Nat) : SecClass :=
  let near30 := decide (0 < l.usable) && decide (3 * l.usable ≤ 10 * l.eb)
  let far30 := decide (0 < l.usable) && decide (3 * l.usable ≤ 10 * l.feb)
  let ses := l.defSec || near30
  let fses := l.feDefSec || far30
  { num := num, es := l.defSec || decide (0 < l.eb), ses := ses, bbe := if ses then 0 else l.eb
    feEval := !l.defSec, fes := l.feDefSec || decide (0 < l.feb), fses := fses, fbbe := if fses then 0 else l.feb }

/-- Ends a layer's second: it is classified and held, and the next begins. -/
def Layer.endSecond (l : Layer) (num : Nat) : Layer :=
  { l with held := l.held ++ [l.classify num], blk := 0, usable := 0, eb := 0, feb := 0, bits := 0
           defSec := l.failing, feDefSec := l.defs.any isFarDef }

/-- A PM flush, at each fold (DEDUCED, log entry 90): poison_out and discard of W30 count anew (07 R173), and running
firmware clears the underrun status of the FIFOs (08 R198). -/
def pmFlush (t : Time) (d : Dev) : Dev :=
  let d := d.onFab fun f => { f with tribs := tmap f.tribs fun _ x => { x with poisonOut := 0, discard := 0 } }
  gFw (fun _ d => d.onFab fun f => { f with fifos := tmap f.fifos fun _ q => { q with underrun := false } }) t d

/-- PM_SECOND_END (10 R243, R248): at each E that is a multiple of 8,000. -/
def execPmSecondEnd (s : State) : Out :=
  s.run (gRun fun t d =>
    if !atFrame 8000 t then d
    else
      let num := secOf t - 1
      pmFlush t (foldAll t (d.onFab fun f => { f with layers := tmap f.layers fun _ l => l.endSecond num })))

/-- Unavailable time at the oldest held second, from ten consecutive ones (10 R244). -/
def availStep (unav : Bool) (ses : List Bool) : Bool :=
  if unav then !(ses.all fun b => !b) else ses.all fun b => b

/-- Commits the oldest held second of a layer, once ten are held (10 R244). -/
def commitLayer (k : Nat) (t : Time) (d : Dev) : Dev :=
  let l := d.layer k
  match l.held with
  | [] => d
  | c :: r =>
    if l.held.length < 10 then d
    else
      let w := l.held.take 10
      let un := availStep l.unavail (w.map (·.ses))
      let fun_ := availStep l.fUnavail (w.map fun x => x.feEval && x.fses)
      let d := d.modLayer k fun l => { l with held := r, unavail := un, fUnavail := fun_ }
      let d := if un then commitCnt k 0x05 1 c.num t d
        else commitCnt k 0x02 c.bbe c.num t (commitCnt k 0x04 (b2n c.ses) c.num t (commitCnt k 0x03 (b2n c.es) c.num t d))
      if keyCls k < 3 || !c.feEval then d
      else if fun_ then commitCnt k 0x15 1 c.num t d
      else commitCnt k 0x12 c.fbbe c.num t (commitCnt k 0x14 (b2n c.fses) c.num t (commitCnt k 0x13 (b2n c.fes) c.num t d))

/-- PM_SECOND_COMMIT (10 R244). -/
def execPmSecondCommit (s : State) : Out :=
  s.run (gRun fun t d => (d.fab.layers.map (·.1)).foldl (fun d k => commitLayer k t d) d)

/-! ### Degrade (10 R234) -/

/-- The degrade defect of a layer by its class and the objects' types. -/
def degDef (d : Dev) (k : Nat) : Option Def :=
  match keyCls k with
  | 2 => match d.port (keyNum k) with
    | some p => if 0x08 ≤ p.typ ∧ p.typ ≤ 0x0D then some .smDeg else none
    | none => none
  | 3 => some .msDeg
  | 4 => match d.trib (keyNum k) with
    | some x => if isVc x.typ then some .vcDeg else if isOdu x.typ then some .oduDeg
        else if x.typ = 0x2B then some .mtnDeg else none
    | none => none
  | _ => some .oduDeg

/-- AUG-1 count of an STM port type: 1, 4, 16, 64, 256. -/
def stmN (typ : Nat) : Nat := if typ = 0 ∨ 5 < typ then 0 else 4 ^ (typ - 1)

/-- The B2 mismatch count that MS_EXC compares with: covered bits of 1 s × 10^−x (10 R234; 09 R224). -/
def excLimit (n x : Nat) : Nat := n * 2403 * 8 * 8000 / 10 ^ x

/-- The DEG runs of a layer at the end of an interval. -/
def degRuns (k : Nat) (t : Time) (d : Dev) : Dev :=
  let l := d.layer k
  if l.degFail then d
  else
    let bad := decide (l.degThr ≤ l.degEb)
    let b := if bad then l.degBad + 1 else 0
    let g := if bad then 0 else l.degGood + 1
    let d := d.modLayer k fun l => { l with degBad := b, degGood := g }
    match degDef d k with
    | none => d
    | some x =>
      let d := if l.degM ≤ b then setDef k x true t d else d
      if l.degM ≤ g then setDef k x false t d else d

/-- MS_EXC of an SDH port (10 R234). -/
def excRuns (k : Nat) (t : Time) (d : Dev) : Dev :=
  if keyCls k != 3 then d
  else
    match d.port (keyNum k) with
    | none => d
    | some p =>
      let l := d.layer k
      let lim := excLimit (stmN p.typ) p.sdh.mseX
      let good := if 10 * l.degBits < lim then l.excGood + 1 else 0
      let d := d.modLayer k fun l => { l with excGood := good }
      let d := if lim < l.degBits then setDef k .msExc true t d else d
      if 10 ≤ good then setDef k .msExc false t d else d

/-- DEGRADE_INTERVAL_END (10 R234): every layer's interval is judged, and the next begins. -/
def execDegradeIntervalEnd (s : State) : Out :=
  s.run (gRun fun t d =>
    if !atFrame 8000 t then d
    else (d.fab.layers.map (·.1)).foldl (fun d k =>
      let d := excRuns k t (degRuns k t d)
      d.modLayer k fun l => { l with degEb := 0, degBits := 0, degUsable := 0, degFail := l.failing }) d)

/-! ### Bin boundaries and the ledger (10 R249-R254) -/

/-- Closes the current bins: 15-minute bins, and at a 24-hour boundary the 24-hour bins (10 R249, R250). -/
def closeBins (day : Bool) (t : Time) (d : Dev) : Dev :=
  let d := foldAll t d
  let ks := d.fab.layers.map (·.1)
  let touch := fun p : Pm => ks.foldl (fun p k => { p with cur15 := tmod p.cur15 k {} id, cur24 := tmod p.cur24 k {} id }) p
  let un := fun k : Nat => if (d.layer k).unavail then (2#3 : BitVec 3) else 0
  let dg := cfgDigest d
  d.onPm fun p =>
    let p := touch p
    { p with
      hist15 := p.cur15.foldl (fun h e =>
        tput h e.1 (({ e.2 with flags := e.2.flags ||| un e.1 } :: tgetD h e.1 []).take 32)) p.hist15
      prev24 := if day then tmap p.cur24 fun k b => { b with flags := b.flags ||| un k } else p.prev24
      cur15 := [], cur24 := if day then [] else p.cur24
      closed := p.cur15.map (·.1), fired := [], digest := dg }

/-- Is the frame a 15-minute boundary (10 R249)? -/
def isBinBoundary (d : Dev) (t : Time) : Bool :=
  decide (d.fab.fw.epochE < eOf t) && (eOf t - d.fab.fw.epochE) % 7200000 == 0

/-- PM_BIN_BOUNDARY (10 R249, R250). -/
def execPmBinBoundary (s : State) : Out :=
  s.run (gRun fun t d =>
    if isBinBoundary d t then closeBins ((eOf t - d.fab.fw.epochE) % 691200000 == 0) t d else d)

/-- The counters that R246 defines for an object's class and type. -/
def countersOf (d : Dev) (k : Nat) : List Nat :=
  let base := [0, 1, 2, 3, 4, 5, 6, 7, 8]
  let far := [0x11, 0x12, 0x13, 0x14, 0x15, 0x16, 0x18]
  let pkt := [0x40, 0x41, 0x42, 0x43, 0x44, 0x45, 0x46, 0x47]
  match keyCls k with
  | 1 => [0x60, 0x61, 0x69, 0x70, 0x71]
  | 2 => match d.port (keyNum k) with
    | none => base
    | some p =>
      if p.typ ≤ 5 then base
      else if p.typ ≤ 0x0C then base ++ [0x30, 0x31, 0x32, 0x33, 0x34, 0x35]
      else if p.typ = 0x0D then base ++ [0x30, 0x31, 0x32, 0x33, 0x34, 0x35, 0x63]
      else if p.typ ≤ 0x16 then base ++ [0x30, 0x31, 0x32, 0x33, 0x34, 0x35] ++ pkt ++ [0x68]
      else base ++ [0x30, 0x31, 0x32, 0x33, 0x34, 0x35, 0x62]
  | 3 => base ++ far ++ [0x67]
  | 4 => match d.trib (keyNum k) with
    | none => base ++ far
    | some x =>
      base ++ far ++ (if isVc x.typ then [0x20, 0x21, 0x22, 0x23, 0x24, 0x25] else []) ++ [0x26]
        ++ (if x.method = 3 then [0x27, 0x28, 0x29] else [])
        ++ (if x.typ = 0x29 then pkt ++ [0x48, 0x49, 0x4A, 0x4B, 0x4C] else [])
        ++ [0x50, 0x51, 0x52, 0x53, 0x54, 0x55]
        ++ (if x.typ = 0x2A ∨ x.typ = 0x2B then [0x64, 0x65, 0x66] else [])
        ++ (if x.typ = 0x28 then [0x68] else [])
  | 0x0B => [0x72]
  | 0x0C => [0x72, 0x78, 0x79]
  | _ => base ++ far

/-- One entry of the bin serialisation (10 R253). -/
def binEntry (d : Dev) (k kind : Nat) (b : Bin) : List Octet :=
  let cs := countersOf d k
  natBe 4 k ++ natBe 1 kind ++ natBe 1 (b.flags.toNat % 4) ++ natBe 2 cs.length
    ++ cs.flatMap fun c => natBe 5 (tgetD b.vals c 0)

/-- The entries of the bins that closed at the last boundary. -/
def binEntries (d : Dev) (day : Bool) : List (List Octet) :=
  d.fab.pm.closed.flatMap fun k =>
    (match (tgetD d.fab.pm.hist15 k []).head? with | some b => [binEntry d k 1 b] | none => [])
      ++ (if day then match tget d.fab.pm.prev24 k with | some b => [binEntry d k 2 b] | none => [] else [])

/-- The anchor: octets 0 to 143 of the latest record, then its signature (log entry 6). -/
def anchorOctets (m : List (Nat × Octet)) : List Octet := flashRead m ledgerAddr 208

/-- The anchored record, if its signature verifies. -/
def anchored (m : List (Nat × Octet)) : Option (List Octet) :=
  let o := anchorOctets m
  if beNat (o.take 4) = 0x4C504D31 ∧ Config.verifySig Config.devicePub (o.drop 144) (sha256 (o.take 144)) = true then some o
  else none

/-- record_seq of the next record, and the hash of the one before it (10 R254). -/
def ledgerPrev (d : Dev) : Nat × List Octet :=
  match d.fab.fw.ledger.getLast? with
  | some r => (r.seq + 1, sha256 (r.octets.take 144))
  | none =>
    match anchored d.aon.flash.mem with
    | some o => (beNat ((o.drop 8).take 8) + 1, sha256 (o.take 144))
    | none => (0, List.replicate 32 0)

/-- The record for boundary `b`, by R252. -/
def ledgerOctets (d : Dev) (b : Nat) : List Octet :=
  let day := (b - d.fab.fw.epochE) % 691200000 == 0
  let es := binEntries d day
  let heads := d.fab.pm.closed.filterMap fun k => (tgetD d.fab.pm.hist15 k []).head?
  let flags := b2n d.fab.fw.ledger.isEmpty + 2 * b2n d.fab.fw.epochChanged
    + 4 * b2n (heads.any fun x => x.flags.getLsbD 0) + 8 * b2n (heads.any fun x => x.flags.getLsbD 2)
    + 16 * b2n (d.fab.fw.utc == 0)
  let pr := ledgerPrev d
  let head := natBe 4 0x4C504D31 ++ natBe 2 1 ++ natBe 2 flags ++ natBe 8 pr.1 ++ natBe 8 (b % 2 ^ 40)
    ++ natBe 8 d.fab.fw.epochSfn.toNat
    ++ natBe 8 (if d.fab.fw.utc = 0 then 0 else d.fab.fw.utc.toNat + (b - d.fab.fw.epochE) / 8000)
    ++ natBe 4 es.length ++ natBe 4 d.aon.bootCount ++ d.fab.pm.digest ++ sha256 es.flatten ++ pr.2
  head ++ Config.sign head

/-- LEDGER_RECORD_BUILD (10 R252-R254): 10 s after a boundary. -/
def execLedgerRecordBuild (s : State) : Out :=
  s.run (gFw fun t d =>
    let el := eOf t - d.fab.fw.epochE
    if decide (d.fab.fw.epochE + 7200000 < eOf t) && el % 7200000 == 80000 then
      let b := eOf t - 80000
      let o := ledgerOctets d b
      let r : LedgerRec := ⟨(ledgerPrev d).1, o⟩
      let d := d.onFw fun f => { f with ledger := (f.ledger ++ [r]).drop (f.ledger.length + 1 - 96), epochChanged := false }
      (d.onPd fun p => { p with crypto := true, cryptoAt := t }).onFlash fun m => flashProgram m ledgerAddr 4096 o
    else d)

/-! ### Commands of class 0x07 -/

/-- Is a layer index one of an object that exists? -/
def layerExists (d : Dev) (k : Nat) : Bool := (tget d.fab.layers k).isSome

/-- The object that a layer index names. -/
def objOfKey (k : Nat) : Obj :=
  match keyCls k with
  | 1 => .lane (keyNum k)
  | 2 => .port (keyNum k)
  | 3 => .port (keyNum k)
  | 0x0B => .dev
  | 0x0C => .dev
  | _ => .trib (keyNum k)

/-- Does an index name an object within its class (10 R245)? -/
def indexOk (k : Nat) : Bool := decide (1 ≤ keyCls k) && decide (keyCls k ≤ 0x0C) && decide (k / 128 % 2 ^ 17 < objCount (keyCls k))

/-- The epoch frame count that PM_EPOCH_SET's SFN resolves to under R39 at acceptance. -/
def epochOf (sfn : BitVec 40) (t : Time) : Nat :=
  if sfn = sfnOf t ∨ (sfn - sfnOf t).toNat ≤ 2 ^ 39 then eOf t + (sfn - sfnOf t).toNat
  else eOf t - (2 ^ 40 - (sfn - sfnOf t).toNat)

def epochSfnOf (w : Nat → Word) : BitVec 40 := BitVec.ofNat 40 (fld (w 4) 7 0 * 2 ^ 32 + (w 5).toNat)

def cmdPmEpochSet : Cmd := {
  code := 0x0701, n := 8, kind := .config, vf := true
  mask := [(4, bitsMask 7 0), (5, anyW), (6, anyW), (7, anyW)]
  perm := fun _ _ => false
  chk := fun x _ => need (epochOf (epochSfnOf x.w) x.t % 8000 == 0) (badArg 4 0)
  key := fun _ => some (0, 0)
  apply := fun c _ t d =>
    let d := closeBins true t d
    let d := d.onPm fun p => { p with
      hist15 := tmap p.hist15 fun _ l => match l with | b :: r => { b with flags := b.flags ||| 1 } :: r | [] => []
      prev24 := tmap p.prev24 fun _ b => { b with flags := b.flags ||| 1 } }
    d.onFw fun f => { f with
      epochE := epochOf (epochSfnOf c.w) c.accepted, epochSfn := epochSfnOf c.w
      utc := BitVec.ofNat 64 ((c.w 6).toNat * 2 ^ 32 + (c.w 7).toNat), epochChanged := true } }

/-- Reported words of a bin: flags, then each counter (10 R250; log entry 15). -/
def binItems (d : Dev) (k : Nat) (b : Bin) : List Word :=
  item 1 0 [wd b.flags.toNat] ++ (countersOf d k).flatMap fun c => item 2 c (cntWords (tgetD b.vals c 0))

/-- The bin that PM_BIN_GET names. -/
def binAt (d : Dev) (k kind age : Nat) : Option Bin :=
  if kind = 1 then
    if age = 0 then some (tgetD d.fab.pm.cur15 k {}) else (tgetD d.fab.pm.hist15 k [])[age - 1]?
  else if age = 0 then some (tgetD d.fab.pm.cur24 k {}) else if age = 1 then tget d.fab.pm.prev24 k else none

def cmdPmBinGet : Cmd := {
  code := 0x0702, n := 8, kind := .query, vf := true, i2c := true
  mask := [(4, anyW), (5, bitsMask 31 24 + bitsMask 5 0)]
  enc := fun ws => let w := ws.getD 5 0
    classEnc ws ++ if fld w 31 24 = 1 ∨ fld w 31 24 = 2 then
      (if fld w 5 0 ≤ (if fld w 31 24 = 1 then 32 else 1) then [] else [(5, 5, 0)])
    else [(5, 31, 24)]
  perm := fun x d => ownerOfObj d (x.w 4).toNat == x.m
  chk := fun x d => firstErr [
    need ((x.w 4).toNat % 128 == 0 && indexOk (x.w 4).toNat) (badArg 4 0),
    need (binAt d (x.w 4).toNat (fld (x.w 5) 31 24) (fld (x.w 5) 5 0)).isSome (badArg 5 0)]
  run := fun x d =>
    let k := (x.w 4).toNat
    { dev := d, items := binItems d k ((binAt d k (fld (x.w 5) 31 24) (fld (x.w 5) 5 0)).getD {}) } }

def cmdPmTcaSet : Cmd := {
  code := 0x0703, n := 8, kind := .config, vf := true
  mask := [(4, anyW), (5, bitsMask 7 0), (6, anyW)]
  enc := classEnc
  perm := fun x d => ownerOfObj d ((x.w 4).toNat - (x.w 4).toNat % 128) == x.m
  chk := fun x _ => need (indexOk ((x.w 4).toNat - (x.w 4).toNat % 128)) (badArg 4 0)
  obj := fun x _ => objOfKey (x.w 4).toNat
  key := fun ws => some (ws.getD 4 0, 0)
  apply := fun c _ t d =>
    let ix := (c.w 4).toNat
    let th := fld (c.w 5) 7 0 * 2 ^ 32 + (c.w 6).toNat
    if th = 0 then d.onFw fun f => { f with tca := tdel f.tca ix }
    else checkTca ix t (d.onFw fun f => { f with tca := tput f.tca ix (BitVec.ofNat 40 th) }) }

def cmdPmLedgerGet : Cmd := {
  code := 0x0704, n := 8, kind := .query, vf := true, i2c := true
  mask := [(4, anyW), (5, anyW), (6, bitsMask 6 0)]
  enc := fun ws => if 1 ≤ fld (ws.getD 6 0) 6 0 ∧ fld (ws.getD 6 0) 6 0 ≤ 96 then [] else [(6, 6, 0)]
  perm := fun _ _ => false
  run := fun x d =>
    let a := (x.w 4).toNat * 2 ^ 32 + (x.w 5).toNat
    let n := fld (x.w 6) 6 0
    { dev := d
      items := (d.fab.fw.ledger.filter fun r => decide (a ≤ r.seq) && decide (r.seq < a + n)).flatMap fun r =>
        item 1 (r.seq - a) (packWords r.octets) } }

def cmdDefectConfig : Cmd := {
  code := 0x0705, n := 8, kind := .config, vf := true
  mask := [(4, anyW), (5, bitsMask 31 27 + bitsMask 19 16), (6, anyW)]
  enc := classEnc
  perm := fun x d => ownerOfObj d (x.w 4).toNat == x.m
  chk := fun x d => firstErr [
    need ((x.w 4).toNat % 128 == 0 && decide (2 ≤ keyCls (x.w 4).toNat) && layerExists d (x.w 4).toNat) (badArg 4 0),
    need (decide (2 ≤ fld (x.w 5) 19 16) && decide (fld (x.w 5) 19 16 ≤ 10)) (badArg 5 16),
    need (decide (1 ≤ (x.w 6).toNat) && decide ((x.w 6).toNat ≤ 2 ^ 31)) (badArg 6 0)]
  obj := fun x _ => objOfKey (x.w 4).toNat
  key := fun ws => some (ws.getD 4 0, 0)
  apply := fun c _ t d =>
    let w := c.w 5
    refresh t (d.modLayer (c.w 4).toNat fun l => { l with
      timAct := some (bitAt w 31), plmAct := bitAt w 30, timMode := fld w 29 28, erdi := bitAt w 27
      degM := fld w 19 16, degThr := (c.w 6).toNat }) }

end Sys2Proof.Machine
end

