-- ==== Sys2Proof/Machine/Ports.lean ====
section
/-!
DEFINITION. Ports in general: types, rates and lane sets, the partner record, loss of signal, and creation and deletion
(03 R54-R63, R73, R80, R477; 04 R82; 05 R113, R114; 06 R143, R149).
-/
namespace Sys2Proof.Machine

/-! ### Types and rates -/

/-- Is a code one of R393? -/
def portTypeOk (typ : Nat) : Bool := isSdh typ || isOtn typ || isEth typ || isFlexe typ

/-- Data rate D of a lane rate code in Gb/s, 0 where the rate carries no 64B/66B data (03 R54). -/
def dataRate (rate : Nat) : Nat :=
  match rate with | 0 => 10 | 1 => 25 | 2 => 25 | 3 => 50 | 4 => 100 | 6 => 200 | _ => 0

/-- The lane counts and rate codes of a native Ethernet port (06 R143). -/
def ethLaneSets (typ : Nat) : List (Nat × Nat) :=
  match typ with
  | 0x10 => [(1, 0)]
  | 0x11 => [(1, 1)]
  | 0x12 => [(1, 3)]
  | 0x13 => [(4, 1), (2, 3), (1, 4)]
  | 0x14 => [(8, 2), (4, 3), (2, 4), (1, 6)]
  | 0x15 => [(8, 3), (4, 4), (2, 6)]
  | 0x16 => [(8, 4), (4, 6)]
  | _ => []

/-- MAC rate of a native Ethernet port in Gb/s. -/
def macGbps (typ : Nat) : Nat :=
  match typ with
  | 0x10 => 10 | 0x11 => 25 | 0x12 => 50 | 0x13 => 100 | 0x14 => 200 | 0x15 => 400 | 0x16 => 800 | _ => 0

/-- The PHY rate of a FlexE group or MTN section whose PHYs have the lanes and rate given (06 R149; 03 R54). -/
def phyGbps (lanes rate : Nat) : Nat :=
  if rate = 2 then 0
  else if (ethLaneSets 0x14).contains (lanes, rate) then 200
  else if (ethLaneSets 0x15).contains (lanes, rate) then 400
  else 0

/-- n of an OTUCn from its lanes (05 R114); 0 where they suit none. -/
def otucN (lanes rate : Nat) : Nat :=
  if rate = 5 then lanes else if rate = 7 ∧ lanes ≤ 4 then 2 * lanes else 0

/-- The instances of each PHY: 2 for 200G, 4 for 400G (06 R149). -/
def phyInstances (g : Nat) : Nat := if g = 400 then 4 else 2

/-- Rate code of a port's lanes. -/
def portRate (d : Dev) (x : Port) : Nat := (d.lane x.first).cfg.rate

/-- n of an OTUCn port. -/
def portN (d : Dev) (x : Port) : Nat := otucN x.lanes (portRate d x)

/-- The client bit rate that R63 counts, in kb/s. -/
def countedKbps (typ lanes phys rate : Nat) : Nat :=
  if lanes = 0 then lineKbps typ
  else if typ = 0x0D then otucN lanes rate * 105258138
  else if isFlexe typ then phys * phyGbps (lanes / phys) rate * 1000000
  else macGbps typ * 1000000

/-- Calendar slots of a FlexE group or MTN section (06 R149). -/
def flexeSlots (d : Dev) (x : Port) : Nat := x.phys * phyInstances (phyGbps (x.lanes / x.phys) (portRate d x)) * 20

/-! ### Partner record (03 R80, R477) -/

/-- A value of the partner record as it stands. -/
def partnerOf (x : Port) (item inst : Nat) : Option Partner := x.partner.find? fun p => p.item == item && p.inst == inst

/-- Takes up a partner value; a change writes the Partner record and notifies the port's owner (03 R80; 16 R389). -/
def setPartner (p item inst : Nat) (ws : List Word) (t : Time) (d : Dev) : Dev :=
  match d.port p with
  | none => d
  | some x =>
    let same := match partnerOf x item inst with | some y => y.valid && y.ws == ws | none => false
    if same then d
    else
      let d := d.modPort p fun x => { x with
        partner := x.partner.filter (fun y => !(y.item == item && y.inst == inst)) ++ [⟨item, inst, true, ws, t⟩] }
      noteRecord x.owner 0x03 (portWord p) 0x08 item (unitOfLg (lgOfPort d p)) t
        (wd (inst * 65536 + portWord p) :: (pad 3 ws).take 3) d

/-! ### FlexE overhead and calendars (06 R151, R152) -/

/-- The PHY map of a group: bit n of 256 for PHY number n, first in the most significant bit of octet 0 (log entry 25). -/
def phyMap (phys : List Octet) : List Octet :=
  (List.range 32).map fun o => BitVec.ofNat 8
    (phys.foldl (fun a p => if p.toNat / 8 = o then a ||| 2 ^ (7 - p.toNat % 8) else a) 0)

/-- Transmitted calendar of a FlexE port in use. -/
def txCal (x : FlexePort) : List Nat := if x.bankB then x.calB else x.calA

/-- Slots of a client in a calendar. -/
def slotsOf (c : Nat) (cal : List Nat) : List Nat := (List.range cal.length).filter fun k => cal.getD k 0 == c

/-! ### Creation and deletion (03 R62) -/

/-- Layers a port has (10 R242, R245). -/
def portLayers (typ p : Nat) : List Nat := if isSdh typ then [secKey p, lineKey p] else [secKey p]

/-- A new port (03 R62; 04 R83, R86; 05 R117): its layers are new, and its framer starts in OOF. -/
def newPort (p : Nat) (x : Port) (t : Time) (d : Dev) : Dev :=
  let g := lgOfLane x.first
  let st := (tgetD d.fab.pd.groups g {}).st
  let d := d.onPd fun q => { q with groups := tput q.groups g ⟨if st = .off then .waking else if st = .idle then .on else st,
    if st = .off then t else (tgetD q.groups g {}).since⟩ }
  let d := d.onFab fun f => { f with ports := tput f.ports p { x with rxF := ⟨0, t, t⟩, txF := ⟨0, t, t⟩ } }
  let d := (portLayers x.typ p).foldl (fun d k => d.onFab fun f => { f with layers := tput f.layers k {} }) d
  let d := suspectBins (portLayers x.typ p) d
  let d := if isSdh x.typ || isOtn x.typ then portOof p t d else d
  refreshLos p t d

/-- A deleted port leaves nothing; its group, with its last port gone, waits to be powered down (03 R58). -/
def dropPort (p : Nat) (t : Time) (d : Dev) : Dev :=
  match d.port p with
  | none => d
  | some x =>
    let g := lgOfLane x.first
    let d := suspectBins (portLayers x.typ p) d
    let d := d.onFab fun f => { f with
      ports := tdel f.ports p, feeds := f.feeds.filter fun e => e.1 != .port p && e.2 != .port p
      layers := f.layers.filter fun e => !(portLayers x.typ p).contains e.1 }
    if groupBusy d g then d
    else d.onPd fun q => { q with
      freed := tput q.freed g t, groups := if groupOn d g then tput q.groups g ⟨.idle, t⟩ else q.groups }

end Sys2Proof.Machine
end

