-- ==== Sys2Proof/Machine/CmdPorts.lean ====
section
/-!
DEFINITION. Commands of class 0x02 about lanes and ports in general: LANE_CONFIG, PORT_CREATE, PORT_DELETE,
LANE_STATUS_GET, PORT_STATUS_GET (03 R54-R63, R76-R81; 10 R235; 16 R395).
-/
namespace Sys2Proof.Machine

/-- The port that W4 names. -/
def Ctx.port (x : Ctx) : Nat := portOfWord (x.w 4).toNat
def Change.port (c : Change) : Nat := portOfWord (c.w 4).toNat

/-- Mask of a port word, a lane word and a T word. -/
def portMask : Nat := bitsMask 11 11 + bitsMask 9 0
def laneMask : Nat := bitsMask 6 0
def tMask : Nat := bitsMask 16 0

/-- The field codes and source codes of R394; the others are reserved. -/
def ohEnc (ws : List Word) : List (Nat × Nat × Nat) :=
  let w := ws.getD 5 0
  let f := fld w 31 24
  (if f ≤ 7 ∨ (0x10 ≤ f ∧ f ≤ 0x17) ∨ f = 0x20 ∨ f = 0x21 then [] else [(5, 31, 24)])
    ++ (if fld w 23 20 ≤ 3 then [] else [(5, 23, 20)])

/-- The sender owns the port of W4. -/
def ownsPort (x : Ctx) (d : Dev) : Bool := match d.port x.port with | some p => p.owner == x.m | none => false

/-- The check that the port of W4 exists. -/
def portExists (x : Ctx) (d : Dev) : Option Err := need (d.port x.port).isSome (badArg 4 0)

/-! ### LANE_CONFIG -/

/-- The configuration that a LANE_CONFIG carries (16 R395). -/
def laneCfgOf (w5 w6 : Word) : LaneCfg := {
  set := true, enable := bitAt w5 31, rxInv := bitAt w5 30, txInv := bitAt w5 29, rate := fld w5 28 26
  an := bitAt w5 25, train := bitAt w5 24, preset := fld w5 23 20, rs528 := bitAt w5 19, ilf := bitAt w5 18
  copper := bitAt w5 17, sourceId := BitVec.ofNat 8 (fld w5 15 8), lFixed := fld w6 31 16, alpha := fld w6 15 0 }

/-- Does a lane carry a port other than a native Ethernet port? -/
def carriesOther (d : Dev) (l : Nat) : Bool :=
  d.fab.ports.any fun e => portHasLane e.2 l && !(isEth e.2.typ && e.2.lanes != 0)

/-- The distinct rates of the enabled lanes of a group with lane `l` under a new configuration (03 R55). -/
def groupRates (d : Dev) (l : Nat) (c : LaneCfg) : List Nat :=
  (((List.range 8).map fun j => 8 * lgOfLane l + j).filterMap fun k =>
    let y := if k = l then c else (d.lane k).cfg
    if y.enable then some y.rate else none).eraseDups

/-- A lane takes a configuration (03 R56, R57): disabling it takes it down, and a change of rate, format or polarity
restarts acquisition. -/
def applyLane (l : Nat) (c : LaneCfg) (t : Time) (d : Dev) : Dev :=
  let o := (d.lane l).cfg
  let d := d.modLane l fun x => { x with cfg := c }
  if !c.enable then (if (d.lane l).st = .down then d else laneTo l .down t d)
  else if !groupOn d (lgOfLane l) then d
  else if (d.lane l).st = .down || o.rate != c.rate || o.ilf != c.ilf || o.rxInv != c.rxInv || o.txInv != c.txInv then
    laneTo l .cdrAcq t d
  else d

/-- LANE_CONFIG. Where R56, R59 and R67 give a CONFLICT no detail, it is 0 (DESIGN CHOICE, log entry 60). -/
def cmdLaneConfig : Cmd := {
  code := 0x0201, n := 8, kind := .config, vf := true
  mask := [(4, laneMask), (5, bitsMask 31 17 + bitsMask 15 8), (6, anyW), (7, anyW)]
  perm := fun x d => (d.lane (laneOfWord (x.w 4))).owner == x.m
  chk := fun x d =>
    let l := laneOfWord (x.w 4)
    let c := laneCfgOf (x.w 5) (x.w 6)
    let o := (d.lane l).cfg
    let bad := fun b : Bool => if b then badArg 5 25 else badArg 5 24
    firstErr [
      need (!((c.an || c.train) && (c.ilf || carriesOther d l))) (bad c.an),
      need (!(c.train && decide (5 ≤ c.rate))) (badArg 5 24),
      need (!(c.ilf && dataRate c.rate == 0)) (badArg 5 18),
      need ((portsOnLane d l).isEmpty || (o.rate == c.rate && o.ilf == c.ilf)) ⟨rcConflict, 0⟩,
      need (!c.enable || decide ((groupRates d l c).length ≤ 2)) (noResource 7)]
  obj := fun x _ => .lane (laneOfWord (x.w 4))
  key := fun ws => some (ws.getD 4 0, 0)
  apply := fun c _ t d =>
    let l := laneOfWord (c.w 4)
    let g := lgOfLane l
    let w := c.w 7
    let mp := fun m : MpIn => { m with scale := fld w 31 16, threshold := fld w 15 0 }
    let d := d.onFab fun f => { f with mps := tmod (tmod f.mps (2 * g) {} mp) (2 * g + 1) {} mp }
    applyLane l (laneCfgOf (c.w 5) (c.w 6)) t d }

/-! ### PORT_CREATE -/

/-- What a PORT_CREATE names. -/
structure PortReq where
  p : Nat
  typ : Nat
  lanes : Nat
  phys : Nat
  first : Nat
  mask : BitVec 16
deriving DecidableEq, Repr

def portReq (w : Nat → Word) : PortReq :=
  ⟨portOfWord (w 4).toNat, fld (w 5) 31 24, fld (w 5) 23 20, fld (w 5) 19 16, fld (w 5) 6 0, BitVec.ofNat 16 (fld (w 6) 15 0)⟩

/-- Lanes of a request. -/
def PortReq.laneList (r : PortReq) : List Nat := (List.range (max r.lanes 1)).map fun i => r.first + i

/-- Does the port number lie in the range of its lowest lane (03 R59)? -/
def PortReq.inRange (r : PortReq) : Bool :=
  if r.first < 64 then r.p / 16 == r.first && decide (r.p < 1024)
  else decide (1024 ≤ r.p) && (r.p - 1024) / 4 == r.first - 64

/-- Does the lane set suit the type (03 R60; 05 R114; 06 R143, R149)? -/
def suits (d : Dev) (r : PortReq) : Bool :=
  let rate := (d.lane r.first).cfg.rate
  if r.lanes = 0 then lineKbps r.typ != 0
  else if r.typ = 0x0D then otucN r.lanes rate != 0
  else if isEth r.typ then (ethLaneSets r.typ).contains (r.lanes, rate)
  else if isFlexe r.typ then
    decide (1 ≤ r.phys) && decide (r.phys ≤ 8) && r.lanes % r.phys == 0 &&
      (let g := phyGbps (r.lanes / r.phys) rate
       g == 200 || (g == 400 && decide (r.phys ≤ 4)))
  else false

/-- Enough slots for the rate (03 R67): k × D × 1,023 ÷ 16,384 against rate × 1.0002. -/
def slotsEnough (d : Dev) (r : PortReq) : Bool :=
  decide (lineKbps r.typ * 10002 * 16384 ≤ (maskSlots r.mask).length * dataRate (d.lane r.first).cfg.rate * 1000000 * 1023 * 10000)

/-- Client rate carried by a port processor, in kb/s (03 R63). -/
def groupKbps (d : Dev) (g : Nat) : Nat :=
  ((d.fab.ports.filter fun e => lgOfLane e.2.first == g).map fun e =>
    countedKbps e.2.typ e.2.lanes e.2.phys (portRate d e.2)).foldl (· + ·) 0

/-- Items 5 to 7 of R380 for PORT_CREATE; the details of CONFLICT as LANE_CONFIG has them (log entry 60). -/
def portCreateErr (x : Ctx) (d : Dev) : Option Err :=
  let r := portReq x.w
  let ls := r.laneList
  let rate := (d.lane r.first).cfg.rate
  firstErr [
    need r.inRange (badArg 4 0),
    need (isEth r.typ || isFlexe r.typ || r.typ == 0x0D || r.lanes == 0) (badArg 5 20),
    need (r.lanes == 0 || r.first % r.lanes == 0) (badArg 5 0),
    need (ls.all fun l => (d.lane l).cfg.set) (badArg 5 0),
    need (ls.all fun l => (d.lane l).cfg.rate == rate && (d.lane l).cfg.ilf == (r.lanes == 0)) (badArg 5 0),
    need (suits d r) (badArg 5 20),
    need (r.lanes == 0 || ls.all fun l => (portsOnLane d l).isEmpty) (badArg 5 0),
    need (isEth r.typ && r.lanes != 0 || ls.all fun l => !(d.lane l).cfg.an && !(d.lane l).cfg.train) (badArg 5 0),
    need (r.lanes != 0 || slotsEnough d r) (badArg 6 0),
    need ((d.port r.p).isNone && !d.fab.fw.changes.any fun c => c.code == 0x0202#16 && c.obj == .port r.p) ⟨rcConflict, 0⟩,
    need (r.lanes != 0 || (ilfPorts d r.first).all fun e => e.2.mask &&& r.mask == 0) ⟨rcConflict, 0⟩,
    need (decide (groupKbps d (lgOfLane r.first) + countedKbps r.typ r.lanes r.phys rate ≤ 1600000000)) (noResource 6)]

def cmdPortCreate : Cmd := {
  code := 0x0202, n := 8, kind := .config, vf := true
  mask := [(4, portMask), (5, bitsMask 31 16 + bitsMask 6 0), (6, bitsMask 15 0)]
  enc := fun ws =>
    (if portTypeOk (fld (ws.getD 5 0) 31 24) then [] else [(5, 31, 24)])
      ++ (if [0, 1, 2, 4, 8].contains (fld (ws.getD 5 0) 23 20) then [] else [(5, 23, 20)])
  perm := fun x d => (portReq x.w).laneList.all fun l => (d.lane l).owner == x.m
  chk := portCreateErr
  obj := fun x _ => .port x.port
  key := fun ws => some (ws.getD 4 0, 0)
  apply := fun c _ t d =>
    let r := portReq c.w
    let x : Port := { typ := r.typ, first := r.first, lanes := r.lanes, mask := r.mask, phys := r.phys, owner := c.sender, created := t }
    let x := { x with
      rxF := { start := t }, txF := { start := t }
      sdh := { aug := List.replicate (stmN r.typ) 0, augTx := List.replicate (stmN r.typ) 0, augTime := t } }
    newPort r.p x t d }

/-! ### PORT_DELETE -/

/-- The lowest group a port is a member of, and the lowest T it carries (03 R62): of the first-level tributaries
(DESIGN CHOICE, log entry 59). -/
def groupOfPort (d : Dev) (p : Nat) : Option Nat := groupOf d (.port p)
def tribOfPort (d : Dev) (p : Nat) : Option Nat := (d.fab.tribs.find? fun e => e.2.port == some p).map (·.1)

def cmdPortDelete : Cmd := {
  code := 0x0203, n := 8, kind := .config, vf := true, mask := [(4, portMask)]
  perm := ownsPort
  chk := fun x d => firstErr [
    portExists x d,
    (groupOfPort d x.port).map fun g => ⟨rcConflict, g⟩,
    (tribOfPort d x.port).map fun t => ⟨rcConflict, t⟩]
  obj := fun x _ => .port x.port
  drop := fun ws e =>
    let w := ws.getD 4 0
    let c := e.code.toNat
    e.obj == w && (c == 0x0202 || c == 0x0209 || c == 0x0210 || c == 0x0211 || c == 0x0212 || c == 0x0213 || c == 0x0215
      || c == 0x0220 || c == 0x0221 || c == 0x0222)
  apply := fun c _ t d => dropPort c.port t d }

/-! ### Status queries -/

/-- A value with its time (03 R81). -/
def timed (w : Word) (t : Time) : List Word := w :: timeWords t

/-- The cable length in 0.1 m, where it is valid (03 R78): (IL − L_fixed) ÷ α with α in 0.01 dB/m, rounded down (DESIGN
CHOICE, log entry 58). -/
def cableLen (l : Lane) : Option Nat :=
  if l.cfg.copper && l.ilValid && !l.ilRange && l.cfg.alpha != 0 && decide (l.cfg.lFixed ≤ l.il) then
    some ((l.il - l.cfg.lFixed) * 100 / l.cfg.alpha)
  else none

/-- Power of a module-power input in mW (03 R79): the 1 s mean times the scale in 0.01 mW,
rounded down to the mW that the item holds. -/
def mpPower (m : MpIn) : Nat := m.last * m.scale / 10000

/-- Item 4 of R81 for an input; the power reads with the time of its 1 s window. -/
def mpItem (d : Dev) (k : Nat) : List Word :=
  let m := tgetD d.fab.mps k {}
  let v := decide (0 < m.meanTime)
  item 4 k (timed (if v then wd (2 ^ 31 + b2n m.present * 2 ^ 30 + mpPower m % 2 ^ 24) else 0) m.meanTime)

def cmdLaneStatusGet : Cmd := {
  code := 0x0204, n := 8, kind := .query, vf := true, i2c := true, mask := [(4, laneMask)]
  perm := fun x d => (d.lane (laneOfWord (x.w 4))).owner == x.m
  run := fun x d =>
    let n := laneOfWord (x.w 4)
    let l := d.lane n
    let st := match l.st with | .down => 0 | .cdrAcq => 1 | .an => 2 | .training => 3 | .up => 4
    let g := lgOfLane n
    { dev := d
      items := item 1 0 (timed (wd (st + 256 * b2n l.los)) (max l.stTime l.losTime))
        ++ item 2 0 (timed (if l.ilValid then wd (2 ^ 31 + b2n l.ilRange * 2 ^ 30 + l.il) else 0) l.ilTime)
        ++ item 3 0 (timed (match cableLen l with | some n => wd (2 ^ 31 + n % 65536) | none => 0) l.ilTime)
        ++ mpItem d (2 * g) ++ mpItem d (2 * g + 1) } }

/-- The status of a layer: its defect word, with one time for each set or once-changed defect (10 R235; log entry 14). -/
def layerItems (d : Dev) (base k : Nat) : List Word :=
  let l := d.layer k
  item base 0 [wd (layerBits k l)]
    ++ (l.chg.filter fun e => !(l.chg.any fun f => defBit k f.1 == defBit k e.1 && decide (e.2 < f.2))).flatMap (fun e =>
      item (base + 1) (defBit k e.1) (timeWords e.2))
    ++ item (base + 2) 31 (timeWords l.ssfTime) ++ item (base + 2) 11 (timeWords l.flagTime)

def cmdPortStatusGet : Cmd := {
  code := 0x0205, n := 8, kind := .query, vf := true, i2c := true, mask := [(4, portMask)]
  perm := ownsPort, chk := portExists
  run := fun x d =>
    let p := x.port
    { dev := d
      items := layerItems d 1 (secKey p) ++ (match d.port p with
        | some y => if isSdh y.typ then layerItems d 4 (lineKey p) else []
        | none => []) } }

end Sys2Proof.Machine
end

