-- ==== Sys2Proof/Machine/LaneEvents.lean ====
section
/-!
DEFINITION. Lane events: the lane state machine, insertion loss, module power and presence, lane-group power
(03 R57, R58, R75-R79; 14 R332).
-/
namespace Sys2Proof.Machine

/-- The native Ethernet port on a lane: auto-negotiation and training take place there only (03 R57). -/
def nativeEthOn (d : Dev) (l : Nat) : Option Nat :=
  (d.fab.ports.find? fun e => portHasLane e.2 l && isEth e.2.typ && e.2.lanes != 0).map (·.1)

/-- The state after CDR lock and, where it ran, auto-negotiation. -/
def afterAn (d : Dev) (l : Nat) : LaneSt :=
  if (d.lane l).cfg.train && (nativeEthOn d l).isSome then .training else .up

/-- CDR_LOCK (03 R57): signal detected and CDR locked for 1 ms. -/
def execCdrLock (lane : Nat) (s : State) : Out :=
  s.run (gFab fun t d =>
    let x := d.lane lane
    if x.st = .cdrAcq && decide (x.acq + ms 1 ≤ t) then
      laneTo lane (if x.cfg.an && (nativeEthOn d lane).isSome then .an else afterAn d lane) t d
    else d)

/-- CDR_RETRY (03 R57): no lock within 100 ms. -/
def execCdrRetry (lane : Nat) (s : State) : Out :=
  s.run (gFab fun t d =>
    let x := d.lane lane
    if x.st = .cdrAcq && decide (x.acq + ms 100 ≤ t) then
      addCnt (laneKey lane) 0x70 1 (d.modLane lane fun y => { y with acq := t })
    else d)

/-- AN_COMPLETE (03 R57, R75): the resolved technology is accepted only if it is the port's configured type, and the
partner's abilities are then recorded; otherwise AN_MISMATCH is raised. -/
def execAnComplete (lane : Nat) (r : AnResult) (s : State) : Out :=
  s.run (gFab fun t d =>
    let x := d.lane lane
    if x.st != .an || x.anMismatch then d
    else if (match nativeEthOn d lane with
        | some p => (match d.port p with | some y => y.typ == r.typ | none => false)
        | none => false) then
      let d := match nativeEthOn d lane with
        | some p => setPartner p 1 2 [r.resolved] t (setPartner p 1 1 [r.fec] t (setPartner p 1 0 [r.tech] t d))
        | none => d
      laneTo lane (afterAn d lane) t d
    else d.modLane lane fun y => { y with anMismatch := true, acq := t })

/-- AN_RESTART (03 R57): auto-negotiation restarts 1 s after AN_MISMATCH. -/
def execAnRestart (lane : Nat) (s : State) : Out :=
  s.run (gFab fun t d =>
    let x := d.lane lane
    if x.st = .an && x.anMismatch && decide (x.acq + sec 1 ≤ t) then
      d.modLane lane fun y => { y with anMismatch := false, acq := t }
    else d)

/-- TRAINING_COMPLETE (03 R57, R76): the results are recorded, and the lane is UP. -/
def execTrainingComplete (lane : Nat) (r : Word) (s : State) : Out :=
  s.run (gFab fun t d =>
    if (d.lane lane).st != .training then d
    else
      let d := match nativeEthOn d lane with
        | some p => setPartner p 2 (lane - (match d.port p with | some y => y.first | none => 0)) [r] t d
        | none => d
      laneTo lane .up t d)

/-- TRAIN_FAIL (03 R57): the clause timer expires. -/
def execTrainFail (lane : Nat) (s : State) : Out :=
  s.run (gFab fun t d =>
    if (d.lane lane).st = .training then addCnt (laneKey lane) 0x71 1 (laneTo lane .cdrAcq t d) else d)

/-- LANE_SIGNAL_LOSS (03 R57; 13 R309, R312): no signal for 64 µs, or the CDR unlocks. -/
def execLaneSignalLoss (lane : Nat) (s : State) : Out :=
  s.run (gFab fun t d => if (d.lane lane).st = .up then laneTo lane .cdrAcq t d else d)

/-- LANE_GROUP_POWER_DOWN (03 R58; 14 R332): at the first octet boundary 1 s after the group's last port is deleted. -/
def execLaneGroupPowerDown (g : Nat) (s : State) : Out :=
  s.run (gFw fun t d =>
    let x := tgetD d.fab.pd.groups g {}
    if isOctet t && decide (g < 16) && x.st = .idle && !groupBusy d g && decide (tgetD d.fab.pd.freed g 0 + sec 1 ≤ t) then
      let d := d.onPd fun p => { p with groups := tput p.groups g ⟨.off, t⟩ }
      (List.range 8).foldl (fun d j =>
        if (d.lane (8 * g + j)).st = .down then d else laneTo (8 * g + j) .down t d) d
    else d)

/-- LANE_GROUP_POWER_UP (14 R332): 8 DFE frames after the decision; enabled lanes then acquire under R57. -/
def execLaneGroupPowerUp (g : Nat) (s : State) : Out :=
  s.run (gFab fun t d =>
    let x := tgetD d.fab.pd.groups g {}
    if decide (g < 16) && x.st = .waking && decide (x.since + 8 * frame ≤ t) then groupStart g t d else d)

/-- IL_ESTIMATE_REFRESH (03 R77): at a gate end, for each lane in UP; outside 5.0 to 40.0 dB the value saturates. -/
def execIlEstimateRefresh (il : List IlSample) (s : State) : Out :=
  s.run (gFab fun t d =>
    if !atFrame 8000 t then d
    else il.foldl (fun d x =>
      if (d.lane x.lane).st = .up then
        d.modLane x.lane fun l => { l with
          ilValid := true, ilRange := decide (x.il < 50) || decide (400 < x.il), il := min (max x.il 50) 400, ilTime := t }
      else d) d)

/-- The side of the threshold, in mW, that a sample is on at a scale in 0.01 mW (03 R79). -/
def MpIn.sideOf (m : MpIn) (v : Nat) : Option Bool :=
  if m.threshold * 100 < v * m.scale then some true
  else if v * m.scale < m.threshold * 100 then some false
  else none

/-- One 10 ms sample of a module-power input; 100 of them make the 1 s mean (03 R79). -/
def MpIn.sample (m : MpIn) (v : Nat) (t : Time) : MpIn :=
  let v := v % 1024
  let m := if m.sideOf v = m.side then m else { m with side := m.sideOf v, sideAt := t }
  if m.count + 1 = 100 then { m with sum := 0, count := 0, last := m.sum + v, meanTime := t }
  else { m with sum := m.sum + v, count := m.count + 1 }

/-- MPSENSE_SAMPLE (03 R79): every 10 ms, 32 inputs. -/
def execMpsenseSample (v : List Nat) (s : State) : Out :=
  s.run (gFab fun t d =>
    if !atFrame 80 t then d
    else (List.range 32).foldl (fun d k =>
      match v[k]? with
      | some x => d.onFab fun f => { f with mps := tmod f.mps k {} fun m => m.sample x t }
      | none => d) d)

/-- MODULE_PRESENCE_CHANGE (03 R79): the power has stayed for 100 ms on the other side of the threshold. -/
def execModulePresenceChange (input : Nat) (s : State) : Out :=
  s.run (gFab fun t d =>
    let m := tgetD d.fab.mps input {}
    if 32 ≤ input || m.side != some (!m.present) || decide (t < m.sideAt + 800 * frame) then d
    else d.onFab fun f => { f with mps := tput f.mps input { m with present := !m.present, presTime := t } })

end Sys2Proof.Machine
end

