-- ==== Sys2Proof/Machine/Ilf.lean ====
section
/-!
DEFINITION. The interleaved lane format: marker blocks, alignment, delivery and the transmitted marker block
(03 R64-R74).
-/
namespace Sys2Proof.Machine

/-- The alignment words (03 R68). -/
def ilfAlign0 : Word := 0x3B7CE491
def ilfAlign1 : Word := 0xC4831B6E

/-- CRC-32 over words 2 to 14 (03 R68). -/
def ilfCrc (ws : List Word) : Word := wd (crcOctets crcIlf (octetsOfWords ((ws.drop 2).take 13)))

def ilfAligned (ws : List Word) : Bool := ws.getD 0 0 == ilfAlign0 && ws.getD 1 0 == ilfAlign1
def ilfCrcOk (ws : List Word) : Bool := ws.length == 16 && ws.getD 15 0 == ilfCrc ws

/-- The slot map of a marker block, one octet per slot. -/
def ilfMap (ws : List Word) : List Octet := octetsOfWords ((ws.drop 3).take 4)

/-- The data counts of a marker block, one per sub-port. -/
def ilfCm (ws : List Word) : List Nat := ((ws.drop 7).take 8).flatMap fun w => [fld w 29 16, fld w 13 0]

/-! ### Payload positions (03 R65, R69) -/

/-- Position `j` of `total` carries data when the count is `cm` (03 R69). -/
def ilfData (cm total j : Nat) : Bool := decide (j * cm % total < cm)

/-- The payload positions of a set of slots, in order: position p belongs to slot p mod 16 (03 R65). -/
def slotWords {α : Type} (slots : List Nat) (ws : List α) : List α :=
  (ws.zipIdx).filterMap fun e => if slots.contains (e.2 % 16) then some e.1 else none

/-- The words at the data positions; stuff words are discarded (03 R69). -/
def takeData {α : Type} (cm total : Nat) (ws : List α) : List α :=
  (ws.zipIdx 1).filterMap fun e => if ilfData cm total e.2 then some e.1 else none

/-- The payload of a period as received: a control block is two words of 0, poisoned (03 R64). -/
def periodWords (mk : IlfMarker) (ctl : List Nat) : List (Word × Bool) :=
  (mk.payload.zipIdx).map fun e => if ctl.contains ((e.2 + 16) / 2) then (0, true) else (e.1, false)

/-- The marker block as received. -/
def markerWords (mk : IlfMarker) (ctl : List Nat) : List Word :=
  (mk.words.zipIdx).map fun e => if ctl.contains (e.2 / 2) then 0 else e.1

/-- The delivery of one period to the configured sub-ports (03 R69, R72-R74): the words at their data positions, as lane
words, poisoned or not. A sub-port whose slot set differs gets nothing. -/
def ilfDeliver (d : Dev) (l : Nat) (r : IlfRx) (pay : List (Word × Bool)) (bad : List Nat) (allBad : Bool) :
    List (Nat × List LaneWord) :=
  (ilfPorts d l).filterMap fun e =>
    let s := subOf e.1 e.2
    let slots := maskSlots e.2.mask
    if mapMismatch r s e.2 then none
    else some (s, (takeData (r.cm.getD s 0) (slots.length * 1023) (slotWords slots pay)).map fun w =>
      lw tagData w.1 (w.2 || allBad || bad.contains s))

/-- Slots marked used for a sub-port index that has no configured port (03 R73). -/
def unconfSlots (d : Dev) (l : Nat) (m : List Octet) : Nat :=
  let subs := (ilfPorts d l).map fun e => subOf e.1 e.2
  (m.filter fun o => decide (128 ≤ o.toNat) && !subs.contains (o.toNat % 16)).length

/-- A period that the receiver delivers as good (03 R71, R73, R74). A sub-port whose count exceeds its positions keeps
the count and the map of the last valid block. -/
def ilfGood (l : Nat) (ws : List Word) (pay : List (Word × Bool)) (t : Time) (d : Dev) : Dev :=
  let r := (d.lane l).rx
  let src := BitVec.ofNat 8 (fld (ws.getD 2 0) 23 16)
  let cm := ilfCm ws
  let bad := ((ilfPorts d l).filter fun e => decide ((maskSlots e.2.mask).length * 1023 < cm.getD (subOf e.1 e.2) 0)).map
    fun e => subOf e.1 e.2
  let cm' := (List.range 16).map fun s => if bad.contains s then r.cm.getD s 0 else cm.getD s 0
  let held := bad.foldl (fun h s => tput h s (tgetD r.held s r.map)) []
  let r := { r with
    st := .sync, valid := 0, crcRun := 0, absent := 0, loa := false, map := ilfMap ws, held := held, cm := cm', sourceId := src
    ctlAt := [] }
  let d := d.modLane l fun x => { x with rx := { r with out := ilfDeliver d l r pay bad false } }
  let d := addCnt (laneKey l) 0x61 bad.length (addCnt (laneKey l) 0x69 (unconfSlots d l (ilfMap ws)) d)
  let d := (ilfPorts d l).foldl (fun d e => setPartner e.1 3 0 [wd src.toNat] t d) d
  lanePorts l t d

/-- A period that fails its CRC in SYNC (03 R72, R73): the last valid map and counts, every word poisoned. -/
def ilfBad (l absent : Nat) (pay : List (Word × Bool)) (d : Dev) : Dev :=
  let r := { (d.lane l).rx with absent := absent, ctlAt := [] }
  addCnt (laneKey l) 0x69 (unconfSlots d l r.map)
    (addCnt (laneKey l) 0x60 1 (d.modLane l fun x => { x with rx := { r with out := ilfDeliver d l r pay [] true } }))

/-- Back to HUNT. -/
def ilfHunt (l : Nat) (loa : Bool) (t : Time) (d : Dev) : Dev :=
  lanePorts l t (d.modLane l fun x => { x with rx := { x.rx with
    st := .hunt, valid := 0, crcRun := 0, absent := 0, loa := x.rx.loa || loa, out := [], ctlAt := [] } })

/-- Does the lane receive an ILF stream? -/
def ilfLive (d : Dev) (l : Nat) : Bool := (d.lane l).st == .up && (d.lane l).cfg.ilf

/-- ILF_ALIGNMENT_FOUND (03 R71). -/
def execIlfAlignmentFound (lane : Nat) (s : State) : Out :=
  s.run (gFab fun _ d =>
    if ilfLive d lane && (d.lane lane).rx.st == .hunt then
      d.modLane lane fun x => { x with rx := { x.rx with st := .presync, valid := 0, crcRun := 0 } }
    else d)

/-- ILF_MARKER_PERIOD (03 R71-R74). -/
def execIlfMarkerPeriod (lane : Nat) (mk : IlfMarker) (s : State) : Out :=
  s.run (gFab fun t d =>
    if !ilfLive d lane then d
    else
      let r := (d.lane lane).rx
      let ws := markerWords mk r.ctlAt
      let pay := periodWords mk r.ctlAt
      let r := { r with ctlAt := [] }
      match r.st with
      | .hunt => d.modLane lane fun x => { x with rx := r }
      | .presync =>
        if !ilfAligned ws then ilfHunt lane false t d
        else if ilfCrcOk ws then
          if r.valid = 1 then ilfGood lane ws pay t d
          else d.modLane lane fun x => { x with rx := { r with valid := 1, crcRun := 0 } }
        else
          let d := addCnt (laneKey lane) 0x60 1 d
          if r.crcRun = 3 then ilfHunt lane false t d
          else d.modLane lane fun x => { x with rx := { r with valid := 0, crcRun := r.crcRun + 1 } }
      | .sync =>
        if !ilfAligned ws then
          if r.absent = 3 then ilfHunt lane true t d else ilfBad lane (r.absent + 1) pay d
        else if ilfCrcOk ws then ilfGood lane ws pay t d
        else ilfBad lane 0 pay d)

/-- ILF_CONTROL_BLOCK (03 R64): counted; its block of the period is delivered as two words of 0 with poison, with the
rest of the period at ILF_MARKER_PERIOD. -/
def execIlfControlBlock (b : IlfControl) (s : State) : Out :=
  s.run (gFab fun _ d =>
    if ilfLive d b.lane then d.modLane b.lane fun x =>
      { x with rx := { x.rx with ctl := x.rx.ctl + 1, ctlAt := sadd x.rx.ctlAt (b.blk % 8192) } } else d)

/-! ### Transmission (03 R68, R70) -/

/-- The words that a sub-port sends in a period and the bits carried forward, of the bits gathered (03 R70): whole words,
at most the port's positions. A squelched sub-port sends none, and its bits are dropped (DESIGN CHOICE, log entry 63). -/
def ilfGather (x : Port) (bits : List Bool) : List Word × List Bool :=
  if x.tx = .squelch then ([], [])
  else
    let c := min (bits.length / 32) ((maskSlots x.mask).length * 1023)
    ((List.range c).map fun i => wd (bitsNat ((bits.drop (32 * i)).take 32)), bits.drop (32 * c))

/-- Words at a sub-port's positions j = 1 to `total`: data where R69 says so, else stuff words of 0. -/
def ilfSpread (cm total : Nat) : Nat → Nat → List Word → List Word
  | 0, _, _ => []
  | n + 1, j, ws =>
    if ilfData cm total j then ws.headD 0 :: ilfSpread cm total n (j + 1) (ws.drop 1)
    else 0 :: ilfSpread cm total n (j + 1) ws

/-- The payload of a period from the words at each sub-port's positions (03 R65); other slots carry words of 0. -/
def ilfPayload (subs : List (List Nat × List Word)) : List Word :=
  (List.range 16368).map fun p =>
    match subs.find? fun e => e.1.contains (p % 16) with
    | some e => e.2.getD (p / 16 * e.1.length + (e.1.findIdx fun i => i == p % 16)) 0
    | none => 0

/-- The marker block sent (03 R68): its counts by sub-port. -/
def ilfMarkerOf (d : Dev) (l : Nat) (period : Octet) (cm : Nat → Nat) : List Word :=
  let slot := fun i : Nat => match (ilfPorts d l).find? fun e => e.2.mask.getLsbD i with
    | some e => 128 + subOf e.1 e.2
    | none => 0
  let w2 := wd (period.toNat * 2 ^ 24 + (d.lane l).cfg.sourceId.toNat * 2 ^ 16)
  let maps := (List.range 4).map fun k => wd (slot (4 * k) * 2 ^ 24 + slot (4 * k + 1) * 2 ^ 16 + slot (4 * k + 2) * 2 ^ 8 + slot (4 * k + 3))
  let cms := (List.range 8).map fun k => wd (cm (2 * k) * 2 ^ 16 + cm (2 * k + 1))
  let ws := [ilfAlign0, ilfAlign1, w2] ++ maps ++ cms
  ws ++ [ilfCrc ws]

/-- ILF_TX_MARKER (03 R62, R65, R68-R70): the marker block and the payload of the period that begins, from the bits of
each sub-port's line bit stream gathered since the previous one; the slot map is the one in force. -/
def execIlfTxMarker (lane : Nat) (bits : List (Nat × List Bool)) (s : State) : Out :=
  s.run (gFab fun _ d =>
    let x := d.lane lane
    if !(x.cfg.enable && x.cfg.ilf) || x.st == .down then d
    else
      let got := fun k : Nat => (bits.filter fun e => e.1 == k).flatMap (·.2)
      let subs := (ilfPorts d lane).map fun e =>
        let k := subOf e.1 e.2
        (k, maskSlots e.2.mask, ilfGather e.2 (tgetD x.tx.carry k [] ++ got k))
      let cm := fun k : Nat => match subs.find? fun e => e.1 == k with | some e => e.2.2.1.length | none => 0
      let spread := subs.map fun e =>
        (e.2.1, ilfSpread e.2.2.1.length (e.2.1.length * 1023) (e.2.1.length * 1023) 1 e.2.2.1)
      d.modLane lane fun y => { y with tx := {
        period := y.tx.period + 1, carry := subs.foldl (fun c e => tput c e.1 e.2.2.2) []
        marker := ilfMarkerOf d lane x.tx.period cm, payload := ilfPayload spread } })

end Sys2Proof.Machine
end

