-- ==== Sys2Proof/Machine/Framing.lean ====
section
/-!
DEFINITION. What the framing chapters share: container frames, traces, trace comparison, delivery of words, and the
command TRACE_SET (02 R42, R45; 04 R98, R100, R111; 05 R135, R141; 10 R232, R236; 16 R392, R395).
-/
namespace Sys2Proof.Machine

/-! ### Port frames -/

/-- A frame of a port starts in one direction (02 R42). -/
def rxFrame (p : Nat) (t : Time) (d : Dev) : Dev := d.modPort p fun x => { x with rxF := x.rxF.next t }
def txFrame (p : Nat) (t : Time) (d : Dev) : Dev := d.modPort p fun x => { x with txF := x.txF.next t }

/-- A frame or multiframe of a container starts in one direction (02 R45). -/
def rxCont (n : Nat) (t : Time) (d : Dev) : Dev := d.modTrib n fun x => { x with rxF := x.rxF.next t }
def txCont (n : Nat) (t : Time) (d : Dev) : Dev := d.modTrib n fun x => { x with txF := x.txF.next t }

/-- Has the receive direction of an object its frame or multiframe (02 R44)? -/
def aligned (d : Dev) : Obj → Bool
  | .port p => match d.port p with
    | some x => if isFlexe x.typ then !x.flx.insts.isEmpty && x.flx.insts.all (·.2.locked) else x.fr.st == .inFrame
    | none => false
  | .trib n => match d.trib n with
    | some x =>
      if x.typ = 0x0A then (match x.port with
        | some p => (match d.port p with | some y => y.fr.st == .inFrame | none => false)
        | none => false)
      else if isOdu x.typ then x.fr.st == .inFrame && !serverSilent d 5 n
      else if isVc x.typ then !(d.layer (pathKey n)).noWords
      else x.fg.st == .sync
    | none => false
  | _ => true

/-- The frames of an object in one direction. -/
def framesOf (d : Dev) (o : Obj) (dir : Dir) : PortFrame :=
  match o with
  | .port p => (match d.port p with | some x => (match dir with | .rx => x.rxF | .tx => x.txF) | none => {})
  | .trib n => (match d.trib n with | some x => (match dir with | .rx => x.rxF | .tx => x.txF) | none => {})
  | _ => {}

def setFrames (o : Obj) (dir : Dir) (f : PortFrame) (d : Dev) : Dev :=
  match o, dir with
  | .port p, .rx => d.modPort p fun x => { x with rxF := f }
  | .port p, .tx => d.modPort p fun x => { x with txF := f }
  | .trib n, .rx => d.modTrib n fun x => { x with rxF := f }
  | .trib n, .tx => d.modTrib n fun x => { x with txF := f }
  | _, _ => d

/-- Has an object a frame boundary in a direction in this phase unit (02 R42-R45)? The DFE frame and the port frame of
Ethernet start at phase 0. Other frames start where their own rows received or sent one in this phase unit; a receive
direction without alignment keeps its flywheel, and so does a transmit direction, whose frames the port times by
itself. The answer counts a flywheel boundary. -/
def boundaryAt (o : Obj) (dir : Dir) (t : Time) (d : Dev) : Option Dev :=
  if onDfe d o then (if phaseOf t = 0 then some d else none)
  else
    let f := framesOf d o dir
    match framePeriod d o with
    | none => none
    | some q =>
      if f.start = t then some d
      else if dir == .rx && aligned d o then none
      else match f.fly q t with
        | some k => some (setFrames o dir (f.flyTo q k t) d)
        | none => none

/-! ### Traces (04 R98) -/

/-- Octets of a trace format: 1, 16 or 64. -/
def fmtLen (fmt : Nat) : Nat := if fmt = 0 then 1 else if fmt = 1 then 16 else 64

/-- The CRC-7 of a 16-octet trace is right (04 R98; 09 R223): computed with the CRC bits of the first octet as 0. -/
def traceCrcOk (os : List Octet) : Bool :=
  match os with
  | [] => false
  | a :: r => a.toNat ≥ 128 && crcOctets crcTrace (0x80 :: r) == a.toNat % 128

/-- A complete message enters the filter; `good` false: it counts as different from every other. -/
def FiltL.message (f : FiltL) (n : Nat) (os : List Octet) (good : Bool) (t : Time) : FiltL :=
  let g := { f with asm := [], skip := false }
  if f.skip then g
  else if good then g.step n os t
  else { g with cur := none, run := 0 }

/-- One received octet of a J0, J1 or J2 trace (04 R98, R100). An end of a 64-byte trace after another number of octets
neither counts nor breaks the run (DESIGN CHOICE, log entry 86). -/
def traceStep (fmt : Nat) (f : FiltL) (o : Octet) (poisoned : Bool) (t : Time) : FiltL :=
  let f := { f with skip := f.skip || poisoned }
  if fmt = 0 then f.message 3 [o] true t
  else if fmt = 1 then
    if 128 ≤ o.toNat then
      (if f.asm.isEmpty then { f with asm := [o], skip := poisoned }
       else { f with asm := [o], cur := if f.skip then f.cur else none, run := if f.skip then f.run else 0, skip := poisoned })
    else if f.asm.isEmpty then { f with skip := false }
    else
      let a := f.asm ++ [o]
      if a.length = 16 then f.message 3 a (traceCrcOk a) t else { f with asm := a }
  else
    let a := f.asm ++ [o]
    let a := a.drop (a.length - 65)
    if a.drop (a.length - 2) = [0x0D, 0x0A] then
      if a.length = 64 then f.message 3 a true t else { f with asm := [], skip := false }
    else { f with asm := a }

/-- Does an accepted trace differ from the expected one? No expected trace, or none accepted: no mismatch. `mode` is
the TIM mode of R135: OFF, SAPI, DAPI, SAPI+DAPI. -/
def traceDiffers (exp acc : Option (List Octet)) : Bool :=
  match exp, acc with | some e, some a => e != a | _, _ => false

def ttiDiffers (mode : Nat) (exp acc : Option (List Octet)) : Bool :=
  match exp, acc with
  | some e, some a =>
    let s := e.take 16 != a.take 16
    let p := (e.drop 16).take 16 != (a.drop 16).take 16
    match mode with | 0 => false | 1 => s | 2 => p | _ => s || p
  | _, _ => false

/-- Raises or clears a TIM of a layer under its mode. -/
def setTim (k : Nat) (x : Def) (whole : Bool) (exp acc : Option (List Octet)) (t : Time) (d : Dev) : Dev :=
  let m := (d.layer k).timMode
  setDef k x (if whole then m != 0 && traceDiffers exp acc else ttiDiffers m exp acc) t d

/-! ### TRACE_SET -/

/-- The object of a T or port word: W4 [31] set names a T number. -/
def tOrPort (w : Word) : Obj := if bitAt w 31 then .trib (fld w 16 0) else .port (portOfWord w.toNat)

/-- The sender owns the object of a T or port word. -/
def ownsTOrPort (x : Ctx) (d : Dev) : Bool :=
  match tOrPort (x.w 4) with
  | .port p => (match d.port p with | some y => y.owner == x.m | none => false)
  | .trib t => (match d.trib t with | some y => y.owner == x.m | none => false)
  | _ => false

/-- Mask of such a word: a port word only where [31] is clear. -/
def tOrPortMask : Nat := bitsMask 31 31 + bitsMask 16 0
def tOrPortEnc (ws : List Word) : List (Nat × Nat × Nat) :=
  if bitAt (ws.getD 4 0) 31 then [] else portWordEnc 4 (ws.getD 4 0)

/-- Is a trace of the kind its object has (16 R395)? -/
def traceSuits (d : Dev) (w : Word) (code : Nat) : Bool :=
  match tOrPort w with
  | .port p => (match d.port p with
    | some x => (isSdh x.typ && code == 0x01) || (isOtn x.typ && code == 0x04)
    | none => false)
  | .trib t => (match d.trib t with
    | some x => (decide (0x10 ≤ x.typ) && decide (x.typ ≤ 0x12) && code == 0x02)
        || (decide (0x13 ≤ x.typ) && decide (x.typ ≤ 0x15) && code == 0x03)
        || (isOdu x.typ && ((decide (0x05 ≤ code) && decide (code ≤ 0x0B)) || code == 0x10))
        || (x.typ == 0x2B && code == 0x11)
    | none => false)
  | _ => false

def objExists (d : Dev) : Obj → Bool
  | .port p => (d.port p).isSome
  | .trib t => (d.trib t).isSome
  | _ => true

/-- Octets of a trace by its code and format. -/
def traceLen (code fmt : Nat) : Nat :=
  if code ≤ 3 then fmtLen fmt else if code ≤ 0x0B then 64 else if code = 0x10 then 256 else 32

/-- The octets that the fragments of a TRACE_SET carry. -/
def traceOctets (msgs : List (List Word)) (n : Nat) : List Octet :=
  (msgs.flatMap fun ws => octetsOfWords ((ws.drop 6).take 8)).take n

/-- Puts a trace into a trace record. -/
def Trace.put (x : Trace) (expd : Bool) (fmt : Nat) (os : List Octet) : Trace :=
  if expd then { x with exp := some os, fmt := some fmt } else { x with tx := some os }

/-- The defect of a trace, and the layer it belongs to. -/
def traceDef (code : Nat) : Def :=
  if code = 0x01 then .rsTim else if code ≤ 0x03 then .vcTim else if code = 0x04 then .smTim
  else if code = 0x11 then .pathTim else .oduTim

def traceKey (w : Word) (code : Nat) : Nat :=
  match tOrPort w with
  | .port p => secKey p
  | .trib t => if 0x06 ≤ code ∧ code ≤ 0x0B then tcmKey (code - 5) t else pathKey t
  | _ => 0

/-- The accepted value that a trace is compared with. -/
def traceAcc (d : Dev) (w : Word) (code : Nat) : Option (List Octet) :=
  match tOrPort w with
  | .port p => (match d.port p with
    | some x => if code = 0x01 then x.sdh.j0f.acc else x.otn.sm.tti.acc
    | none => none)
  | .trib t => (match d.trib t with
    | some x =>
      if code = 0x05 then x.pm.tti.acc
      else if 0x06 ≤ code ∧ code ≤ 0x0B then (tgetD x.tcm (code - 5) {}).tti.acc
      else x.jf.acc
    | none => none)
  | _ => none

/-- Takes up a trace, and compares an expected one at once with the value already accepted (04 R111). -/
def applyTrace (msgs : List (List Word)) (t : Time) (d : Dev) : Dev :=
  let ws := msgs.getLastD []
  let w4 := ws.getD 4 0
  let w5 := ws.getD 5 0
  let code := fld w5 31 24
  let expd := bitAt w5 23
  let fmt := fld w5 22 21
  let os := traceOctets msgs (traceLen code fmt)
  let d := match tOrPort w4 with
    | .port p => d.modPort p fun x =>
        if code = 0x01 then { x with sdh := { x.sdh with j0 := x.sdh.j0.put expd fmt os } }
        else { x with otn := { x.otn with tti := x.otn.tti.put expd fmt os } }
    | .trib n => d.modTrib n fun x => { x with traces := tmod x.traces code {} fun r => r.put expd fmt os }
    | _ => d
  if !expd || code = 0x10 then d
  else setTim (traceKey w4 code) (traceDef code) (decide (code ≤ 3)) (some os) (traceAcc d w4 code) t d

def traceFrag (ws : List Word) : FragPos :=
  let w := ws.getD 5 0
  ⟨fld w 15 8 == 0, bitAt w 7, fld w 15 8, 32, [ws.getD 4 0, wd (fld w 31 21)], 5, 8⟩

def cmdTraceSet : Cmd := {
  code := 0x0209, n := 16, kind := .config, vf := true
  mask := [(4, tOrPortMask), (5, bitsMask 31 7)] ++ (List.range 8).map fun i => (6 + i, anyW)
  enc := fun ws =>
    let w := ws.getD 5 0
    let code := fld w 31 24
    tOrPortEnc ws
      ++ (if (1 ≤ code ∧ code ≤ 0x0B) ∨ code = 0x10 ∨ code = 0x11 then [] else [(5, 31, 24)])
      ++ (if fld w 22 21 = 3 ∨ (4 ≤ code ∧ fld w 22 21 ≠ 0) then [(5, 22, 21)] else [])
      ++ (if fld w 15 8 % 32 = 0 then [] else [(5, 15, 8)])
  perm := ownsTOrPort
  frag := some traceFrag
  chk := fun x d =>
    let w := x.w 5
    let n := (traceLen (fld w 31 24) (fld w 22 21) + 31) / 32 * 32
    let one := fun ws : List Word => (ws.getD 5 0) &&& wd 0xFFE00000 == w &&& wd 0xFFE00000
    firstErr [
      need (objExists d (tOrPort (x.w 4))) (badArg 4 0),
      need (traceSuits d (x.w 4) (fld w 31 24)) (badArg 5 24),
      need (x.msgs.all one) (badArg 5 24),
      need (fld w 15 8 + 32 == n) (badArg 5 8)]
  obj := fun x _ => tOrPort (x.w 4)
  parts := fun x d =>
    let dir : Dir := if bitAt (x.w 5) 23 then .rx else .tx
    match tOrPort (x.w 4) with
    | .trib t => [.frame (contSrc d t) dir]
    | o => [.frame o dir]
  key := fun ws => some (ws.getD 4 0, ws.getD 5 0 &&& wd 0xFF80FF00)
  apply := fun c _ t d => applyTrace c.msgs t d }

end Sys2Proof.Machine
end

