-- ==== Sys2Proof/Machine/Words.lean ====
section
/-!
DEFINITION. Lane words on their way between stages: the attachments of the cross-connect and the words handed to it,
and the packing of octets into words (01 R16-R20).
-/
namespace Sys2Proof.Machine

/-! ### Attachments (01 R16)

A FIFO of the cross-connect stands at each attachment in each direction of the data path: instance 2 × unit for the
words of the receive direction that reach the unit, 2 × unit + 1 for those of the transmit direction, with the unit IDs
of 18 R417 for slices (0x00-0x1F) and port processors (0x20-0x2F) (DESIGN CHOICE, log entry 61). -/

/-- The unit that holds a port's processor (01 R10). -/
def portUnit (d : Dev) (p : Nat) : Option Nat := (d.port p).map fun x => 32 + lgOfLane x.first

/-- The unit that maps a tributary into its container, or sends it on its port (01 R17). -/
def carrierUnit (d : Dev) (n : Nat) : Option Nat :=
  match d.trib n with
  | none => none
  | some x => match x.port with
    | some p => portUnit d p
    | none => (d.trib x.parent).map (·.unit)

/-- Words of a tributary on their way to an attachment, behind a context-boundary word (01 R16). -/
def xcSend (inst n : Nat) (ws : List LaneWord) (d : Dev) : Dev :=
  if ws.isEmpty ∨ 96 ≤ inst then d
  else d.onFab fun f => { f with xcOut := tmod f.xcOut inst [] fun l => l ++ lw tagCtx (wd (n % 2 ^ 17)) :: ws }

/-- Received words of a tributary go to its owner slice; those of an ODUCn stay in its port processor (01 R14, R15). -/
def toOwner (n : Nat) (ws : List LaneWord) (d : Dev) : Dev :=
  match d.trib n with
  | some x => if x.unit < 32 then xcSend (2 * x.unit) n ws d else d
  | none => d

/-- Words of a tributary for its container or port (01 R17). -/
def toCarrier (n : Nat) (ws : List LaneWord) (d : Dev) : Dev :=
  match carrierUnit d n with
  | some u => xcSend (2 * u + 1) n ws d
  | none => d

/-! ### Words waiting for a container's transmitter -/

/-- Words that a carrier has received of a tributary and not yet sent. -/
def txWaiting (d : Dev) (n : Nat) : List LaneWord := tgetD d.fab.txq n []
def setTxWaiting (n : Nat) (ws : List LaneWord) (d : Dev) : Dev := d.onFab fun f => { f with txq := tput f.txq n ws }

/-! ### Octets in words (01 R19, R20) -/

/-- Four octets to a word, octet 0 in [31:24]; the last word of a frame is filled up with 0x00 (DESIGN CHOICE, log
entry 62). -/
def octetWords (tag : Nat) (os : List Octet) (poison : Bool := false) : List LaneWord :=
  (packWords os).map fun w => lw tag w poison

/-- The words of a container frame: the first is a frame start (01 R20). -/
def frameWords (os : List Octet) (poison : Bool := false) : List LaneWord :=
  match octetWords tagData os poison with
  | [] => []
  | w :: r => lw tagFrame (lwPayload w) poison :: r

/-- The octets of some lane words. -/
def wordOctets (ws : List LaneWord) : List Octet := ws.flatMap fun w => octetsOf (lwPayload w)

end Sys2Proof.Machine
end

