-- ==== Sys2Proof/Machine/SdhBytes.lean ====
section
/-!
DEFINITION. The octets of an STM-N frame: places of its overhead, scrambling, BIP-8 and BIP-24N, the octets of an AU or
TU and their packing in lane words (04 R85, R89-R92, R100, R102-R107). Byte places are those of G.707 (PRESUMED, log entry
64): byte S(a, b, c) lies in row a, column N (b - 1) + c; AUG-1 number a takes the columns that leave a on division by N.
-/
namespace Sys2Proof.Machine

/-- Octets of a row of an STM-N. -/
def rowLen (n : Nat) : Nat := 270 * n

/-- The octet in a row and a column, both from 0. -/
def sdhAt (n : Nat) (os : List Octet) (r c : Nat) : Octet := os.getD (rowLen n * r + c) 0

/-! ### Places of the overhead (04 R90)

Fields are named by the codes of R394; 0x20 is B1, 0x21 B2, 0x22 M0 and M1. -/

def ohPlaces (n : Nat) (wide : Bool) (f : Nat) : List (Nat × Nat) :=
  match f with
  | 0 => [(1, 3 * n)]
  | 1 => [(1, 6 * n)]
  | 2 => [(2, 0), (2, 3 * n), (2, 6 * n)]
  | 3 => [5, 6, 7].flatMap fun r => [(r, 0), (r, 3 * n), (r, 6 * n)]
  | 4 => [(8, 6 * n)]
  | 0x10 => [(0, 6 * n)]
  | 0x11 => (List.range (3 * n - 1)).map fun i => (0, 6 * n + 1 + i)
  | 0x12 => [(4, 3 * n), (4, 6 * n)]
  | 0x13 => [(8, 0)]
  | 0x20 => [(1, 0)]
  | 0x21 => (List.range (3 * n)).map fun i => (4, i)
  | 0x22 => (if wide then [(8, 3 * n + 1)] else []) ++ [(8, 3 * n + 2)]
  | _ => []

/-- The octets of a field of a frame. -/
def ohField (n : Nat) (os : List Octet) (wide : Bool) (f : Nat) : List Octet :=
  (ohPlaces n wide f).map fun p => sdhAt n os p.1 p.2

/-- The framing pattern: the last three A1 and the first three A2 (04 R85). -/
def sdhPattern : List Octet := [0xF6, 0xF6, 0xF6, 0x28, 0x28, 0x28]

/-- Have the 48 pattern bits of a frame an error (04 R85)? -/
def patternErrored (n : Nat) (os : List Octet) : Bool := (os.drop (3 * n - 3)).take 6 != sdhPattern

/-- Do bits hold a pattern at any position (04 R86)? -/
def bitsHold (pat : List Bool) : List Bool → Bool
  | [] => pat.isEmpty
  | b :: r => pat.isPrefixOf (b :: r) || bitsHold pat r

/-! ### Scrambling (04 R89; 05 R120) -/

/-- The bits of a frame-synchronous scrambler of width `w`: a generator with terms x^i for the taps i; the last stage is
the output. -/
def lfsrBits (w : Nat) (taps : List Nat) : Nat → Nat → List Bool
  | 0, _ => []
  | n + 1, s =>
    let fb := taps.foldl (fun a i => xor a (s.testBit (i - 1))) false
    s.testBit (w - 1) :: lfsrBits w taps n ((2 * s + fb.toNat) % 2 ^ w)

/-- Octets XORed with the scrambler's bits, from its register at reset. -/
def scramble (w : Nat) (taps : List Nat) (os : List Octet) : List Octet :=
  List.zipWith (· ^^^ ·) os (bitOctets (lfsrBits w taps (8 * os.length) (2 ^ w - 1)))

/-- 1 + x^6 + x^7 from 0b111_1111 at the byte after the first row of the section overhead, which is not scrambled
(04 R89). It is its own inverse. -/
def sdhScramble (n : Nat) (os : List Octet) : List Octet := os.take (9 * n) ++ scramble 7 [6, 7] (os.drop (9 * n))

/-! ### Parity (04 R91, R92; 09 R222) -/

/-- The XOR of the `w`-octet groups of a list. -/
def xorGroups (w : Nat) : Nat → List Octet → List Octet → List Octet
  | 0, _, acc => acc
  | n + 1, os, acc => xorGroups w n (os.drop w) (List.zipWith (· ^^^ ·) acc (os.take w ++ List.replicate (w - os.length) 0))

/-- The octets that B2 covers: all but the first three rows of the section overhead (04 R92). -/
def b2Cover (n : Nat) (os : List Octet) : List Octet :=
  (List.range 9).flatMap fun r => ((os.drop (rowLen n * r)).take (rowLen n)).drop (if r < 3 then 9 * n else 0)

/-- BIP-24N as 3N octets. -/
def bip24 (n : Nat) (os : List Octet) : List Octet :=
  xorGroups (3 * n) 810 (b2Cover n os) (List.replicate (3 * n) 0)

/-- The number of bits in which two lists of octets differ. -/
def bitErrors (a b : List Octet) : Nat := (List.zipWith (fun x y : Octet => popCount 8 (x ^^^ y).toNat) a b).foldl (· + ·) 0

/-- The octets of a frame before scrambling: A1 and A2, the fields of the overhead, the AUs, and 0x00 elsewhere; all ones
after the first three rows of section overhead for MS-AIS (04 R90, R110). -/
def sdhOctets (n : Nat) (ais wide : Bool) (oh : Tbl (List Octet)) (aus : List (Nat × Octet)) : List Octet :=
  let fields := oh.flatMap fun e => ((ohPlaces n wide e.1).map fun q => rowLen n * q.1 + q.2).zip e.2
  let all := fields ++ aus
  (List.range (9 * rowLen n)).map fun i =>
    let section_ := decide (i % rowLen n < 9 * n)
    if i < 3 * n then 0xF6 else if i < 6 * n then 0x28
    else if ais && !(section_ && decide (i < 3 * rowLen n)) then 0xFF
    else ((all.find? fun e => e.1 == i).map (·.2)).getD 0

/-- A frame of an STM-N that carries MS-AIS, as on the line (04 R110). -/
def msAisFrame (n : Nat) (b1 : Octet) : List Octet := sdhScramble n (sdhOctets n true false [(0x20, [b1])] [])

/-! ### The octets of a container in its pointer frame (04 R101-R107)

A pointer frame of a VC, in order: positions that the pointer received before counts, positions from 0 after the pointer
(`mid`, for a TU of a TUG-2 only), the opportunity of the negative justification, and the positions after it, the first of
them the opportunity of the positive one. A position is a unit of octets. -/
structure PtrFrame where
  pre : List (List POct)
  mid : List (List POct)
  neg : List POct
  post : List (List POct)
deriving DecidableEq, Repr

/-- Units of `w` octets. -/
def chunks {α : Type} (w : Nat) : Nat → List α → List (List α)
  | 0, _ => []
  | n + 1, os => os.take w :: chunks w n (os.drop w)

def units {α : Type} (w : Nat) (os : List α) : List (List α) := chunks w (os.length / w) os

/-- The places of a row of an AU, in line order: AUG-1s a to a + X - 1 of an AU-4-Xc, or one of three AU-3s. -/
def auPlaces (n a x : Nat) (au3 : Option Nat) (r : Nat) (cols : List Nat) : List Nat :=
  (cols.filter fun c => match au3 with | some k => c % 3 == k | none => true).flatMap fun c =>
    (List.range x).map fun i => rowLen n * r + n * c + a + i

/-- The octets of an AU in its unit: 3 octets of each AUG-1 for an AU-4, one for an AU-3 (04 R102). -/
def auUnit (x : Nat) (au3 : Option Nat) : Nat := if au3.isSome then 1 else 3 * x

/-- The places of an AU's rows of payload, of H3, and of its pointer bytes. -/
def auPayload (n a x : Nat) (au3 : Option Nat) (rows : List Nat) : List Nat :=
  rows.flatMap fun r => auPlaces n a x au3 r ((List.range 261).map (· + 9))
def auNeg (n a x : Nat) (au3 : Option Nat) : List Nat := auPlaces n a x au3 3 [6, 7, 8]

/-- The pointer frame of an AU: rows 1 to 3 come before the pointer of row 4. -/
def auFrame (n a x : Nat) (au3 : Option Nat) (at_ : Nat → POct) : PtrFrame :=
  let u := auUnit x au3
  ⟨units u ((auPayload n a x au3 [0, 1, 2]).map at_), [], (auNeg n a x au3).map at_,
    units u ((auPayload n a x au3 [3, 4, 5, 6, 7, 8]).map at_)⟩

/-- The places of H1 and H2 of an AU-4 of an AUG-1, or of an AU-3 (04 R102). -/
def ptrPlaces (n a : Nat) (au3 : Option Nat) : Nat × Nat :=
  let k := au3.getD 0
  (rowLen n * 3 + n * k + a, rowLen n * 3 + n * (3 + k) + a)

/-! ### Packing in lane words (04 R104; 01 R20) -/

/-- The word in hand is sent, filled up with 0x00 (log entry 62). -/
def Packer.flush (p : Packer) : Packer :=
  if p.res.isEmpty then p
  else { p with
    res := [], start := false, opp := false, bad := false
    out := p.out ++ [lw (if p.start then tagFrame else if p.opp then tagJust else tagData)
      ((packWords p.res).headD 0) p.bad] }

/-- One octet: the first of the container frame starts a word (04 R104). -/
def Packer.octet (p : Packer) (first opp : Bool) (o : POct) : Packer :=
  let p := if first then { p.flush with start := true, sent := some 0, marks := p.marks ++ [[]] } else p
  match p.sent with
  | none => p
  | some k =>
    let p := { p with res := p.res ++ [o.1], opp := p.opp || opp, bad := p.bad || o.2, sent := some (k + 1) }
    if p.res.length = 4 then p.flush else p

/-- A position: a unit of octets, the first of which is the container's first where the pointer names the position. -/
def Packer.unit (p : Packer) (first opp : Bool) (os : List POct) : Packer :=
  (os.zipIdx).foldl (fun p e => p.octet (first && e.2 == 0) opp e.1) p

/-- Positions numbered from `k`; the first is an opportunity where `opp`. -/
def Packer.units (p : Packer) (act k : Nat) (opp : Bool) (us : List (List POct)) : Packer :=
  (us.zipIdx).foldl (fun p e => p.unit (k + e.2 == act) (opp && e.2 == 0) e.1) p

/-- The mark of an opportunity in the frame in hand: its place after the first octet, the octets of a unit, and `kind`: 0
none, 1 positive, 2 negative justification. -/
def Packer.mark (p : Packer) (u kind : Nat) : Packer :=
  match p.sent with
  | some k => { p with marks := p.marks.dropLast ++ [(p.marks.getLast?.getD []) ++ [(k, u, kind)]] }
  | none => p

/-- A pointer frame packed under the pointer in force before it and the one after its pointer. -/
def Packer.frame (p : Packer) (f : PtrFrame) (old act kind : Nat) : Packer :=
  let total := f.pre.length + f.mid.length + f.post.length
  let p := (p.units old (total - f.pre.length) false f.pre).units act 0 false f.mid
  ((p.mark f.neg.length kind).unit false true f.neg).units act f.mid.length true f.post

/-- The octets of a container frame without the justification opportunities that carry no data (04 R104). -/
def unstuff {α : Type} (marks : List (Nat × Nat × Nat)) (os : List α) : List α :=
  marks.foldr (fun m os =>
    let (at_, u, kind) := m
    os.take at_ ++ (if kind = 2 then (os.drop at_).take u else []) ++ (if kind = 1 then [] else (os.drop (at_ + u)).take u)
      ++ os.drop (at_ + 2 * u)) os

/-! ### Transmission (04 R105) -/

/-- The octets of a pointer frame of `pre`, `mid` and `post` units, taken from a supply of them: a positive justification
leaves the unit after the negative opportunity empty, a negative one fills that opportunity. -/
def ptrOctets (u pre mid post kind : Nat) (take : Nat → Dev → List Octet × Dev) (d : Dev) :
    (List Octet × List Octet × List Octet × List Octet) × Dev :=
  let zero := List.replicate u (0 : Octet)
  let (a, d) := take (pre * u) d
  let (b, d) := take (mid * u) d
  let (n, d) := if kind = 2 then take u d else (zero, d)
  let (c, d) := if kind = 1 then (let (c, d) := take ((post - 1) * u) d; (zero ++ c, d)) else take (post * u) d
  ((a, b, n, c), d)

/-- Octets set at places of a frame. -/
def putAt (os : List Octet) (ps : List (Nat × Octet)) : List Octet :=
  (os.zipIdx).map fun e => match ps.find? fun p => p.1 == e.2 with | some p => p.2 | none => e.1

end Sys2Proof.Machine
end

