-- ==== Sys2Proof/Machine/Sdh.lean ====
section
/-!
DEFINITION. SONET and SDH receive framing: structure and overhead configuration, the framer, acceptance filters, pointer
interpretation and the multiframe alignment of a VC (04 R82-R111; 10 R232).
-/
namespace Sys2Proof.Machine

/-! ### Structure (04 R101) -/

/-- The X of an AU-4-Xc whose first AUG-1 heads the list: the AUG-1s that follow it marked as later ones, and itself. -/
def runOfLater : List Nat → Nat
  | 2 :: r => runOfLater r + 1
  | _ => 0

/-- Is the list a structure: each AU-4-Xc has X of 4, 16, 64 or 256 at a multiple of X, and no later AUG-1 stands
alone? `i` is the number of the first AUG-1 of the list. -/
def augOk (i : Nat) (later : Nat) : List Nat → Bool
  | [] => true
  | c :: r =>
    if c = 3 then
      let x := runOfLater r + 1
      (x == 4 || x == 16 || x == 64 || x == 256) && i % x == 0 && augOk (i + 1) (x - 1) r
    else if c = 2 then decide (0 < later) && augOk (i + 1) (later - 1) r
    else augOk (i + 1) 0 r

/-- The kind of an AUG-1: AU-4 where no structure was set (log entry 18). -/
def augKind (x : SdhPort) (a : Nat) : Nat := x.aug.getD a 0

/-- The size X of the AU-4-Xc that starts at an AUG-1. -/
def auX (x : SdhPort) (a : Nat) : Nat := runOfLater (x.aug.drop (a + 1)) + 1

/-- The pointer interpreters of a port, keyed 3 × AUG-1 + AU index; a later AU-4 of an AU-4-Xc has one that expects the
concatenation indication (04 R103). -/
def auKeys (typ : Nat) (x : SdhPort) : List Nat :=
  (List.range (stmN typ)).flatMap fun a => if augKind x a = 1 then [3 * a, 3 * a + 1, 3 * a + 2] else [3 * a]

/-- The interpreter that one follows: for a later AU-4 of an AU-4-Xc that of the nearest AUG-1 before it that heads one. -/
def auHead (x : SdhPort) : Nat → Nat
  | 0 => 0
  | a + 1 => if augKind x (a + 1) = 2 then auHead x a else a + 1

/-- The interpreter of a first-level VC. -/
def auKeyOf (x : Trib) : Nat := 3 * (x.pos.toNat % 256) + x.au

/-! ### Pointer interpretation (04 R102, R103, R107) -/

inductive PtrCls where
  | ais
  | ndf
  | inc
  | dec
  | norm
  | conc
  | inv
deriving DecidableEq, Repr

/-- The bits of a 4-bit NDF that match a pattern are at least 3. -/
def ndfLike (pat n : Nat) : Bool := decide (popCount 4 (n ^^^ pat) ≤ 1)

/-- The class of a pointer word against the active value (04 R102). NDF enabled is tested before the justifications.
`later`: the interpreter is of an AU-4 other than the first of an AU-4-Xc. -/
def ptrClass (maxV act : Nat) (w : BitVec 16) (later : Bool := false) : PtrCls :=
  let n := w.toNat / 4096
  let v := w.toNat % 1024
  let i := popCount 10 ((v ^^^ act) &&& 0x2AA)
  let k := popCount 10 ((v ^^^ act) &&& 0x155)
  if w = 0xFFFF then .ais
  else if later && n == 0b1001 && v == 1023 then .conc
  else if ndfLike 0b1001 n && decide (v ≤ maxV) then .ndf
  else if !ndfLike 0b0110 n then .inv
  else if 3 ≤ i ∧ k ≤ 2 then .inc
  else if 3 ≤ k ∧ i ≤ 2 then .dec
  else if v ≤ maxV then .norm
  else .inv

/-- Counts of a run that a frame of another class ends. -/
def PtrRx.clear (p : PtrRx) : PtrRx := { p with aisRun := 0, invRun := 0, ndfRun := 0, stuff := 0 }

/-- Enters NORM with an active value: `run` preceding Normal frames carried it. -/
def PtrRx.toNorm (p : PtrRx) (v run : Nat) : PtrRx :=
  { p.clear with st := .norm, act := v, normRun := run, newVal := 0, newRun := 0 }

def PtrRx.toLop (p : PtrRx) : PtrRx := { p.clear with st := .lop, normRun := 0, newVal := 0, newRun := 0 }
def PtrRx.toAis (p : PtrRx) : PtrRx := { p.clear with st := .ais, normRun := 0, newVal := 0, newRun := 0 }

/-- A frame in NORM: the interpreter after it, and the counter it counts. The count of frames with a new value is
cleared by a Normal frame of the active value or a change of it (log entry 19). NDF enabled always meets the first row
of R103's table; it counts in the run of frames that are Invalid or NDF enabled, which an Invalid frame ends in LOP. -/
def PtrRx.inNorm (p : PtrRx) (maxV : Nat) (w : BitVec 16) : PtrRx × Option Nat :=
  let v := w.toNat % 1024
  let act := fun (a k s : Nat) => ({ p.clear with act := a, normRun := 0, newVal := 0, newRun := 0, stuff := s }, some k)
  let invalid := if 7 ≤ p.invRun then (p.toLop, none)
    else ({ p.clear with invRun := p.invRun + 1, normRun := 0 }, none)
  match ptrClass maxV p.act w with
  | .ais => if p.aisRun = 2 then (p.toAis, none) else ({ p.clear with aisRun := p.aisRun + 1, normRun := 0 }, none)
  | .ndf => ({ p.clear with
      act := v, normRun := 0, newVal := 0, newRun := 0, ndfRun := p.ndfRun + 1, invRun := p.invRun + 1 }, some 0x22)
  | .inc => if 3 ≤ p.normRun then act (if p.act = maxV then 0 else p.act + 1) 0x20 1 else invalid
  | .dec => if 3 ≤ p.normRun then act (if p.act = 0 then maxV else p.act - 1) 0x21 2 else invalid
  | .conc => invalid
  | .inv => invalid
  | .norm =>
    if v = p.act then ({ p.clear with normRun := p.normRun + 1, newVal := 0, newRun := 0 }, none)
    else
      let n := if p.newRun ≠ 0 ∧ v = p.newVal then p.newRun + 1 else 1
      if n = 3 then (p.toNorm v 3, some 0x23) else ({ p.clear with normRun := 0, newVal := v, newRun := n }, none)

/-- A frame in AIS or LOP: the classes of a justification need an active value, so a Normal word counts as Normal
whatever its bits (log entry 19). -/
def PtrRx.out (p : PtrRx) (maxV : Nat) (w : BitVec 16) : PtrRx :=
  let n := w.toNat / 4096
  let v := w.toNat % 1024
  let q := { p.clear with newRun := 0 }
  if w = 0xFFFF then
    (if p.st = .lop ∧ p.aisRun = 2 then p.toAis else { q with aisRun := p.aisRun + 1 })
  else if ndfLike 0b1001 n && decide (v ≤ maxV) then (if p.st = .ais then p.toNorm v 0 else q)
  else if ndfLike 0b0110 n && decide (v ≤ maxV) then
    let k := if p.newRun ≠ 0 ∧ v = p.newVal then p.newRun + 1 else 1
    if k = 3 then p.toNorm v 3 else { q with newVal := v, newRun := k }
  else if p.st = .ais ∧ p.invRun = 7 then p.toLop
  else { q with invRun := p.invRun + 1 }

/-- One frame of a pointer interpreter (04 R103). -/
def PtrRx.step (p : PtrRx) (maxV : Nat) (w : BitVec 16) : PtrRx × Option Nat :=
  match p.st with
  | .norm => p.inNorm maxV w
  | _ => (p.out maxV w, none)

/-- The largest value of a pointer of a VC type (04 R102, R107). -/
def ptrMax (typ : Nat) (tu : Bool) : Nat :=
  match typ with
  | 0x12 => if tu then 764 else 782
  | 0x13 => 427
  | 0x14 => 139
  | 0x15 => 103
  | _ => 782

/-- Takes up the defects of an interpreter in its VC's layer; `grace` holds AU_LOP back after a structure change. -/
def ptrDefects (k : Nat) (st : PtrSt) (grace : Bool) (t : Time) (d : Dev) : Dev :=
  setDef k .auLop (st == .lop && !grace) t (setDef k .auAis (st == .ais) t d)

/-! ### Labels (04 R99, R109; 10 R232) -/

/-- VC_UNEQ and VC_PLM from the accepted and expected labels; PLM of a terminated VC (07 R169). -/
def labelDefects (n : Nat) (t : Time) (d : Dev) : Dev :=
  match d.trib n with
  | none => d
  | some x =>
    let k := pathKey n
    match x.label.acc with
    | none => d
    | some a =>
      let plm := match x.expLabel with
        | none => false
        | some e => a != 0 && a != e && !(a == 1 && e != 0) && !(kidsOf d n).isEmpty
      setDef k .vcPlm plm t (setDef k .vcUneq (a == 0 && x.expLabel != some 0) t d)

/-! ### Delivery of VC words (04 R88, R104, R108; 10 R236) -/

/-- The port whose AUG structure a received signal has: for a protection port, the working port it stands for, else the
first one. -/
def structPort (d : Dev) (p : Nat) (x : Port) : Port :=
  match groupOfProt d (.port p) with
  | none => x
  | some g => match d.pg g with
    | none => x
    | some y => match y.ws[y.selNow - 1]? with
      | some m => (match m.o with | .port w => (d.port w).getD x | _ => x)
      | none => x

/-- Takes up which first-level VCs of a port have words. -/
def sdhWords (p : Nat) (t : Time) (d : Dev) : Dev :=
  match d.port p with
  | none => d
  | some x =>
    let ns := (servedTribs d p).filter fun n => match d.trib n with | some y => isVc y.typ | none => false
    setWords ns (fun n => match d.trib n with
      | some y => x.fr.st != .inFrame || (tgetD x.sdh.ptrs (auKeyOf y) {}).st != .norm
      | none => false) t d

/-- Takes up which VCs below a VC have words: the TU interpreter in NORM, and no LOM of the VC that carries it. -/
def tuWords (n : Nat) (t : Time) (d : Dev) : Dev :=
  let kids := (kidsOf d n).filter fun c => match d.trib c with | some y => isVc y.typ | none => false
  setWords kids (fun c => match d.trib c with
    | some y => y.ptr.st != .norm || (y.typ != 0x12 && hasDef d (pathKey n) .lom)
    | none => false) t d

/-! ### The framer (04 R86, R87) -/

/-- SDH_PATTERN_FOUND: the pattern at any bit position of the bits searched, in OOF. -/
def execSdhPatternFound (e : Searched) (s : State) : Out :=
  s.run (gRun fun _ d => d.modPort e.port fun x =>
    if isSdh x.typ && x.fr.st == .oof && bitsHold (lineBits sdhPattern) e.bits then { x with fr := { x.fr with st := .presync } }
    else x)

/-- IF confirmed: OOF clears, and its time runs for LOF (04 R86, R87). -/
def portInFrame (p : Nat) (t : Time) (d : Dev) : Dev :=
  setDef (secKey p) .oof false t (d.modPort p fun x => { x with
    fr := { x.fr with st := .inFrame, errRun := 0, oof := false, since := t } })

/-- LOF of a port after 24 frames, 3 ms, of OOF or of IF (04 R87; 05 R118). A visit to PRESYNC that falls back does not
interrupt the time of OOF (DESIGN CHOICE, log entry 65). -/
def portLof (p : Nat) (t : Time) (d : Dev) : Dev :=
  match d.port p with
  | none => d
  | some x =>
    if x.fr.lof != x.fr.oof && decide (x.fr.since + 24 * frame ≤ t) then
      setDef (secKey p) .lof x.fr.oof t (d.modPort p fun x => { x with fr := { x.fr with lof := x.fr.oof } })
    else d

/-- SDH_LOF_CHANGE. -/
def execSdhLofChange (port : Nat) (s : State) : Out :=
  s.run (gRun fun t d => match d.port port with
    | some x => if isSdh x.typ then portLof port t d else d
    | none => d)

/-! ### Overhead (04 R91-R98) -/

/-- The largest REI of a port (04 R93). -/
def reiMax (typ : Nat) (ext : Bool) : Nat :=
  match typ with
  | 0x01 => 24 | 0x02 => 96 | 0x03 => 255
  | 0x04 => if ext then 1536 else 255
  | _ => 6144

/-- Does the REI use M0 and M1? -/
def reiWide (typ : Nat) (ext : Bool) : Bool := typ == 0x05 || (typ == 0x04 && ext)

/-- The overhead of a received frame, from its octets before and after descrambling, with the check values computed over
it for the next frame (04 R85, R90-R93). -/
structure SdhOh where
  poisoned : Bool
  b1 : Octet
  b1own : Octet
  b2 : List Octet
  b2own : List Octet
  j0 : Octet
  k : Nat
  s1 : Octet
  m : Nat
  groups : List (Nat × List Octet)
deriving DecidableEq, Repr

/-- Does a lane word of a frame hold an octet of the section overhead (04 R100)? -/
def overheadWord (n w : Nat) : Bool := [0, 1, 2, 3].any fun i => decide ((4 * w + i) % rowLen n < 9 * n)

def sdhOverhead (n : Nat) (wide : Bool) (line os : List Octet) (bad : List Nat) : SdhOh :=
  let one := fun f => (ohField n os wide f).headD 0
  { poisoned := bad.any (overheadWord n), b1 := one 0x20, b1own := bip8 line, b2 := ohField n os wide 0x21, b2own := bip24 n os
    j0 := one 0x10, k := beNat (ohField n os wide 0x12), s1 := one 0x13, m := beNat (ohField n os wide 0x22)
    groups := [0, 1, 2, 3, 4, 0x10, 0x11, 0x12].map fun f => (f, ohField n os wide f) }

/-- Section overhead checks: B1, B2 and REI (04 R91-R93; 10 R242). The first frame in IF has no previous frame to check
against: its blocks count as received only. -/
def sdhBips (p : Nat) (x : Port) (f : SdhOh) (d : Dev) : Dev :=
  let e1 := x.sdh.b1.map fun b => popCount 8 (b ^^^ f.b1).toNat
  let e2 := x.sdh.b2.map fun b => bitErrors b f.b2
  let d := blockRx (secKey p) (e1.getD 0) e1.isSome d
  let d := blockRx (lineKey p) (e2.getD 0) e2.isSome d
  let d := farDef (lineKey p) (hasDef d (lineKey p) .msRdi) (farRx (lineKey p) (min f.m (reiMax x.typ x.sdh.reiExt)) d)
  let rei := if (d.layer (lineKey p)).tsf then 0 else min (e2.getD 0) (reiMax x.typ x.sdh.reiExt)
  d.modPort p fun y => { y with sdh := { y.sdh with b1 := some f.b1own, b2 := some f.b2own, rei := rei } }

/-- K1 and K2 (04 R96): the filter, K_INCONSISTENT after 12 frames, MS_AIS and MS_RDI. -/
def sdhK (p : Nat) (f : SdhOh) (t : Time) (d : Dev) : Dev :=
  match d.port p with
  | none => d
  | some x =>
    let k := x.sdh.k.step 3 f.k t
    let since := if 3 ≤ k.run then 0 else x.sdh.kSince + 1
    let d := d.modPort p fun y => { y with sdh := { y.sdh with k := k, kSince := if 12 ≤ since then 0 else since } }
    let d := if 12 ≤ since then addCnt (lineKey p) 0x67 1 d else d
    let v := match k.acc with | some a => a % 8 | none => 0
    setDef (lineKey p) .msRdi (v == 6) t (setDef (lineKey p) .msAis (v == 7) t d)

/-- S1 (04 R83, R97; 13 R313): a newly accepted value goes to the slots of the lane's recovered clock, in the code set of
the port's mode. -/
def sdhS1 (p : Nat) (f : SdhOh) (t : Time) (d : Dev) : Dev :=
  match d.port p with
  | none => d
  | some x =>
    let s1 := x.sdh.s1.step 8 f.s1.toNat t
    let d := d.modPort p fun y => { y with sdh := { y.sdh with s1 := s1 } }
    match s1.acc with
    | some v => if s1.acc = x.sdh.s1.acc then d
      else (slotsOfLane d x.first).foldl (fun d n =>
        setSlotQl n (BitVec.ofNat 4 v) t (d.modSlot n fun y => { y with gr253 := x.sdh.sonet })) d
    | none => d

/-- The format of J0 (04 R83, R98): 16-byte in SDH mode, 64-byte in SONET mode unless set. -/
def j0Fmt (x : SdhPort) : Nat := x.j0.fmt.getD (if x.sonet then 2 else 1)

/-- J0 (04 R98, R111): the trace filter, the partner item, RS_TIM. -/
def sdhJ0 (p : Nat) (f : SdhOh) (t : Time) (d : Dev) : Dev :=
  match d.port p with
  | none => d
  | some x =>
    let j := traceStep (j0Fmt x.sdh) x.sdh.j0f f.j0 f.poisoned t
    let d := d.modPort p fun y => { y with sdh := { y.sdh with j0f := j } }
    let d := match j.acc with
      | some os => if j.acc = x.sdh.j0f.acc then d else setPartner p 7 0 (packWords os) t d
      | none => d
    setTim (secKey p) .rsTim true x.sdh.j0.exp j.acc t d

/-- A first-level VC of an AU key. -/
def tribOfAu (d : Dev) (p key : Nat) : Option Nat :=
  (servedTribs d p).find? fun n => match d.trib n with | some y => isVc y.typ && auKeyOf y == key | none => false

/-- The words that a packer has made go to the owner, and the marks of its container frames into the context (04 R104):
those of the frame in hand, if there was one before, in place of what the context had of it. -/
def sendPacked (n : Nat) (had : Bool) (p : Packer) (d : Dev) : Dev :=
  toOwner n p.out (d.modTrib n fun x => { x with just := (if had then x.just.dropLast else x.just) ++ p.marks })

/-- The packer without the words sent: it keeps the marks of the frame in hand. -/
def Packer.rest (p : Packer) : Packer := { p with out := [], marks := p.marks.drop (p.marks.length - 1) }

/-- An AU's pointer and words (04 R102-R104): the interpreter, its defects, and its VC's octets. -/
def sdhAu (p : Nat) (x : Port) (os : List Octet) (bad : List Nat) (key : Nat) (t : Time) (d : Dev) : Dev :=
  let y := (structPort d p x).sdh
  let n := stmN x.typ
  let a := key / 3
  let au3 := if augKind y a = 1 then some (key % 3) else none
  let old := tgetD x.sdh.ptrs key {}
  let (h1, h2) := ptrPlaces n a au3
  let w := os.getD h1 0 ++ os.getD h2 0
  if augKind y a = 2 then
    -- a later AU-4 follows the first one's pointer and state
    let head := match d.port p with | some z => tgetD z.sdh.ptrs (3 * auHead y a) {} | none => {}
    let run := if ptrClass 782 head.act w true = .conc then 0 else old.invRun + 1
    d.modPort p fun z => { z with sdh := { z.sdh with ptrs := tput z.sdh.ptrs key { head with invRun := run } } }
  else
    let (r, ev) := old.step 782 w
    let live := r.st == .norm
    let pk0 := tgetD x.sdh.packs key {}
    let at_ := fun i => (os.getD i 0, bad.contains (i / 4))
    let pk := if live then pk0.frame (auFrame n a (auX y a) au3 at_) old.act r.act r.stuff else {}
    let d := d.modPort p fun z => { z with sdh := { z.sdh with
      ptrs := tput z.sdh.ptrs key r, packs := tput z.sdh.packs key pk.rest } }
    match tribOfAu d p key with
    | none => d
    | some k =>
      let d := match ev with | some c => addCnt (pathKey k) c 1 d | none => d
      let d := ptrDefects (pathKey k) r.st (decide (t < y.augTime + 8 * frame)) t d
      if live then sendPacked k (!pk0.marks.isEmpty) pk d else d

/-- Octets of a byte group that a bound overhead tributary takes, the most significant bit first, as words of four octets
to its owner (04 R95; 05 R133). -/
def toOverhead (ns : List Nat) (group : Nat) (os : List Octet) (bad : Bool) (d : Dev) : Dev :=
  match ns.find? fun n => match d.trib n with | some y => y.typ == 0x2D && fld y.pos 3 0 == group | none => false with
  | none => d
  | some n =>
    match d.trib n with
    | none => d
    | some y =>
      let all := y.ohIn ++ os
      let k := all.length / 4 * 4
      toOwner n (octetWords tagData (all.take k) bad) (d.modTrib n fun z => { z with ohIn := all.drop k })

/-- A frame in IF (04 R86, R89, R90, R100). -/
def sdhProcess (p : Nat) (f : SdhFrame) (t : Time) (d : Dev) : Dev :=
  match d.port p with
  | none => d
  | some x =>
    let n := stmN x.typ
    let os := sdhScramble n f.octets
    let h := sdhOverhead n (reiWide x.typ x.sdh.reiExt) f.octets os f.bad
    let d := sdhBips p x h (rxFrame p t d)
    let d := if h.poisoned then d else sdhS1 p h t (sdhK p h t d)
    let d := sdhJ0 p h t d
    let d := (auKeys x.typ (structPort d p x).sdh).foldl (fun d k => sdhAu p x os f.bad k t d) d
    let d := [0, 1, 2, 3, 4].foldl (fun d g =>
      toOverhead (servedTribs d p) g (ohField n os false g) h.poisoned d) d
    let d := d.modPort p fun y => { y with sdh := { y.sdh with last := h.groups } }
    sdhWords p t d

/-- SDH_RX_FRAME (04 R85, R86): the frame at the expected position; its pattern lies in the row that is not scrambled. -/
def execSdhRxFrame (port : Nat) (f : SdhFrame) (s : State) : Out :=
  s.run (gRun fun t d =>
    match d.port port with
    | none => d
    | some x =>
      let errored := patternErrored (stmN x.typ) f.octets
      if !isSdh x.typ then d
      else match x.fr.st with
        | .oof => d
        | .presync =>
          if errored then d.modPort port fun x => { x with fr := { x.fr with st := .oof } }
          else sdhProcess port f t (portInFrame port t (d.modPort port fun y => { y with
            sdh := { y.sdh with b1 := none, b2 := none, packs := [] }, entered := true }))
        | .inFrame =>
          let run := if errored then x.fr.errRun + 1 else 0
          if x.sdh.nOof ≤ run then sdhWords port t (portOof port t d)
          else sdhProcess port f t (d.modPort port fun x => { x with fr := { x.fr with errRun := run } }))

/-- SDH_LOM_CHANGE (04 R108): 8 frames of OOM or IM of a path's H4 multiframe. -/
def execSdhLomChange (t : Nat) (s : State) : Out :=
  s.run (gRun fun tm d =>
    match d.trib t with
    | none => d
    | some x =>
      let m := x.h4
      if !(decide (0x10 ≤ x.typ) && decide (x.typ ≤ 0x12)) || m.accum < 8 || m.lom != m.im then d
      else tuWords t tm (setDef (pathKey t) .lom (!m.im) tm (d.modTrib t fun y => { y with h4 := { m with lom := !m.im } })))

/-! ### SDH_PORT_CONFIG -/

def cmdSdhPortConfig : Cmd := {
  code := 0x0210, n := 8, kind := .config, vf := true
  mask := [(4, portMask), (5, bitsMask 31 26 + bitsMask 11 11 + bitsMask 9 0)]
  enc := fun ws => if fld (ws.getD 5 0) 28 27 = 3 then [(5, 28, 27)] else []
  perm := ownsPort
  chk := fun x d =>
    let typ := match d.port x.port with | some p => p.typ | none => 0
    let q := portOfWord (x.w 5).toNat
    let peerOk := match d.port q with | some y => y.typ == typ && q != x.port | none => false
    firstErr [
      need (isSdh typ) (badArg 4 0),
      need (!bitAt (x.w 5) 26 || peerOk) (badArg 5 0)]
  obj := fun x _ => .port x.port
  key := fun ws => some (ws.getD 4 0, 0)
  apply := fun c _ _ d =>
    let w := c.w 5
    d.modPort c.port fun x => { x with sdh := { x.sdh with
      sonet := bitAt w 31, nOof := if bitAt w 30 then 5 else 4, reiExt := bitAt w 29, mseX := 3 + fld w 28 27
      peer := if bitAt w 26 then some (portOfWord w.toNat) else none } } }

/-! ### SDH_STRUCT_SET -/

/-- Two-bit codes of a word, first in [31:30]. -/
def codes2 (w : Word) : List Nat := (List.range 16).map fun i => fld w (31 - 2 * i) (30 - 2 * i)

/-- The AUG-1 codes of the fragments of a port form. -/
def augCodes (msgs : List (List Word)) : List Nat := msgs.flatMap fun ws => ((ws.drop 6).take 8).flatMap codes2

/-- TUG-3 codes 1 to 3 of [5:0], and TUG-2 codes 1 to 21 of W6 and W7. -/
def tug3Codes (w : Word) : List Nat := [fld w 5 4, fld w 3 2, fld w 1 0]
def tug2Codes (a b : Word) : List Nat := (codes2 a ++ codes2 b).take 21

def cmdSdhStructSet : Cmd := {
  code := 0x0211, n := 16, kind := .config, vf := true
  mask := [(4, tOrPortMask), (5, bitsMask 31 31 + bitsMask 7 0)] ++ (List.range 8).map fun i => (6 + i, anyW)
  enc := fun ws =>
    let w := ws.getD 5 0
    tOrPortEnc ws ++
      (if bitAt (ws.getD 4 0) 31 then
        (if bitAt w 31 then [(5, 31, 31)] else []) ++ (if fld w 7 6 = 0 then [] else [(5, 7, 6)])
          ++ (if (tug3Codes w).any (2 ≤ ·) then [(5, 5, 0)] else [])
          ++ (if (tug2Codes (ws.getD 6 0) (ws.getD 7 0)).any (· == 3) then [(6, 31, 0)] else [])
          ++ (if fld (ws.getD 7 0) 21 0 = 0 then [] else [(7, 21, 0)])
          ++ ((List.range 6).filterMap fun i => if ws.getD (8 + i) 0 = 0 then none else some (8 + i, 31, 0))
      else [])
  perm := ownsTOrPort
  frag := some fun ws =>
    let w := ws.getD 5 0
    if bitAt (ws.getD 4 0) 31 then ⟨true, true, 0, 0, [], 5, 0⟩
    else ⟨fld w 7 0 == 0, bitAt w 31, fld w 7 0, 128, [ws.getD 4 0], 5, 0⟩
  chk := fun x d =>
    match tOrPort (x.w 4) with
    | .trib n => match d.trib n with
      | none => some (badArg 4 0)
      | some y =>
        firstErr [
          need (y.typ == 0x11 || y.typ == 0x12) (badArg 4 0),
          need (y.typ == 0x11 || fld (x.w 5) 5 0 == 0) (badArg 5 0)]
    | .port p => match d.port p with
      | none => some (badArg 4 0)
      | some y =>
        let n := stmN y.typ
        let cs := augCodes x.msgs
        firstErr [
          need (isSdh y.typ) (badArg 4 0),
          need (decide (n ≤ cs.length) && decide (cs.length < n + 128)) (badArg 5 0),
          need (augOk 0 0 (cs.take n) && (cs.drop n).all (· == 0)) (badArg 6 0)]
    | _ => none
  obj := fun x _ => tOrPort (x.w 4)
  parts := fun x d => match tOrPort (x.w 4) with | .trib n => contParts d n | .port p => portParts p | _ => [.octet]
  key := fun ws => some (ws.getD 4 0, ws.getD 5 0 &&& 0xFF)
  apply := fun c p t d =>
    let tx := match p with | .frame _ .tx => true | _ => false
    match tOrPort (c.w 4) with
    | .trib n =>
      if tx then d
      else d.modTrib n fun x => { x with tug3 := tug3Codes (c.w 5), tug2 := tug2Codes (c.w 6) (c.w 7) }
    | .port p =>
      let cs := fun y : Port => (augCodes c.msgs).take (stmN y.typ)
      if tx then d.modPort p fun y => { y with sdh := { y.sdh with augTx := cs y } }
      else sdhWords p t (d.modPort p fun y => { y with sdh := { y.sdh with aug := cs y, augTime := t, ptrs := [] } })
    | _ => d }

/-! ### SDH_OH_CONFIG -/

/-- Sources that R90 and R109 offer for a field code, by port or VC form. -/
def sdhOffers (vc : Bool) (f : Nat) : List Nat :=
  if vc then
    (if f = 0x14 ∨ f = 0x15 ∨ f = 0x17 then [0, 1] else if f = 0x16 then [0, 1] else [])
  else if f ≤ 4 then [0, 2, 3]
  else if f = 0x10 ∨ f = 0x11 then [0, 1, 3]
  else if f = 0x12 then [0, 3]
  else if f = 0x13 then [0, 1]
  else []

def cmdSdhOhConfig : Cmd := {
  code := 0x0212, n := 8, kind := .config, vf := true
  mask := [(4, tOrPortMask), (5, bitsMask 31 20 + bitsMask 7 0)]
  enc := fun ws => tOrPortEnc ws ++ ohEnc ws
  perm := ownsTOrPort
  chk := fun x d =>
    let f := fld (x.w 5) 31 24
    let vc := bitAt (x.w 4) 31
    let ok := match tOrPort (x.w 4) with
      | .trib n => (match d.trib n with | some y => isVc y.typ | none => false)
      | .port p => (match d.port p with | some y => isSdh y.typ | none => false)
      | _ => false
    firstErr [
      need ok (badArg 4 0),
      need (!(sdhOffers vc f).isEmpty) (badArg 5 24),
      need ((sdhOffers vc f).contains (fld (x.w 5) 23 20)) (badArg 5 20),
      need (f != 0x16 || fld (x.w 5) 7 0 == 0) (badArg 5 0)]
  obj := fun x _ => tOrPort (x.w 4)
  parts := fun x d =>
    match tOrPort (x.w 4) with
    | .trib n => [.frame (contSrc d n) (if fld (x.w 5) 31 24 = 0x15 then .rx else .tx)]
    | o => [.frame o .tx]
  key := fun ws => some (ws.getD 4 0, ws.getD 5 0 &&& wd 0xFF000000)
  apply := fun c _ t d =>
    let w := c.w 5
    let f := fld w 31 24
    let src := fld w 23 20
    let v := fld w 7 0
    match tOrPort (c.w 4) with
    | .port p => d.modPort p fun y => { y with sdh := { y.sdh with oh := tput y.sdh.oh f (src, v) } }
    | .trib n =>
      if f = 0x14 then d.modTrib n fun y => { y with txLabel := if src = 0 then 0 else v }
      else if f = 0x15 then
        labelDefects n t (d.modTrib n fun y => { y with expLabel := if src = 0 then none else some v })
      else d.modTrib n fun y => { y with oh := tput y.oh f (src, v) }
    | _ => d }

end Sys2Proof.Machine
end

