-- ==== Sys2Proof/Machine/OtnBytes.lean ====
section
/-!
DEFINITION. The octets of OTU and ODU frames: places of the overhead, scrambling, BIP-8, and Reed-Solomon coding (05 R116,
R120, R125-R131). A place is a row and a column from 0; an OTUk row has 4,080 columns, a row of an ODU or of an OTUC slice
3,824.
-/
namespace Sys2Proof.Machine

/-! ### Reed-Solomon codes (05 R125; 06 R144)

RS(255,239) over GF(2^8) with x^8 + x^4 + x^3 + x^2 + 1, RS(544,514) over GF(2^10) with x^10 + x^3 + 1, each generator
polynomial with the roots α^0 on: G.709 Annex A and G.709.1 (PRESUMED, log entry 77). Polynomials are lists of
coefficients, the lowest first. -/

/-- A field GF(2^m) by its polynomial. -/
structure Gf where
  m : Nat
  poly : Nat
deriving DecidableEq, Repr

def gf8 : Gf := ⟨8, 0x11D⟩
def gf10 : Gf := ⟨10, 0x409⟩

/-- Product: `b`'s bits from the highest, doubling with reduction. -/
def Gf.mul (g : Gf) (a b : Nat) : Nat :=
  (natBits g.m b).foldl (fun r bit =>
    let r := 2 * r
    let r := if r.testBit g.m then r ^^^ g.poly else r
    if bit then r ^^^ a else r) 0

/-- a^e, by the bits of the exponent. -/
def Gf.pow (g : Gf) (a e : Nat) : Nat :=
  (natBits 16 e).foldl (fun r bit => let r := g.mul r r; if bit then g.mul r a else r) 1

def Gf.inv (g : Gf) (a : Nat) : Nat := g.pow a (2 ^ g.m - 2)

/-- α^i, of the exponent modulo the order. -/
def Gf.exp (g : Gf) (i : Nat) : Nat := g.pow 2 (i % (2 ^ g.m - 1))

def Gf.eval (g : Gf) (p : List Nat) (x : Nat) : Nat := p.foldr (fun c r => g.mul r x ^^^ c) 0

def polyAdd : List Nat → List Nat → List Nat
  | [], q => q
  | p, [] => p
  | a :: p, b :: q => (a ^^^ b) :: polyAdd p q

def Gf.scale (g : Gf) (k : Nat) (p : List Nat) : List Nat := p.map (g.mul k)

def Gf.times (g : Gf) : List Nat → List Nat → List Nat
  | [], _ => []
  | a :: p, q => polyAdd (g.scale a q) (0 :: g.times p q)

/-- The formal derivative. -/
def polyDeriv (p : List Nat) : List Nat := (p.zipIdx.drop 1).map fun e => if e.2 % 2 = 1 then e.1 else 0

/-- The generator polynomial with `k` roots. -/
def Gf.gen (g : Gf) (k : Nat) : List Nat := (List.range k).foldl (fun p i => g.times p [g.exp i, 1]) [1]

/-- The parity symbols of data, in the order sent: the remainder of a division by the generator polynomial. -/
def Gf.parity (g : Gf) (k : Nat) (data : List Nat) : List Nat :=
  let gen := ((g.gen k).take k).reverse
  data.foldl (fun reg s =>
    let f := s ^^^ reg.headD 0
    List.zipWith (· ^^^ ·) (reg.drop 1 ++ [0]) (g.scale f gen)) (List.replicate k 0)

/-- The syndromes of a codeword, first symbol of the highest degree. -/
def Gf.syndromes (g : Gf) (k : Nat) (cw : List Nat) : List Nat :=
  (List.range k).map fun j => let a := g.exp j; cw.foldl (fun r s => g.mul r a ^^^ s) 0

/-- The error locator by Berlekamp and Massey, and the number of errors it stands for. -/
structure Bm where
  c : List Nat := [1]
  b : List Nat := [1]
  l : Nat := 0
  gap : Nat := 1
  disc : Nat := 1

def Gf.bmStep (g : Gf) (syn : List Nat) (s : Bm) (n : Nat) : Bm :=
  let d := (List.range (s.l + 1)).foldl (fun r i => r ^^^ g.mul (s.c.getD i 0) (if i ≤ n then syn.getD (n - i) 0 else 0)) 0
  if d = 0 then { s with gap := s.gap + 1 }
  else
    let c := polyAdd s.c (List.replicate s.gap 0 ++ g.scale (g.mul d (g.inv s.disc)) s.b)
    if 2 * s.l ≤ n then { c := c, b := s.c, l := n + 1 - s.l, gap := 1, disc := d }
    else { s with c := c, gap := s.gap + 1 }

/-- A codeword with `k` parity symbols as the decoder corrects it; none where it is uncorrectable. -/
def Gf.decode (g : Gf) (k : Nat) (cw : List Nat) : Option (List Nat) :=
  let syn := g.syndromes k cw
  if syn.all (· == 0) then some cw
  else
    let s := (List.range k).foldl (g.bmStep syn) {}
    let n := cw.length
    let bad := (List.range n).filter fun i => g.eval s.c (g.exp (2 ^ g.m - 1 - (n - 1 - i) % (2 ^ g.m - 1))) == 0
    if k < 2 * s.l || bad.length != s.l then none
    else
      let omega := (g.times syn s.c).take k
      let der := polyDeriv s.c
      some (cw.zipIdx.map fun e =>
        if bad.contains e.2 then
          let x := g.exp (n - 1 - e.2)
          let y := g.inv x
          e.1 ^^^ g.mul x (g.mul (g.eval omega y) (g.inv (g.eval der y)))
        else e.1)

/-- What a decoder counts of one codeword as received and as corrected (05 R126). -/
def fecCount (m : Nat) (cw : List Nat) : Option (List Nat) → FecCounts
  | none => ⟨1, 0, 0, 0, 0, 1⟩
  | some fix =>
    let e := cw.zip fix
    let bits := fun f : Nat × Nat → Nat => (e.map fun p => popCount m (f p)).foldl (· + ·) 0
    ⟨1, bits fun p => p.1 ^^^ p.2, bits fun p => p.1 &&& (p.1 ^^^ p.2), bits fun p => p.2 &&& (p.1 ^^^ p.2),
      (e.filter fun p => p.1 != p.2).length, 0⟩

def FecCounts.add (a b : FecCounts) : FecCounts :=
  ⟨a.cw + b.cw, a.bits + b.bits, a.ones + b.ones, a.zeros + b.zeros, a.sym + b.sym, a.uncorr + b.uncorr⟩

/-! ### The FEC of an OTUk: 16 codewords interleaved in a row (05 R125) -/

/-- Symbols `i`, `i` + 16 and so on of a row. -/
def deal (i : Nat) (row : List Octet) : List Nat := (row.zipIdx.filter fun e => e.2 % 16 == i).map fun e => e.1.toNat

/-- Sixteen codewords as the row that interleaves them. -/
def undeal (cs : List (List Nat)) (len : Nat) : List Octet :=
  (List.range len).map fun i => BitVec.ofNat 8 ((cs.getD (i % 16) []).getD (i / 16) 0)

/-- A decoded row: its octets as forwarded, the counts, and the interleaved codewords that are uncorrectable. -/
structure RowFec where
  octets : List Octet
  counts : FecCounts
  uncorr : List Nat

def rowDecode (correct : Bool) (row : List Octet) : RowFec :=
  let cws := (List.range 16).map fun i => deal i row
  let res := cws.map (gf8.decode 16)
  { octets := if correct then undeal (List.zipWith (fun c r => r.getD c) cws res) row.length else row
    counts := (List.zipWith (fecCount 8) cws res).foldl FecCounts.add ⟨0, 0, 0, 0, 0, 0⟩
    uncorr := (List.range 16).filter fun i => (res.getD i none).isNone }

/-- A row of 3,824 octets with its 256 of FEC, 0x00 in mode OFF (05 R125). -/
def rowEncode (off : Bool) (row : List Octet) : List Octet :=
  row ++ (if off then List.replicate 256 0 else undeal ((List.range 16).map fun i => gf8.parity 16 (deal i row)) 256)

/-! ### Scrambling (05 R120) -/

/-- 1 + x + x^3 + x^12 + x^16 from 0xFFFF at the MFAS; the FAS is not scrambled. It is its own inverse. -/
def otuScramble (os : List Octet) : List Octet := os.take 6 ++ scramble 16 [1, 3, 12, 16] (os.drop 6)

/-! ### Fields (05 R129-R131) -/

/-- FAS bytes 2 to 5 have a bit error (05 R116). -/
def fasErrored (os : List Octet) : Bool := (os.drop 1).take 4 != [0xF6, 0xF6, 0x28, 0x28]

/-- FAS (05 R129). -/
def fasOctets : List Octet := [0xF6, 0xF6, 0xF6, 0x28, 0x28, 0x28]

/-- The rows of a frame. -/
def rowsOf (len : Nat) (os : List Octet) : List (List Octet) := (List.range 4).map fun r => (os.drop (len * r)).take len

/-- The octets of an ODU in an OTUk frame: columns 1 to 3,824. -/
def oduOf (os : List Octet) : List Octet := (rowsOf 4080 os).flatMap fun r => r.take 3824

/-- The first place of a field in a frame of 3,824 columns, and its octets: codes of R394, 0x30 for PM and 0x30 + i for TCMi,
0x38 APS/PCC, 0x39 FTFL, 0x3A PSI, 0x3F SM. -/
def oduPlace (f : Nat) : Nat × Nat :=
  match f with
  | 0x05 => (10, 2)
  | 0x06 => (3 * 3824, 2)
  | 0x07 => (3 * 3824 + 2, 2)
  | 0x30 => (2 * 3824 + 9, 3)
  | 0x31 => (2 * 3824 + 6, 3)
  | 0x32 => (2 * 3824 + 3, 3)
  | 0x33 => (2 * 3824, 3)
  | 0x34 => (3824 + 9, 3)
  | 0x35 => (3824 + 6, 3)
  | 0x36 => (3824 + 3, 3)
  | 0x38 => (3 * 3824 + 4, 4)
  | 0x39 => (3824 + 12, 1)
  | 0x3A => (3 * 3824 + 14, 1)
  | _ => (7, 3)

/-- The octets of a field of an ODU, or of the OTU overhead beside it. -/
def oduField (os : List Octet) (f : Nat) : List Octet := (os.drop (oduPlace f).1).take (oduPlace f).2

/-- The BIP-8 over columns 15 to 3,824 (05 R131). -/
def opuBip (os : List Octet) : Octet := bip8 ((rowsOf 3824 os).flatMap fun r => r.drop 14)

/-- Does a lane word of a frame hold an octet of a field (05 R136)? -/
def fieldBad (bad : List Nat) (f : Nat) : Bool :=
  bad.any fun w => decide (4 * w < (oduPlace f).1 + (oduPlace f).2) && decide ((oduPlace f).1 < 4 * w + 4)

/-- Octets with runs of octets put in at places. -/
def patch (os : List Octet) (fs : List (Nat × List Octet)) : List Octet :=
  fs.foldl (fun os f => os.take f.1 ++ f.2 ++ os.drop (f.1 + f.2.length)) os

end Sys2Proof.Machine
end

