-- ==== Sys2Proof/Machine/Otn.lean ====
section
/-!
DEFINITION. OTN receive framing: OTU, FlexO and ODU frames, overhead filters and defects, FEC signal degrade, and the
multiplexing structure (05 R113-R141; 10 R232, R242).
-/
namespace Sys2Proof.Machine

/-! ### Multiplexing structure (05 R137; 07 R187) -/

/-- Tributary slots of a server under a PT, `n` the slices of an ODUCn; 0 for a pair that R137 does not list. -/
def tsCount (typ pt n : Nat) : Nat :=
  match typ, pt with
  | 0x02, 0x20 => 2
  | 0x03, 0x21 => 8
  | 0x03, 0x20 => 4
  | 0x05, 0x21 => 32
  | 0x05, 0x20 => 16
  | 0x06, 0x21 => 80
  | 0x0A, 0x22 => 20 * n
  | _, _ => 0

/-- Nominal rate of a tributary slot in bit/s, as G.709 gives (log entry 20). -/
def tsRate (typ : Nat) : Nat :=
  match typ with
  | 0x03 => 1249177230
  | 0x05 => 1254470354
  | 0x06 => 1301709251
  | 0x0A => 5240886372
  | _ => 0

def isFlex (typ : Nat) : Bool := typ == 0x07 || typ == 0x08 || typ == 0x09

/-- The least n with n × slot rate × (1 − 100 ppm) ≥ rate × (1 + 100 ppm) (07 R187). -/
def flexSlots (typ kbps : Nat) : Nat :=
  let need := kbps * 1000 * 1000100
  let one := tsRate typ * 999900
  if one = 0 then 0 else (need + one - 1) / one

/-- The slot count that a client takes in a server under a PT; 0 where R137 does not list it (log entry 20). -/
def odtuSlots (typ pt client kbps : Nat) : Nat :=
  match typ, pt with
  | 0x02, 0x20 => if client = 0x01 then 1 else 0
  | 0x03, 0x21 => if client = 0x01 then 1 else if client = 0x02 then 2 else if isFlex client then flexSlots typ kbps else 0
  | 0x03, 0x20 => if client = 0x02 then 1 else 0
  | 0x05, 0x21 =>
    (match client with
      | 0x01 => 1 | 0x02 => 2 | 0x03 => 8 | 0x04 => 9
      | _ => if isFlex client then flexSlots typ kbps else 0)
  | 0x05, 0x20 => if client = 0x02 then 1 else if client = 0x03 then 4 else 0
  | 0x06, 0x21 =>
    (match client with
      | 0x01 => 1 | 0x02 => 2 | 0x03 => 8 | 0x04 => 8 | 0x05 => 31
      | _ => if isFlex client then flexSlots typ kbps else 0)
  | 0x0A, 0x22 =>
    (match client with
      | 0x01 => 1 | 0x02 => 1 | 0x03 => 2 | 0x04 => 2 | 0x05 => 8 | 0x06 => 20
      | _ => if isFlex client then flexSlots typ kbps else 0)
  | _, _ => 0

/-- n of an ODUCn: that of its OTUCn port. -/
def oduN (d : Dev) (x : Trib) : Nat :=
  match x.port with
  | some p => (match d.port p with | some y => portN d y | none => 0)
  | none => 0

/-- Slots of a server as it is set. -/
def serverSlots (d : Dev) (x : Trib) : Nat := tsCount x.typ x.structPt (oduN d x)

/-! ### Payload type and MSI (05 R135) -/

/-- The MSI octets of a slot that a client holds, as G.709 codes them (log entry 20). -/
def msiOf (typ pt client port : Nat) : List Octet :=
  match typ, pt with
  | 0x02, _ => [BitVec.ofNat 8 (0xC0 + port % 64)]
  | 0x03, 0x20 => [BitVec.ofNat 8 (port % 64)]
  | 0x03, _ => [BitVec.ofNat 8 ((if client = 0x02 then 0 else 0x80) + port % 64)]
  | 0x05, _ => [BitVec.ofNat 8 ((if client = 0x02 then 0 else if client = 0x03 then 0x40 else 0x80) + port % 64)]
  | 0x06, _ => [BitVec.ofNat 8 (0x80 + port % 128)]
  | _, _ => [BitVec.ofNat 8 (port / 128 % 128), BitVec.ofNat 8 (0x80 + port % 128)]

/-- The MSI octets of a free slot. -/
def msiFree (typ : Nat) : List Octet :=
  match typ with | 0x06 => [0] | 0x0A => [0, 0] | _ => [0xC0]

/-- The configured MSI, by slot. -/
def msiExpected (d : Dev) (n : Nat) (x : Trib) : List (List Octet) :=
  let kids := (kidsOf d n).filterMap fun c => d.trib c
  (List.range (serverSlots d x)).map fun s =>
    match kids.find? fun y => (tsSlots y.tsMap).contains s with
    | some y => msiOf x.typ x.structPt y.typ (fld y.pos 23 16)
    | none => msiFree x.typ

/-- The MSI octets by slot, in the part of a PSI message of `n` slices from PSI [2] on: an ODUCn has two for each of the 20
slots of a slice, in the PSI of that slice. -/
def msiGroups (typ slots n : Nat) (msi : List Octet) : List (List Octet) :=
  if typ = 0x0A then
    (List.range slots).map fun s =>
      let b := 2 * (s % 20)
      [msi.getD (b * n + s / 20) 0, msi.getD ((b + 1) * n + s / 20) 0]
  else (List.range slots).map fun s => [msi.getD s 0]

/-- The PT that G.709 assigns to a mapping (07 R180; log entry 20). -/
def mapPt (server : Nat) (x : Trib) : Nat :=
  match x.method with
  | 1 => 0x02
  | 2 => 0x03
  | 3 => if x.typ = 0x20 then 0x0A else if x.typ = 0x21 then 0x0B else if server = 0x06 then 0x07 else 0x02
  | 6 => 0x05
  | _ => 0x1D

/-- The PT sent, and expected unless the host sets another: the structure's, or that of the mapping. -/
def ownPt (d : Dev) (n : Nat) (x : Trib) : Option Nat :=
  let kids := (kidsOf d n).filterMap fun c => d.trib c
  if kids.any fun y => isOdu y.typ then some x.structPt
  else match kids.find? fun y => y.typ != 0x2D with
    | some y => some (mapPt x.typ y)
    | none => none

def expPtOf (d : Dev) (n : Nat) (x : Trib) : Option Nat := match x.expPt with | some p => some p | none => ownPt d n x

/-- ODU_PLM and ODU_MSIM of a terminated ODU from its accepted PT and MSI (05 R135; 10 R232). -/
def psiDefects (n : Nat) (t : Time) (d : Dev) : Dev :=
  match d.trib n with
  | none => d
  | some x =>
    let term := !(kidsOf d n).isEmpty
    let plm := term && (match x.pt.acc, expPtOf d n x with | some a, some e => a != e | _, _ => false)
    let bad := match x.psi.acc with
      | some msg =>
        if !term || x.structPt = 0 then []
        else
          let want := msiExpected d n x
          let got := msiGroups x.typ (serverSlots d x) (max 1 (oduN d x)) msg
          (List.range (serverSlots d x)).filter fun s => got.getD s [] != want.getD s []
      | none => []
    let d := if x.msiBad = bad then d else refresh t (d.modTrib n fun y => { y with msiBad := bad })
    setDef (pathKey n) .oduMsim (!bad.isEmpty) t (setDef (pathKey n) .oduPlm plm t d)

/-! ### Fields SM, PM and TCM (05 R130, R131) -/

/-- One monitored overhead field of an OTU or ODU: TTI byte of slice 1, and BIP-8 and third byte of each OTUC slice (one for
an OTUk or ODUk). -/
structure TcmField where
  tti : Octet
  bip : List Octet
  b3 : List Octet

/-- The overhead of a received ODU frame, with the BIP-8 computed over each slice of its OPU. `psi` has one octet per slice;
`bad` holds the layers with a poisoned overhead word: 0 the path, 1 to 6 the TCM levels. -/
structure OduOh where
  own : List Octet
  pm : TcmField
  tcm : List TcmField
  ftfl : Octet
  psi : List Octet
  aps : Word
  gcc1 : List Octet
  gcc2 : List Octet
  bad : List Nat

/-- A field of the slices of a frame. -/
def fieldOf (ss : List (List Octet)) (f : Nat) : TcmField :=
  let at_ := fun i => ss.map fun os => (oduField os f).getD i 0
  ⟨(at_ 0).headD 0, at_ 1, at_ 2⟩

/-- The overhead of the slices of an ODU frame, with the poisoned lane words of each slice (05 R129, R134-R136). -/
def oduOhOf (ss : List (List Octet)) (bad : List (List Nat)) : OduOh :=
  let first := fun f => oduField (ss.headD []) f
  let hit := fun fs : List Nat => bad.any fun b => fs.any (fieldBad b)
  { own := ss.map opuBip, pm := fieldOf ss 0x30, tcm := (List.range 6).map fun i => fieldOf ss (0x31 + i)
    ftfl := (first 0x39).headD 0, psi := ss.map fun os => (oduField os 0x3A).headD 0, aps := (packWords (first 0x38)).headD 0
    gcc1 := first 0x06, gcc2 := first 0x07
    bad := (if hit [0x30, 0x38, 0x39, 0x3A] then [0] else []) ++
      ((List.range 6).map (· + 1)).filter fun i => hit [0x30 + i] }

/-- One frame's octets of a message sent one octet per frame and slice at index `i` of `n`: accepted when identical
in 3 consecutive multiframes (05 R135, R136). -/
def mfStep (n i : Nat) (f : FiltL) (os : List Octet) (poisoned : Bool) (t : Time) : FiltL :=
  let g := if i = 0 then { f with asm := os, skip := poisoned }
    else if !f.asm.isEmpty && f.asm.length == i * os.length then { f with asm := f.asm ++ os, skip := f.skip || poisoned }
    else { f with asm := [], skip := false }
  if i + 1 = n ∧ g.asm.length = n * os.length ∧ !os.isEmpty then g.message 3 g.asm true t else g

/-- Mismatched bits of the BIP-8 of a frame by slice, 0 to 8 each: against the OPU two frames before, if that frame was
received in IF. -/
def OhField.errs (f : OhField) (x : TcmField) : Option (List Nat) :=
  match f.bips with
  | _ :: b :: _ => some ((x.bip.zip b).map fun e => popCount 8 (e.1 ^^^ e.2).toNat)
  | _ => none

/-- The BEI of a frame, summed over its slices; BIAE and values above 8 count as 0. -/
def beiOf (x : TcmField) : Nat :=
  x.b3.foldl (fun a b => a + (if b.toNat / 16 ≤ 8 then b.toNat / 16 else 0)) 0

/-- The next value of a field: filters held where `hold`, a poisoned frame outside every acceptance run. -/
def OhField.next (f : OhField) (x : TcmField) (own : List Octet) (hold poisoned im : Bool) (mfas : Nat) (t : Time) : OhField :=
  let bdi := x.b3.any fun b => b.getLsbD 3
  let run := if bdi == f.bdi then 0 else f.bdiRun + 1
  let g := if hold || poisoned then f else { f with
    stat := f.stat.step 3 ((x.b3.headD 0).toNat % 8) t
    bdi := if run = 5 then bdi else f.bdi, bdiRun := if run = 5 then 0 else run }
  let g := if hold || !im then g else { g with tti := mfStep 64 (mfas % 64) f.tti [x.tti] poisoned t }
  { g with bips := (own :: f.bips).take 2 }

/-- Blocks of a field's layer: a frame with IAE, or without a BIP to check against, is received only; so is
an indeterminate one, which is counted as such (09 R228; 10 R242). -/
def fieldBlocks (k : Nat) (f : OhField) (x : TcmField) (iae indet : Bool) (bdi : Def) (d : Dev) : Dev :=
  let e := (f.errs x).map fun l => l.foldl (· + ·) 0
  let d := addCnt k 0x07 (b2n indet) (blockRx k (e.getD 0) (e.isSome && !iae && !indet) d)
  farDef k (hasDef d k bdi) (farRx k (beiOf x) d)

/-- What the field sends back in its next frame: BEI, 0 during aTSF, or BIAE (05 R131; 10 R239). -/
def OhField.back (f g : OhField) (x : TcmField) (iae tsf : Bool) : OhField :=
  { g with bei := if tsf || iae then [] else (f.errs x).getD [], biae := iae && !tsf }

/-- Defects of an accepted STAT (10 R232). -/
def statDefects (k : Nat) (tcm : Bool) (acc : Option Nat) (t : Time) (d : Dev) : Dev :=
  match acc with
  | none => d
  | some v =>
    let ais := v == 7 || v == 3 || v == 4 || (!tcm && (v == 0 || v == 2))
    setDef k .oduAis ais t (setDef k .oduOci (v == 6) t (setDef k .oduLck (v == 5) t (setDef k .oduLtc (tcm && v == 0) t d)))

/-- The expected trace of an ODU by its code. -/
def expTrace (x : Trib) (code : Nat) : Option (List Octet) := (tgetD x.traces code {}).exp

/-- One TCM level of an ODU frame, in MONITOR or TERMINATE (05 R132). -/
def tcmRx (n lvl : Nat) (x : TcmField) (oh : OduOh) (mfas : Nat) (im : Bool) (t : Time) (d : Dev) : Dev :=
  match d.trib n with
  | none => d
  | some y =>
    let f := tgetD y.tcm lvl {}
    if f.sink = 0 then d
    else
      let k := tcmKey lvl n
      let iae := (x.b3.headD 0).toNat % 8 == 2
      let ind := y.badWords.any fun w => w == 24 || w == 25
      let d := fieldBlocks k f x iae ind .oduBdi d
      let g := f.next x oh.own (d.layer k).ssf (oh.bad.contains lvl) im mfas t
      let d := d.modTrib n fun y => { y with tcm := tput y.tcm lvl g }
      let d := statDefects k true g.stat.acc t d
      let d := setTim k .oduTim false (expTrace y (5 + lvl)) g.tti.acc t d
      let d := setDef k .oduBdi g.bdi t d
      d.modTrib n fun y => { y with tcm := tput y.tcm lvl (f.back g x iae ((d.layer k).tsf || ind)) }

/-- The MSI octets accepted, by slot. -/
def msiOctets (d : Dev) (x : Trib) (msi : List Octet) : List Octet :=
  (msiGroups x.typ (serverSlots d x) (max 1 (oduN d x)) msi).flatten

/-- Partner values of the top-level ODU of a port (05 R135; 03 R477). -/
def oduPartner (old : Trib) (n : Nat) (t : Time) (d : Dev) : Dev :=
  match d.trib n with
  | none => d
  | some x =>
    match x.port with
    | none => d
    | some p =>
      let d := match x.pm.tti.acc with
        | some os => if old.pm.tti.acc = some os then d else setPartner p 6 1 (packWords os) t d
        | none => d
      let d := match x.pt.acc with
        | some v => if old.pt.acc = some v then d else setPartner p 6 2 [wd v] t d
        | none => d
      match x.psi.acc with
      | some os => if old.psi.acc = some os then d else setPartner p 6 3 (packWords (msiOctets d x os)) t d
      | none => d

/-- PSI of a frame: PT, of slice 1, and the MSI, PSI [2] on of every slice, are accepted apart (05 R129, R135). -/
def psiStep (x : Trib) (oh : OduOh) (mfas : Nat) (t : Time) : FiltL × Filt :=
  let n := oh.psi.length
  let bad := oh.bad.contains 0
  let g := mfStep 256 mfas { x.psi with cur := none, run := 0 } oh.psi bad t
  let whole := decide (mfas = 255) && decide (x.psi.asm.length = 255 * n) && decide (0 < n)
  if whole && !(x.psi.skip || bad) then
    let msg := x.psi.asm ++ oh.psi
    ((({ x.psi with asm := [], skip := false } : FiltL).step 3 (msg.drop (2 * n)) t), x.pt.step 3 (msg.headD 0).toNat t)
  else ({ x.psi with asm := g.asm, skip := g.skip }, x.pt)

/-- The overhead of a received ODU frame (05 R129-R136). TCM levels come first: a level in TERMINATE fails the path. -/
def oduRx (n : Nat) (oh : OduOh) (mfas : Nat) (im : Bool) (t : Time) (d : Dev) : Dev :=
  match d.trib n with
  | none => d
  | some old =>
    let d := (List.range 6).foldl (fun d i =>
      match oh.tcm[i]? with | some x => tcmRx n (i + 1) x oh mfas im t d | none => d) d
    match d.trib n with
    | none => d
    | some y =>
      let k := pathKey n
      let bad := oh.bad.contains 0
      let hold := (d.layer k).ssf
      let ind := y.badWords.any fun w => w == 24 || w == 25
      let d := fieldBlocks k y.pm oh.pm false ind .oduBdi d
      let g := y.pm.next oh.pm oh.own hold bad im mfas t
      let z := if hold || !im then y else
        let (psi, pt) := psiStep y oh mfas t
        let lvl := mfas % 8
        { y with
          ftfl := mfStep 256 mfas y.ftfl [oh.ftfl] bad t, psi := psi, pt := pt
          aps := if bad then y.aps else tmod y.aps lvl {} fun a => a.step 3 oh.aps.toNat t }
      let d := d.modTrib n fun _ => { z with
        pm := g, chk := [0, wd ((oh.own.headD 0).toNat * 2 ^ 24 + ((y.pm.bips.headD []).headD 0).toNat * 2 ^ 16), z.chk.getD 2 0, z.chk.getD 3 0] }
      let d := statDefects k false g.stat.acc t d
      let d := setTim k .oduTim false (expTrace y 5) g.tti.acc t d
      let d := setDef k .oduBdi g.bdi t d
      let d := psiDefects n t d
      let d := d.modTrib n fun y' => { y' with
        pm := y.pm.back g oh.pm false ((d.layer k).tsf || ind), badWords := y'.badWords.filter fun w => w < 24 || 27 < w }
      let d := toOverhead (kidsOf d n) 7 oh.gcc2 bad (toOverhead (kidsOf d n) 6 oh.gcc1 bad d)
      oduPartner old n t d

/-! ### Multiframe alignment (05 R121) -/

/-- One frame of the multiframe aligner: MFAS against the previous MFAS + 1. -/
def MfAlign.mfas (m : MfAlign) (v : Nat) (t : Time) : MfAlign :=
  let follows := v == (m.exp + 1) % 256
  if m.im then
    if follows then { m with exp := v, run := 0 }
    else if m.run = 4 then { m with im := false, exp := v, run := 1, watch := Watch.restart t true }
    else { m with exp := v, run := m.run + 1 }
  else if m.run ≠ 0 && follows then { m with im := true, exp := v, run := 0, watch := Watch.restart t true }
  else { m with exp := v, run := 1 }

/-- LOM after 3 ms of OOM or of IM in frame. -/
def MfAlign.lomDue (m : MfAlign) (t : Time) : Bool := m.lom == m.im && decide (ms 3 ≤ m.watch.value t)

/-- OTN_LOM_CHANGE: a port's aligner, or that of a lower-order ODU. -/
def execOtnLomChange (o : Obj) (s : State) : Out :=
  s.run (gRun fun t d =>
    match o with
    | .port p => (match d.port p with
      | some x =>
        let m := x.otn.mf
        if isOtn x.typ && m.lomDue t then
          setDef (secKey p) .lom (!m.im) t (d.modPort p fun y => { y with otn := { y.otn with mf := { m with lom := !m.im } } })
        else d
      | none => d)
    | .trib n => (match d.trib n with
      | some x =>
        if isOdu x.typ && x.port.isNone && x.mf.lomDue t then
          setDef (pathKey n) .lom (!x.mf.im) t (d.modTrib n fun y => { y with mf := { x.mf with lom := !x.mf.im } })
        else d
      | none => d)
    | _ => d)

/-- OTN_LOF_CHANGE (05 R118, R139). -/
def execOtnLofChange (o : Obj) (s : State) : Out :=
  s.run (gRun fun t d =>
    match o with
    | .port p => (match d.port p with | some x => if isOtn x.typ then portLof p t d else d | none => d)
    | .trib n => (match d.trib n with
      | some x =>
        if isOdu x.typ && x.port.isNone && x.fr.lof != x.fr.oof && decide (ms 3 ≤ x.fr.watch.value t) then
          setDef (pathKey n) .lof x.fr.oof t (d.modTrib n fun y => { y with fr := { y.fr with lof := x.fr.oof } })
        else d
      | none => d)
    | _ => d)

/-! ### Frames (05 R117-R119, R139) -/

/-- The top-level ODU of a port. -/
def topOdu (d : Dev) (p : Nat) : Option Nat :=
  (tribsOfPort d p).find? fun n => match d.trib n with | some y => isOdu y.typ | none => false

/-- Takes up whether a port delivers ODU words: in IF only. -/
def otnWords (p : Nat) (t : Time) (d : Dev) : Dev :=
  match d.port p, topOdu d p with
  | some x, some n => setWords [n] (fun _ => x.fr.st != .inFrame) t d
  | _, _ => d

/-- All FlexO lanes of a port in lock, and its skew within the limit. -/
def flexoReady (d : Dev) (x : Port) : Bool :=
  !x.otn.skewBad && !laneLos d x && (List.range x.lanes).all fun i => (tgetD x.otn.lanes i {}).locked

/-- OTN_PATTERN_FOUND: the FAS pattern at any bit position of the bits searched, or FlexO deskew complete (05 R116, R117). -/
def execOtnPatternFound (e : Searched) (s : State) : Out :=
  s.run (gRun fun _ d =>
    match d.port e.port with
    | some x =>
      if isOtn x.typ && x.fr.st == .oof
          && (if x.typ = 0x0D then flexoReady d x else bitsHold (lineBits [0xF6, 0xF6, 0x28, 0x28]) e.bits) then
        d.modPort e.port fun x => { x with fr := { x.fr with st := .presync } }
      else d
    | none => d)

/-- Counts of one FEC lane: the port's sum, the lane's own counters, and the interval of FEC_SD (05 R126, R128; 10 R246). -/
def fecRx (p lane : Nat) (c : FecCounts) (d : Dev) : Dev :=
  let vs := [c.cw, c.bits, c.ones, c.zeros, c.sym, c.uncorr]
  let d := (vs.zipIdx).foldl (fun d e => addCnt (secKey p) (0x30 + e.2) e.1 d) d
  d.modPort p fun x => { x with fecs := tmod x.fecs lane {} fun l => { l with
    bits := l.bits + c.bits
    cnt := (vs.zipIdx).foldl (fun t e => tput t e.2 (tgetD t e.2 0 + BitVec.ofNat 40 e.1)) l.cnt } }

/-- What an OTUk line frame holds after descrambling and FEC: the ODU columns, the counts, and the lane words of those
columns that carry a byte of an uncorrectable codeword (05 R120, R125, R127). In OFF the FEC area is ignored. -/
def otukDecode (fec : Nat) (line : List Octet) : List Octet × Option FecCounts × List Nat :=
  let os := otuScramble line
  if fec = 2 then (oduOf os, none, [])
  else
    let rows := (rowsOf 4080 os).map (rowDecode (fec == 0))
    let bad := rows.zipIdx.flatMap fun r => (List.range 956).filterMap fun w =>
      if r.1.uncorr.any fun i => i / 4 == w % 4 then some (956 * r.2 + w) else none
    (rows.flatMap fun r => r.octets.take 3824, some ((rows.map (·.counts)).foldl FecCounts.add ⟨0, 0, 0, 0, 0, 0⟩), bad)

/-- Poisoned lane words of an OTUk frame as those of its ODU columns. -/
def oduBad (bad : List Nat) : List Nat :=
  bad.filterMap fun w => if w % 1020 < 956 then some (956 * (w / 1020) + w % 1020) else none

/-- The place of a FlexO lane in the order of the configured PIDs (05 R124). -/
def laneRank (x : Port) (i : Nat) : Nat :=
  let pids := (x.otn.expPids.take x.lanes).map (·.toNat)
  (pids.filter fun v => decide (v < pids.getD i 0)).length

/-- The OTUC slices of a FlexO lane: one, or two of a lane at 226.875 Gb/s (05 R114). -/
def laneSlices (d : Dev) (x : Port) (i : Nat) : List Nat :=
  let per := max 1 (portN d x / max 1 x.lanes)
  (List.range per).map fun k => per * laneRank x i + k

/-- The octets of a port's frame in ODU columns, its counts, and the poisoned words by slice: as they came, and where
poison_uncorr is set those of uncorrectable codewords. Of a FlexO lane's codewords the model does not know which bytes they
carry: all words of the lane's slices in the frame are poisoned (DESIGN CHOICE, log entry 78). -/
def otuLine (d : Dev) (x : Port) (f : OtuFrame) : List (List Octet) × Option FecCounts × List (List Nat) :=
  if x.typ = 0x0D then
    let hit := if x.otn.poisonUncorr then
        ((List.range x.lanes).filter fun i => (tgetD x.otn.lanes i {}).uncorr).flatMap (laneSlices d x) else []
    (f.slices, none, (List.range f.slices.length).map fun s =>
      if hit.contains s then List.range 3824 else f.bad.getD s [])
  else
    let (os, c, bad) := otukDecode x.otn.fec (f.slices.headD [])
    ([os], c, [oduBad (f.bad.headD []) ++ (if x.otn.poisonUncorr then bad else [])])

/-- The words of an ODU frame: the first a frame start; poisoned as the frame's words are (01 R20; 05 R127). -/
def oduWords (os : List Octet) (bad : List Nat) : List LaneWord :=
  (frameWords os).zipIdx.map fun e => if bad.contains e.2 then lwPoisoned e.1 else e.1

/-- An ODU in the columns of its OTU: without the OTU overhead. -/
def oduIn (os : List Octet) : List Octet := patch os [(7, List.replicate 7 0)]

/-- The words of a top-level ODU go to its owner slice; the frame of an ODUCn stays in its port processor, from where it goes
to the ports of the ODUCns that it feeds (01 R15, R17; 02 R45; 07 R168). -/
def topWords (n : Nat) (ss : List (List Octet)) (bad : List (List Nat)) (t : Time) (d : Dev) : Dev :=
  match d.trib n with
  | none => d
  | some x =>
    if x.typ = 0x0A then
      let hit := bad.zipIdx.flatMap fun b => b.1.map (3824 * b.2 + ·)
      let ws := oduWords (ss.flatMap oduIn) hit
      ((d.fab.xc.filter fun c => c.src == n).map (·.dst)).foldl (fun d c => toCarrier c ws d) (rxCont n t d)
    else toOwner n (oduWords (oduIn (ss.headD [])) (bad.headD [])) d

/-- SM of a frame in IF, the multiframe aligner, and the ODU it carries. -/
def otuProcess (p : Nat) (f : OtuFrame) (t : Time) (d : Dev) : Dev :=
  match d.port p with
  | none => d
  | some x =>
    let k := secKey p
    let (ss, counts, bad) := otuLine d x f
    let os := ss.headD []
    let d := if x.typ = 0x0D then d else rxFrame p t d
    let d := match counts with | some c => fecRx p 0 c d | none => d
    let m := os.getD 6 0
    let mf := x.otn.mf.mfas m.toNat t
    let sm := fieldOf ss 0x3F
    let iae := sm.b3.any fun b => b.getLsbD 2
    let smBad := bad.any fun b => fieldBad b 0x3F
    let gcc0 := oduField os 0x05
    let d := fieldBlocks k x.otn.sm sm iae false .smBdi d
    let g := x.otn.sm.next sm (ss.map opuBip) false smBad mf.im m.toNat t
    let d := d.modPort p fun y => { y with otn := { y.otn with
      mf := mf, sm := g, iae := iae, gcc0 := BitVec.ofNat 16 (beNat gcc0), mfas := m
      lanes := tmap y.otn.lanes fun _ l => { l with uncorr := false } } }
    let d := match g.tti.acc with
      | some os => if x.otn.sm.tti.acc = some os then d else setPartner p 6 0 (packWords os) t d
      | none => d
    let d := setTim k .smTim false x.otn.tti.exp g.tti.acc t d
    let d := setDef k .smBdi g.bdi t d
    let d := d.modPort p fun y => { y with otn := { y.otn with sm := x.otn.sm.back g sm iae (d.layer k).tsf } }
    let d := otnWords p t (toOverhead (servedTribs d p) 5 gcc0 (bad.any fun b => fieldBad b 0x05) d)
    match topOdu d p with
    | some n => oduRx n (oduOhOf ss bad) m.toNat mf.im t (topWords n ss bad t d)
    | none => d

/-- IF is reached: BIP-8 memory is new, and the multiframe aligner's time runs on (05 R121, R131). -/
def otuInFrame (p : Nat) (t : Time) (d : Dev) : Dev :=
  let d := d.modPort p fun y => { y with
    otn := { y.otn with sm := { y.otn.sm with bips := [] }, mf := { y.otn.mf with watch := y.otn.mf.watch.go t } }
    entered := true }
  let d := match topOdu d p with
    | some n => d.modTrib n fun x => { x with
        pm := { x.pm with bips := [] }, tcm := tmap x.tcm fun _ f => { f with bips := [] } }
    | none => d
  portInFrame p t d

/-- OTN_RX_FRAME: a frame period of a port. Generic AIS is detected in any framer state. -/
def execOtnRxFrame (port : Nat) (f : OtuFrame) (s : State) : Out :=
  s.run (gRun fun t d =>
    match d.port port with
    | none => d
    | some x =>
      if !isOtn x.typ then d
      else
        let d := if isOtuk x.typ then setDef (secKey port) .otuAis f.ais t d else d
        let err := (if x.typ = 0x0D then f.slices else [f.slices.headD []]).any fasErrored
        match x.fr.st with
        | .oof => d
        | .presync =>
          if err then d.modPort port fun x => { x with fr := { x.fr with st := .oof } }
          else otuProcess port f t (otuInFrame port t d)
        | .inFrame =>
          let run := if err then x.fr.errRun + 1 else 0
          if 5 ≤ run then otnWords port t (portOof port t d)
          else otuProcess port f t (d.modPort port fun x => { x with fr := { x.fr with errRun := run } }))

/-- The aligner of a lower-order ODU with one frame's FAS (05 R117, R139). The first good FAS in OOF is the find. -/
def oduAlign (n : Nat) (err : Bool) (t : Time) (d : Dev) : Dev :=
  match d.trib n with
  | none => d
  | some x =>
    let set := fun st : FrSt => d.modTrib n fun y => { y with fr := { y.fr with st := st } }
    match x.fr.st with
    | .oof => if err then d else set .presync
    | .presync =>
      if err then set .oof
      else
        let d := d.modTrib n fun y => { y with
          fr := { y.fr with st := .inFrame, errRun := 0, oof := false, since := t, watch := Watch.restart t true }
          mf := { y.mf with watch := y.mf.watch.go t }
          pm := { y.pm with bips := [] }, tcm := tmap y.tcm fun _ f => { f with bips := [] } }
        setWords [n] (fun _ => false) t d
    | .inFrame =>
      let run := if err then x.fr.errRun + 1 else 0
      if 5 ≤ run then
        let d := d.modTrib n fun y => { y with
          fr := { y.fr with st := .oof, errRun := 0, oof := true, since := t, watch := Watch.restart t true }
          mf := { y.mf with watch := y.mf.watch.stop t } }
        setWords [n] (fun _ => true) t d
      else d.modTrib n fun y => { y with fr := { y.fr with errRun := run } }

/-- ODU_RX_FRAME: a frame of a lower-order ODU whose server delivers words; in IF its words go to its owner slice. -/
def execOduRxFrame (t : Nat) (f : OduFrame) (s : State) : Out :=
  s.run (gRun fun tm d =>
    match d.trib t with
    | none => d
    | some x =>
      if !(isOdu x.typ && x.port.isNone) || serverSilent d 5 t then d
      else
        let d := oduAlign t (fasErrored f.octets) tm d
        match d.trib t with
        | some y =>
          if y.fr.st != .inFrame then d
          else
            let m := (f.octets.getD 6 0).toNat
            let mf := y.mf.mfas m tm
            let d := rxCont t tm (d.modTrib t fun z => { z with mf := mf })
            oduRx t (oduOhOf [f.octets] [f.bad]) m mf.im tm (toOwner t (oduWords f.octets f.bad) d)
        | none => d)

/-! ### FlexO (05 R122-R124) -/

/-- Changes a FlexO lane of a port. -/
def modFlexo (p i : Nat) (f : FlexoLane → FlexoLane) (d : Dev) : Dev :=
  d.modPort p fun x => { x with otn := { x.otn with lanes := tmod x.otn.lanes i {} f } }

/-- Do two lists hold the same PIDs? -/
def sameSet (a b : List Octet) : Bool := a.all b.contains && b.all a.contains

/-- Takes up the FlexO defects of a port; GID, PID and MAP are compared once the port is configured (log entry 21). -/
def flexoDefects (p : Nat) (t : Time) (d : Dev) : Dev :=
  match d.port p with
  | none => d
  | some x =>
    let o := x.otn
    let ls := (List.range x.lanes).map fun i => (i, tgetD o.lanes i {})
    let pids := o.expPids.take x.lanes
    let gid := ls.any fun l => match l.2.gid.acc with | some v => v != o.expGid.toNat | none => false
    let pid := ls.any fun l => match l.2.pid.acc with | some v => v != (pids.getD l.1 0).toNat | none => false
    let map := ls.any fun l => match l.2.map.acc with | some v => !sameSet v pids | none => false
    let k := secKey p
    let d := setDef k .flexoLof (ls.any fun l => l.2.lof) t d
    let d := setDef k .flexoDeskew o.skewBad t d
    setDef k .flexoGidm (o.cfg && gid) t (setDef k .flexoPidm (o.cfg && pid) t (setDef k .flexoMapm (o.cfg && map) t d))

/-- The end of a FlexO multiframe on a lane (05 R123; 10 R242). RPF is reported whether or not the CRC holds (DESIGN
CHOICE, log entry 88). -/
def flexoMf (p i : Nat) (f : FlexoFrame) (t : Time) (d : Dev) : Dev :=
  let k := secKey p
  let d := farDef k f.rpf (blockPlain k (!f.crcOk) d)
  if !f.crcOk then addCnt k 0x63 1 d
  else
    modFlexo p i (fun l => { l with
      gid := l.gid.step 3 f.gid.toNat t, pid := l.pid.step 3 f.pid.toNat t, map := l.map.step 3 f.map t, rpf := f.rpf }) d

/-- FLEXO_FRAME (05 R122-R124): lock, skew and overhead of lane `lane` of the port. No frame of a lane in LANE_LOS counts, and
its lock stands meanwhile (DESIGN CHOICE, log entry 87). -/
def execFlexoFrame (port lane : Nat) (f : FlexoFrame) (s : State) : Out :=
  s.run (gRun fun t d =>
    match d.port port with
    | none => d
    | some x =>
      if x.typ != 0x0D || x.lanes ≤ lane || (d.lane (x.first + lane)).los then d
      else
        let l := tgetD x.otn.lanes lane {}
        let res := f.codewords.map (gf10.decode 30)
        let cnt := (List.zipWith (fecCount 10) f.codewords res).foldl FecCounts.add ⟨0, 0, 0, 0, 0, 0⟩
        let d := if x.fr.st == .inFrame then
            modFlexo port lane (fun l => { l with uncorr := l.uncorr || decide (0 < cnt.uncorr) }) (fecRx port lane cnt d) else d
        let ok := if f.markersOk then l.okRun + 1 else 0
        let bad := if f.markersOk then 0 else l.badRun + 1
        let locked := if l.locked then decide (bad < 5) else decide (2 ≤ ok)
        let d := modFlexo port lane (fun l => { l with
          okRun := ok, badRun := bad, locked := locked, since := if locked == l.locked then l.since else t
          lof := l.lof && !locked, skew := f.skewNs }) d
        let d := if f.mfEnd && locked then flexoMf port lane f t d else d
        let d := match d.port port with
          | none => d
          | some y =>
            if lane != 0 then d
            else
              let skewed := (List.range y.lanes).any fun i => decide (1500 < (tgetD y.otn.lanes i {}).skew)
              let good := if skewed then 0 else y.otn.deskewOk + 1
              let d := if y.fr.st == .inFrame then rxFrame port t d else d
              d.modPort port fun z => { z with otn := { z.otn with
                deskewOk := good, skewBad := skewed || (z.otn.skewBad && decide (good < 2)) } }
        let d := flexoDefects port t d
        match d.port port with
        | some y => if flexoReady d y then d else otnWords port t (portOof port t d)
        | none => d)

/-- FLEXO_LOF (05 R122): 3 ms without lock. -/
def execFlexoLof (port lane : Nat) (s : State) : Out :=
  s.run (gRun fun t d =>
    match d.port port with
    | none => d
    | some x =>
      let l := tgetD x.otn.lanes lane {}
      if x.typ == 0x0D && decide (lane < x.lanes) && !l.locked && !l.lof && decide (max l.since x.created + ms 3 ≤ t) then
        flexoDefects port t (modFlexo port lane (fun l => { l with lof := true }) d)
      else d)

/-! ### FEC signal degrade (05 R128; 06 R144) -/

/-- One interval of an FEC lane against the thresholds. 0xFFFF_FFFF in fec_sd_set disables the defect. -/
def FecLane.judge (l : FecLane) (set clr : Nat) (out : Bool) : FecLane :=
  if out then { l with bits := 0 }
  else
    let b := if set < l.bits then l.bad + 1 else 0
    let g := if l.bits ≤ clr then l.good + 1 else 0
    { l with bits := 0, bad := b, good := g, sd := if 3 ≤ b then true else if 3 ≤ g then false else l.sd }

/-- FEC_SD_INTERVAL_END: the 1 s interval of a port ends. -/
def execFecSdIntervalEnd (port : Nat) (s : State) : Out :=
  s.run (gRun fun t d =>
    match d.port port with
    | none => d
    | some x =>
      if !atFrame 8000 t || !(isOtn x.typ || isEth x.typ) then d
      else
        let (set, clr) := if isOtn x.typ then (x.otn.sdSet, x.otn.sdClr) else (x.eth.sdSet, x.eth.sdClr)
        let outNow := if isOtn x.typ then x.fr.st != .inFrame else hasDef d (secKey port) .loaml
        let out := x.fecOut || outNow
        let fs := tmap x.fecs fun _ l => l.judge set clr out
        let d := d.modPort port fun y => { y with fecs := fs, fecOut := outNow }
        setDef (secKey port) .fecSd (set != 0xFFFFFFFF && fs.any fun l => l.2.sd) t d)

/-! ### Commands -/

def cmdOtnPortConfig : Cmd := {
  code := 0x0213, n := 14, kind := .config, vf := true
  mask := [(4, portMask), (5, bitsMask 31 29), (6, anyW), (7, anyW), (8, bitsMask 19 0), (9, anyW), (10, anyW),
    (11, bitsMask 19 0), (12, anyW), (13, anyW)]
  enc := fun ws => if fld (ws.getD 5 0) 31 30 = 3 then [(5, 31, 30)] else []
  perm := ownsPort
  chk := fun x d =>
    let typ := match d.port x.port with | some p => p.typ | none => 0
    firstErr [
      need (isOtn typ) (badArg 4 0),
      need (!(typ == 0x0D && fld (x.w 5) 31 30 == 2)) (badArg 5 30),
      need (decide ((x.w 7).toNat ≤ (x.w 6).toNat)) (badArg 7 0)]
  obj := fun x _ => .port x.port
  key := fun ws => some (ws.getD 4 0, 0)
  apply := fun c _ t d =>
    let p := c.port
    let d := d.modPort p fun x => { x with otn := { x.otn with
      cfg := true, fec := fld (c.w 5) 31 30, poisonUncorr := bitAt (c.w 5) 29
      sdSet := (c.w 6).toNat, sdClr := (c.w 7).toNat
      expGid := BitVec.ofNat 20 (c.w 8).toNat, expPids := eightOf (c.w 9) (c.w 10)
      txGid := BitVec.ofNat 20 (c.w 11).toNat, txPids := eightOf (c.w 12) (c.w 13) } }
    match d.port p with
    | some x => if x.typ = 0x0D then flexoDefects p t d else d
    | none => d }

def cmdOtnStructSet : Cmd := {
  code := 0x0214, n := 8, kind := .config, vf := true
  mask := [(4, tMask), (5, bitsMask 7 0)]
  perm := fun x d => match d.trib (fld (x.w 4) 16 0) with | some y => y.owner == x.m | none => false
  chk := fun x d =>
    let n := fld (x.w 4) 16 0
    match d.trib n with
    | none => some (badArg 4 0)
    | some y =>
      let pt := fld (x.w 5) 7 0
      let all := (kidsOf d n).filterMap fun c => d.trib c
      let kids := all.filter fun k => isOdu k.typ
      firstErr [
        need (isOdu y.typ) (badArg 4 0),
        need (decide (0 < tsCount y.typ pt 1)) (badArg 5 0),
        need (kids.all fun k => odtuSlots y.typ pt k.typ k.rate == (tsSlots k.tsMap).length
          && (tsSlots k.tsMap).all fun s => decide (s < tsCount y.typ pt (oduN d y))) (badArg 5 0),
        need (all.all fun k => isOdu k.typ || k.typ == 0x2D) (badArg 5 0)]
  obj := fun x _ => .trib (fld (x.w 4) 16 0)
  parts := fun x d => contParts d (fld (x.w 4) 16 0)
  key := fun ws => some (ws.getD 4 0, 0)
  apply := fun c p t d =>
    let n := fld (c.w 4) 16 0
    match p with
    | .frame _ .tx => d
    | _ => psiDefects n t (d.modTrib n fun x => { x with structPt := fld (c.w 5) 7 0 }) }

/-- Sources that R129 offers for a field, by port or ODU. -/
def otnOffers (trib : Bool) (f : Nat) : List Nat :=
  if trib then
    (if f = 0x06 ∨ f = 0x07 then [0, 2, 3] else if f = 0x20 then [0, 1] else if f = 0x21 then [0, 3] else [])
  else if f = 0x05 then [0, 2] else []

def cmdOtnOhConfig : Cmd := {
  code := 0x0215, n := 8, kind := .config, vf := true
  mask := [(4, tOrPortMask), (5, bitsMask 31 20 + bitsMask 15 0)]
  enc := fun ws => tOrPortEnc ws ++ ohEnc ws
  perm := ownsTOrPort
  chk := fun x d =>
    let f := fld (x.w 5) 31 24
    let tr := bitAt (x.w 4) 31
    let ok := match tOrPort (x.w 4) with
      | .trib n => (match d.trib n with | some y => isOdu y.typ | none => false)
      | .port p => (match d.port p with | some y => isOtn y.typ | none => false)
      | _ => false
    firstErr [
      need ok (badArg 4 0),
      need (!(otnOffers tr f).isEmpty) (badArg 5 24),
      need ((otnOffers tr f).contains (fld (x.w 5) 23 20)) (badArg 5 20),
      need (f != 0x20 || decide (fld (x.w 5) 15 0 < 256)) (badArg 5 0)]
  obj := fun x _ => tOrPort (x.w 4)
  parts := fun x d =>
    let f := fld (x.w 5) 31 24
    match tOrPort (x.w 4) with
    | .trib n => if 5 ≤ f ∧ f ≤ 7 then [.octet] else [.frame (contSrc d n) (if f = 0x20 then .rx else .tx)]
    | _ => [.octet]
  key := fun ws => some (ws.getD 4 0, ws.getD 5 0 &&& wd 0xFF000000)
  apply := fun c _ t d =>
    let w := c.w 5
    let f := fld w 31 24
    let src := fld w 23 20
    let v := fld w 15 0
    match tOrPort (c.w 4) with
    | .port p => d.modPort p fun y => { y with otn := { y.otn with oh := tput y.otn.oh f (src, v) } }
    | .trib n =>
      if f = 0x20 then psiDefects n t (d.modTrib n fun y => { y with expPt := if src = 0 then none else some v })
      else d.modTrib n fun y => { y with oh := tput y.oh f (src, v) }
    | _ => d }

/-- ODU_TCM_CONFIG (05 R132): a level whose sink leaves OFF is a new layer; one set OFF has none. -/
def applyTcm (n lvl sink source : Nat) (rx : Bool) (t : Time) (d : Dev) : Dev :=
  match d.trib n with
  | none => d
  | some x =>
    let f := tgetD x.tcm lvl {}
    if !rx then d.modTrib n fun y => { y with tcm := tput y.tcm lvl { f with source := source } }
    else
      let k := tcmKey lvl n
      let g := if f.sink = 0 then { ({} : OhField) with source := f.source } else f
      let d := d.modTrib n fun y => { y with tcm := tput y.tcm lvl { g with sink := sink } }
      let d := if sink = 0 ∧ f.sink ≠ 0 then
          suspectBins [k] (d.onFab fun fb => { fb with layers := tdel fb.layers k })
        else if sink ≠ 0 ∧ f.sink = 0 then suspectBins [k] (d.onFab fun fb => { fb with layers := tput fb.layers k {} })
        else d
      refresh t d

def cmdOduTcmConfig : Cmd := {
  code := 0x0216, n := 8, kind := .config, vf := true
  mask := [(4, tMask), (5, bitsMask 31 24)]
  enc := fun ws =>
    let w := ws.getD 5 0
    (if 1 ≤ fld w 31 28 ∧ fld w 31 28 ≤ 6 then [] else [(5, 31, 28)])
      ++ (if fld w 27 26 = 3 then [(5, 27, 26)] else []) ++ (if fld w 25 24 = 3 then [(5, 25, 24)] else [])
  perm := fun x d => match d.trib (fld (x.w 4) 16 0) with | some y => y.owner == x.m | none => false
  chk := fun x d => need (match d.trib (fld (x.w 4) 16 0) with | some y => isOdu y.typ | none => false) (badArg 4 0)
  obj := fun x _ => .trib (fld (x.w 4) 16 0)
  parts := fun x d => contParts d (fld (x.w 4) 16 0)
  key := fun ws => some (ws.getD 4 0, ws.getD 5 0 &&& wd 0xF0000000)
  apply := fun c p t d =>
    let w := c.w 5
    let rx := match p with | .frame _ .tx => false | _ => true
    applyTcm (fld (c.w 4) 16 0) (fld w 31 28) (fld w 27 26) (fld w 25 24) rx t d }

/-- OTN_PORT_STATUS_GET (05 R123): accepted GID, PID and MAP of each lane, with their times. -/
def cmdOtnPortStatusGet : Cmd := {
  code := 0x0207, n := 8, kind := .query, vf := true, i2c := true, mask := [(4, portMask)]
  perm := ownsPort
  chk := fun x d => need (match d.port x.port with | some p => isOtn p.typ | none => false) (badArg 4 0)
  run := fun x d =>
    { dev := d
      items := match d.port x.port with
        | none => []
        | some p =>
          (List.range (if p.typ = 0x0D then p.lanes else 0)).flatMap fun i =>
            let l := tgetD p.otn.lanes i {}
            item 1 i (timed (wd (l.gid.acc.getD 0)) l.gid.chg) ++ item 2 i (timed (wd (l.pid.acc.getD 0)) l.pid.chg)
              ++ item 3 i (packWords (l.map.acc.getD []) ++ timeWords l.map.chg) } }

end Sys2Proof.Machine
end

