-- ==== Sys2Proof/Machine/TxSignals.lean ====
section
/-!
DEFINITION. What a destination sends: the indication of a disabled tributary, the replacement of a failed source, and
the backward indications (04 R110; 05 R140; 07 R190; 10 R236-R239).
-/
namespace Sys2Proof.Machine

/-- The source that feeds a destination (07 R168): a bidirectional connection is kept once for each direction. -/
def sourceOf (d : Dev) (n : Nat) : Option Nat := (d.fab.xc.find? fun c => c.dst == n).map (·.src)

/-- Is a tributary in a connection? -/
def isConnected (d : Dev) (n : Nat) : Bool := d.fab.xc.any fun c => c.src == n || c.dst == n

/-- Is a tributary an ODU, a VC or a container with children: terminated (07 R169)? -/
def isTerminated (d : Dev) (n : Nat) : Bool := !(kidsOf d n).isEmpty

/-- xc_kind of a context, W9 [31:30] (07 R173). -/
def xcKindOf (d : Dev) (n : Nat) : Nat :=
  match d.fab.xc.find? fun c => c.dst == n || c.src == n with
  | some c => c.kind
  | none => 0

/-- peer_t of a context, W9 [16:0]: its source, or its first destination (07 R173). -/
def peerOf (d : Dev) (n : Nat) : Option Nat :=
  match sourceOf d n with
  | some s => some s
  | none => (d.fab.xc.find? fun c => c.src == n).map (·.dst)

/-- A source in aSSF, or treated so while it delivers no words, as one whose context has stopped (01 R33; 10 R236, R237). -/
def sourceFails (d : Dev) (s : Nat) : Bool :=
  let q := selectedTrib d s
  (d.layer (pathKey q)).ssf || (d.layer (pathKey q)).noWords || stopped d q

/-- Does a client fill the whole payload of an ODU (07 R190)? -/
def fillsOdu (x : Trib) : Bool := decide (0x20 ≤ x.typ) && decide (x.typ ≤ 0x24) || (x.typ == 0x28 && decide (x.method ≤ 3) && x.method != 0)

/-- The indication of a disabled tributary or a destination without a source (07 R190); that of a client which fills the
payload of an ODU stands in the ODU. -/
def idleSig (x : Trib) : TxSig :=
  if isOdu x.typ || fillsOdu x then .oduOci else if isVc x.typ then .uneq
  else if 0x18 ≤ x.typ ∧ x.typ ≤ 0x1C then .allOnes
  else if x.typ = 0x2D then .zeros
  else .idle

/-- The replacement of a failed source (10 R237). -/
def failSig (x : Trib) : TxSig :=
  if isOdu x.typ then .oduAis
  else if 0x10 ≤ x.typ ∧ x.typ ≤ 0x12 then (if x.port.isSome then .auAis else .tuAis)
  else if isVc x.typ then .tuAis
  else if 0x20 ≤ x.typ ∧ x.typ ≤ 0x24 then .msAis
  else if (0x18 ≤ x.typ ∧ x.typ ≤ 0x1C) ∨ x.typ = 0x2D then .allOnes
  else if x.typ = 0x29 then (if x.port.isSome then .localFault else .idle)
  else .localFault

/-- What a terminated ODU sends: its clients, or the indication of one that fills its payload. -/
def clientSig (d : Dev) (n : Nat) (x : Trib) : TxSig :=
  if isOdu x.typ && (kidsOf d n).any fun c => match d.trib c with | some y => fillsOdu y && y.tx == .oduOci | none => false
  then .oduOci else .normal

/-- The one signal a destination carries, by the order of R238: Snowdrop, lock, no source, failed source;
a drain goes on with the words queued (07 R189, R190). A terminated
container builds its own signal. Of a context that has stopped, downstream sees the error indication of R237 (of the two that
01 R33 names, a DESIGN CHOICE, log entry 85). -/
def ownSig (d : Dev) (n : Nat) (x : Trib) : TxSig :=
  if stoppedTrib x then failSig x
  else if x.lck && isOdu x.typ then .oduLck
  else if x.drain.isSome then .normal
  else if !x.txEn then idleSig x
  else if isTerminated d n then clientSig d n x
  else match sourceOf d n with
    | none => idleSig x
    | some s =>
      if (match d.trib s with | some y => !y.enabled && y.drain.isNone | none => true) then idleSig x
      else if sourceFails d s then failSig x else .normal

/-- The working tributary whose transmit signal a protection member copies (11 R262). -/
def bridgedTrib (d : Dev) (n : Nat) : Option Nat :=
  match groupOfProt d (.trib n) with
  | none => none
  | some g => match d.pg g with
    | none => none
    | some y => match (if y.typ = 0 then y.ws.head? else if y.bridgeNow = 0 then none else y.ws[y.bridgeNow - 1]?) with
      | some m => (match m.o with | .trib w => some w | _ => none)
      | none => none

/-- The signal a destination carries: a protection member sends what it copies, or the indication of R190. -/
def sigOf (d : Dev) (n : Nat) (x : Trib) : TxSig :=
  if d.aon.snowdrop then x.tx
  else match bridgedTrib d n with
    | some w => (match d.trib w with | some y => ownSig d w y | none => idleSig x)
    | none => ownSig d n x

/-- Takes up the signal of a destination. -/
def takeSig (n : Nat) (d : Dev) : Dev := d.modTrib n fun x => { x with tx := sigOf d n x }

/-- The signal of a destination changes; that of a VC or an ODU starts and stops with its next transmitted frame (04 R110;
05 R140). -/
def refreshTx (n : Nat) (d : Dev) : Dev :=
  d.modTrib n fun x => if isVc x.typ || isOdu x.typ then x else { x with tx := sigOf d n x }

/-- Does a tributary's layer send a backward indication (10 R239): while it has aTSF, or aSSF where the table states it? -/
def backOf (d : Dev) (n : Nat) : Bool := (d.layer (pathKey n)).tsf || (d.layer (pathKey n)).ssf

/-- Takes up the backward indication of a terminated tributary. -/
def refreshBack (n : Nat) (d : Dev) : Dev := d.modTrib n fun x => { x with backward := isTerminated d n && backOf d n }

/-- A port's backward indication: aTSF of its outermost layer that has one; not on aSSF. -/
def portBack (d : Dev) (p : Nat) (x : Port) : Bool :=
  if isSdh x.typ then (d.layer (lineKey p)).tsf else (d.layer (secKey p)).tsf

end Sys2Proof.Machine
end

