-- ==== Sys2Proof/Machine/Eth.lean ====
section
/-!
DEFINITION. Ethernet ports: PCS state, blocks, frames, ESMC and received flow control (06 R143-R148; 08 R212; 12 R298;
13 R313).
-/
namespace Sys2Proof.Machine

/-- An Ethernet port in PACKET or in BLOCK mode. -/
def packetMode (x : Port) : Bool := isEth x.typ && !x.eth.block
def blockMode (x : Port) : Bool := isEth x.typ && x.eth.block

/-- The packet stream or block stream that a port carries. -/
def portStream (d : Dev) (p : Nat) : Option Nat :=
  (tribsOfPort d p).find? fun n => match d.trib n with | some y => y.typ == 0x29 || y.typ == 0x28 | none => false

/-- Words of a port for the owner of its stream (01 R17). -/
def toStream (p : Nat) (ws : List LaneWord) (d : Dev) : Dev :=
  match portStream d p with | some n => toOwner n ws d | none => d

/-- An event that makes the port's running 1 ms interval errored (10 R242). -/
def badInterval (k : Nat) (b : Bool) (d : Dev) : Dev := if b then d.modLayer k fun l => { l with badFrame := true } else d

/-- The octets of a codeword's counts, kept while LOAML is not raised (06 R144; 10 R246): the port's sums, the corrected
codewords, and each FEC lane's corrected symbols. -/
def ethFecRx (p : Nat) (c : EthFec) (d : Dev) : Dev :=
  let k := secKey p
  let sym := c.syms.foldl (· + ·) 0
  let d := addCnt k 0x30 c.cw (addCnt k 0x34 sym (addCnt k 0x35 c.uncorr d))
  badInterval k (decide (0 < c.uncorr)) (d.modPort p fun y => { y with
    fecs := tmod y.fecs 0 {} fun l => { l with bits := l.bits + sym }
    eth := { y.eth with
      corrCw := y.eth.corrCw + BitVec.ofNat 40 c.corr
      laneSyms := c.syms.zipIdx.foldl (fun t e => tput t e.2 (tgetD t e.2 0 + BitVec.ofNat 40 e.1)) y.eth.laneSyms } })

/-- What a PHY sends back: RPF of a group in FLEXE_LOF, FLEXE_DESKEW or any PHY LOBL (06 R151). -/
def flexeRpf (p : Nat) (d : Dev) : Dev :=
  let k := secKey p
  d.modPort p fun y => if isFlexe y.typ then
    { y with backward := hasDef d k .flexeLof || hasDef d k .flexeDeskew || hasDef d k .lobl } else y

/-- PCS_STATE_CHANGE (06 R144; 10 R232): the defects follow the clause's variables, of a FlexE group those of any PHY; the
FEC counters stop while LOAML is raised. -/
def execPcsStateChange (port : Nat) (e : PhyVars) (s : State) : Out :=
  s.run (gRun fun t d =>
    match d.port port with
    | none => d
    | some x =>
      if !(isEth x.typ || (isFlexe x.typ && decide (e.phy < x.phys))) then d
      else
        let k := secKey port
        let d := if hasDef d k .loaml then d else ethFecRx port e.v.fec d
        let all := tput x.eth.pcs (if isFlexe x.typ then e.phy else 0) e.v
        let any := fun f : PcsVars → Bool => all.any fun e => f e.2
        let d := d.modPort port fun y => { y with
          eth := { y.eth with pcs := all }, fecOut := y.fecOut || hasDef d k .loaml || any fun v => !v.amLock }
        let d := setDef k .lobl (any fun v => !v.blockLock) t d
        let d := setDef k .loaml (any fun v => !v.amLock) t d
        let d := setDef k .ethDeskew (any fun v => !v.deskewed) t d
        let d := setDef k .hiBer (any fun v => v.hiBer) t d
        let d := setDef k .ethLf (any fun v => v.fault == .local_) t (setDef k .ethRf (any fun v => v.fault == .remote) t d)
        flexeRpf port (farDef k (any fun v => v.fault == .remote) d))

/-- The two lane words of a 66B block (06 R145). -/
def blockWords (b : Block66) : List LaneWord :=
  let bad := b.sync == 0b00 || b.sync == 0b11
  let tag := if b.sync == 0b01 then tagData else tagOverhead
  let hi : Word := b.payload.extractLsb' 32 32
  let lo : Word := b.payload.extractLsb' 0 32
  [lw tag hi (bad || b.uncorr), lw tag lo (bad || b.uncorr)]

/-- A block as FEC leaves it (05 R125; 06 R144): corrected in CORRECT, as received in DETECT; with err_ind a block of an
uncorrectable codeword has the sync header 0b11 (PRESUMED, log entry 81). -/
def EthPort.decoded (x : EthPort) (b : EthBlock) : Block66 :=
  let fix : BitVec 66 := if x.detect then 0 else b.fix
  let sync := b.block.sync ^^^ fix.extractLsb' 64 2
  { b.block with
    sync := if b.block.uncorr && x.errInd then 0b11 else sync, payload := b.block.payload ^^^ fix.extractLsb' 0 64 }

/-- ETH_RX_BLOCK (06 R145): a block as the PCS has it, its alignment markers removed (log entry 69). -/
def execEthRxBlock (port : Nat) (b : EthBlock) (s : State) : Out :=
  s.run (gRun fun _ d =>
    match d.port port with
    | some x =>
      if !blockMode x then d
      else
        let b := x.eth.decoded b
        let bad := b.sync == 0b00 || b.sync == 0b11
        let ws := blockWords b
        let d := addCnt (secKey port) 0x68 (b2n bad) (d.modPort port fun y => { y with eth := { y.eth with out := ws } })
        badInterval (secKey port) (bad || b.uncorr) (toStream port ws d)
    | none => d)

/-- Does a frame end in its FCS (06 R146; 09 R223)? IEEE 802.3 sends the least significant octet first. -/
def fcsOk (os : List Octet) : Bool :=
  decide (4 ≤ os.length) &&
    beNat (os.drop (os.length - 4)).reverse == crcOctets crcFcs (os.take (os.length - 4))

/-- The words of a frame with poison set on its packet-end word. -/
def poisonEnd (ws : List LaneWord) : List LaneWord :=
  ws.mapIdx fun i w => if i + 1 = ws.length then lwPoisoned w else w

/-- The type field of a frame, and the subtype octet after it. -/
def ethType (os : List Octet) : Nat := beNat ((os.drop 12).take 2)
def isEsmc (os : List Octet) : Bool := ethType os == 0x8809 && os.getD 14 0 == 0x0A

/-- A PAUSE or priority-based flow control frame: MAC control of opcode 1 or 0x0101 (12 R298; log entry 70). Its own row
acts on it and counts it. -/
def isFlowControl (os : List Octet) : Bool :=
  ethType os == 0x8808 && (beNat ((os.drop 14).take 2) == 1 || beNat ((os.drop 14).take 2) == 0x0101)

/-- The octets of a frame as FEC leaves them. -/
def EthPort.frameOctets (x : EthPort) (f : EthFrame) : List Octet :=
  if x.detect then f.octets else f.octets.mapIdx fun i o => o ^^^ f.fix.getD i 0

/-- ETH_RX_FRAME (06 R146; 01 R22): delivered, or discarded with a gap marker in its place; with err_ind a frame with a block
of an uncorrectable codeword is taken as one with a bad FCS (log entry 81). ESMC PDUs are consumed (06 R148). -/
def execEthRxFrame (port : Nat) (f : EthFrame) (s : State) : Out :=
  s.run (gRun fun _ d =>
    match d.port port with
    | none => d
    | some x =>
      if !packetMode x then d
      else
        let k := secKey port
        let os := x.eth.frameOctets f
        let n := os.length
        let good := fcsOk os && !(f.uncorr && x.eth.errInd)
        let out := fun (ws : List LaneWord) (d : Dev) =>
          toStream port ws (d.modPort port fun y => { y with eth := { y.eth with out := ws } })
        if good && isFlowControl os then d
        else
          let d := addCnt k 0x40 1 (addCnt k 0x41 n d)
          let drop := fun c : Nat => out [lw tagGap 1] (addCnt k c 1 d)
          if n < 5 then drop 0x47
          else if n < 64 then drop 0x45
          else if x.eth.maxFrame < n then drop 0x46
          else if !good then
            let d := badInterval k true (addCnt k 0x44 1 d)
            out (if x.eth.mark then poisonEnd (packetWords os) else [lw tagGap 1]) d
          else if isEsmc os then d
          else out (packetWords os) d)

/-! ### ESMC (06 R148; 13 R313) -/

/-- ESMC_PDU_RX: the quality level goes to the slots of the lanes' recovered clock, by an event PDU at once, by an
information PDU when it repeats; of a FlexE PHY those of its own lanes. -/
def execEsmcPduRx (port : Nat) (e : Esmc) (s : State) : Out :=
  s.run (gRun fun t d =>
    match d.port port with
    | none => d
    | some x =>
      if !(isEth x.typ || isFlexe x.typ) || !e.valid then d
      else
        let per := if isFlexe x.typ then x.lanes / max 1 x.phys else max x.lanes 1
        let slots := (List.range per).flatMap fun i => slotsOfLane d (x.first + (if isFlexe x.typ then per * e.phy else 0) + i)
        slots.foldl (fun d n =>
          let sl := d.slot n
          let d := d.modSlot n fun y => { y with
            times := tput y.times 0x10 t, infoQl := if e.event then y.infoQl else some e.ql }
          if e.event || sl.infoQl == some e.ql then setSlotQl n e.ql t d else d) d)

/-- The DPLL that times a lane group (13 R325). -/
def groupDpll (d : Dev) (g : Nat) : Nat := if d.fab.clk.txDpll.getLsbD g then 3 else 2

/-- ESMC_PDU_TX: once per second on a PACKET-mode port, with the quality level of the group's DPLL. -/
def execEsmcPduTx (port : Nat) (s : State) : Out :=
  s.run (gRun fun _ d =>
    match d.port port with
    | some x =>
      if packetMode x then
        d.modPort port fun y => { y with eth := { y.eth with esmcTx := dpllQl d (groupDpll d (lgOfLane x.first)) } }
      else d
    | none => d)

/-! ### Received flow control (12 R298) -/

/-- Phase units of a pause of `q` quanta of 512 bit times at the MAC rate, rounded up. -/
def pauseUnits (gbps q : Nat) : Nat := if gbps = 0 then 0 else (q * 512 * 32768 + 125000 * gbps - 1) / (125000 * gbps)

/-- Pauses a class of a stream until a time; a time of 0 quanta ends the pause. A pause that begins has not yet counted
PFC_HELD. -/
def pauseClass (n cls q gbps : Nat) (t : Time) (d : Dev) : Dev :=
  d.modSched n fun s => { s with queues := tmod s.queues cls {} fun x => { x with
    paused := if q = 0 then none else some (t + pauseUnits gbps q)
    pkts := if x.paused.isSome || q = 0 then x.pkts else x.pkts.map fun p => { p with heldPfc := false } } }

/-- Received flow control is consumed and counted in RX_FRAMES. -/
def fcFrame (port : Nat) (d : Dev) : Dev := addCnt (secKey port) 0x40 1 d

/-- PFC_FRAME_RX: the classes to which the port's class map sends each enabled priority. -/
def execPfcFrameRx (port : Nat) (f : PfcFrame) (s : State) : Out :=
  s.run (gRun fun t d =>
    match d.port port, portStream d port with
    | some x, some n =>
      if !packetMode x then d
      else
        let d := fcFrame port d
        if !x.eth.pfcRx then d
        else
          let m := tgetD d.fab.maps n {}
          (List.range 8).foldl (fun d p =>
            if f.vec.getLsbD p then pauseClass n (m.map.getD p p) (f.times.getD p 0 % 65536) (macGbps x.typ) t d else d) d
    | some x, none => if packetMode x then fcFrame port d else d
    | none, _ => d)

/-- PAUSE_FRAME_RX: all eight classes. -/
def execPauseFrameRx (port quanta : Nat) (s : State) : Out :=
  s.run (gRun fun t d =>
    match d.port port, portStream d port with
    | some x, some n =>
      if !packetMode x then d
      else
        let d := fcFrame port d
        if !x.eth.pauseRx then d
        else (List.range 8).foldl (fun d c => pauseClass n c (quanta % 65536) (macGbps x.typ) t d) d
    | some x, none => if packetMode x then fcFrame port d else d
    | none, _ => d)

/-- PAUSE_EXPIRY: a class's pause runs out. -/
def execPauseExpiry (port cls : Nat) (s : State) : Out :=
  s.run (gRun fun t d =>
    match portStream d port with
    | none => d
    | some n =>
      match (tgetD (d.sched n).queues cls {}).paused with
      | some e => if e ≤ t then d.modSched n fun s => { s with queues := tmod s.queues cls {} fun x => { x with paused := none } } else d
      | none => d)

/-! ### ETH_PORT_CONFIG -/

/-- Port mode and FEC fields take effect at the octet boundary, max_frame and fcs_action at the port frame (06 R162). -/
def cmdEthPortConfig : Cmd := {
  code := 0x0220, n := 8, kind := .config, vf := true
  mask := [(4, portMask), (5, bitsMask 31 26 + bitsMask 13 0), (6, anyW), (7, anyW)]
  perm := ownsPort
  chk := fun x d =>
    let m := fld (x.w 5) 13 0
    firstErr [
      need (match d.port x.port with | some p => isEth p.typ | none => false) (badArg 4 0),
      need (decide (64 ≤ m) && decide (m ≤ 16000)) (badArg 5 0),
      need (decide ((x.w 7).toNat ≤ (x.w 6).toNat)) (badArg 7 0)]
  obj := fun x _ => .port x.port
  parts := fun x _ => [.octet, .frame (.port x.port) .rx]
  key := fun ws => some (ws.getD 4 0, 0)
  apply := fun c p _ d =>
    let w := c.w 5
    match p with
    | .octet => d.modPort c.port fun x => { x with eth := { x.eth with
        block := bitAt w 31, detect := bitAt w 30, errInd := bitAt w 29, pfcRx := bitAt w 27, pauseRx := bitAt w 26
        sdSet := (c.w 6).toNat, sdClr := (c.w 7).toNat } }
    | _ => d.modPort c.port fun x => { x with eth := { x.eth with mark := bitAt w 28, maxFrame := fld w 13 0 } } }

end Sys2Proof.Machine
end

