-- ==== Sys2Proof/Machine/Shaping.lean ====
section
/-!
DEFINITION. Queue parameters, gate windows, and the peak buckets and credits that shape the queues of a packet stream
(12 R286, R290-R295, R301). Buckets and credits are brought up to a time before anything that they depend on changes.
-/
namespace Sys2Proof.Machine

/-- The largest packet of a stream (12 R286). -/
def maxFrameOf (d : Dev) (n : Nat) : Nat :=
  match d.trib n with
  | some x => (match x.port with | some p => (match d.port p with | some y => y.eth.maxFrame | none => 16000) | none => 16000)
  | none => 16000

/-- sched_rate in kb/s (12 R290): the nominal rate less 100 ppm; a stream in an ODUflex follows its ramp. -/
def schedRate (d : Dev) (n : Nat) : Nat :=
  match d.trib n with
  | some x =>
    let r := if x.port.isSome then x.rate else match d.trib x.parent with
      | some y => if y.typ = 0x08 ∨ y.typ = 0x09 then min x.rate y.rate else x.rate
      | none => x.rate
    r * 9999 / 10000
  | none => 0

/-- The parameters of a queue: those set, or the defaults of R286. -/
def queueCfg (d : Dev) (n cls : Nat) (q : Queue) : QCfg :=
  let r := schedRate d n
  q.cfg.getD { kind := if cls = 7 then .strict else .bestEffort, pir := r, pbs := 2 * maxFrameOf d n, minRate := r / 10 }

/-- The size counted for a packet of `len` octets (12 R290). -/
def countedSize (x : Trib) (len : Nat) : Nat :=
  if x.port.isSome then len + 20
  else if x.method = 6 then len + 8 + 4 * b2n (x.txOpts.getLsbD 11)
  else (len / 8 + 2 + x.txOpts.toNat % 16) * 8

/-- t_tx in whole phase units, of 262,144,000 a second, rounded up. -/
def txUnits (octets kbps : Nat) : Nat := if kbps = 0 then 0 else (octets * 8 * 262144 + kbps - 1) / kbps

/-- The effective pir (12 R292, R301). -/
def effPir (d : Dev) (c : QCfg) : Nat :=
  match c.kind with
  | .deferrable | .bestEffort => max c.minRate (c.pir * d.aon.gov.scale / 256)
  | _ => c.pir

/-! ### Gates (12 R294, R295) -/

/-- Does an entry open a class's gate? -/
def opens (e : Octet × Nat) (cls : Nat) : Bool := e.1.getLsbD cls

def Gate.cycle (g : Gate) : Nat := g.entries.foldl (fun a e => a + e.2) 0

/-- Is a class's gate open, by the entry in force? -/
def gateOpen (s : Sched) (cls : Nat) : Bool :=
  match s.gate with
  | some g => !s.gateEn || (match g.entries[s.gateIdx]? with | some e => opens e cls | none => true)
  | none => true

/-- Phase units of the leading entries that open a class. -/
def openRun : List (Octet × Nat) → Nat → Nat
  | [], _ => 0
  | e :: r, cls => if opens e cls then e.2 + openRun r cls else 0

/-- What is left of a class's open window at a time, and the whole window; none where the gate never closes. -/
def windowOf (s : Sched) (cls : Nat) (t : Time) : Option (Nat × Nat) :=
  match s.gate with
  | none => none
  | some g =>
    if !s.gateEn || g.entries.all fun e => opens e cls then none
    else
      let after := g.entries.drop (s.gateIdx + 1) ++ g.entries.take s.gateIdx
      let cur := match g.entries[s.gateIdx]? with | some e => e.2 | none => 0
      some (s.gateEnd - t + openRun after cls, cur + openRun after cls + openRun after.reverse cls)

/-! ### Buckets and credits (12 R292, R293) -/

/-- The capacity of a bucket of `octets`. -/
def full (octets : Nat) : Nat := octets * 2097152

/-- A bucket after `n` phase units at a rate in kb/s. -/
def refill (v kbps octets n : Nat) : Nat := min (full octets) (v + kbps * n)

def clampInt (lo hi v : Int) : Int := max lo (min hi v)

/-- A CBS credit after `n` phase units in which the class waits: one row of R293's table. -/
def idleCredit (credit : Int) (slope n : Nat) (waiting opened : Bool) : Int :=
  let up := credit + (slope * n : Nat)
  if waiting then (if opened then up else credit)
  else if 0 < credit then 0 else min 0 up

/-- A queue brought up to a time. The class that `sending` names transmitted until `busyUntil`. -/
def settleQueue (d : Dev) (n : Nat) (s : Sched) (t : Time) (cls : Nat) (q : Queue) : Queue :=
  let c := queueCfg d n cls q
  let dt := t - q.upd
  let rate := schedRate d n
  let bucket := q.bucket.map fun v => refill v (effPir d c) c.pbs dt
  let credit : Int :=
    if c.kind = .cbs then
      let tx := if s.sending = some cls then min t s.busyUntil - q.upd else 0
      let room : Int := (maxFrameOf d n * 8 * 262144 : Nat)
      let hi := if rate = 0 then 0 else room * (c.slope : Int) / rate
      let lo := if rate = 0 then 0 else room * ((c.slope : Int) - rate) / rate
      let v := clampInt lo hi (q.credit + ((c.slope : Int) - rate) * tx)
      if dt = tx then v else clampInt lo hi (idleCredit v c.slope (dt - tx) (!q.pkts.isEmpty) (gateOpen s cls))
    else q.credit
  { q with bucket := bucket, credit := credit, upd := t }

/-- Every queue of a stream brought up to a time. -/
def settle (n : Nat) (t : Time) (d : Dev) : Dev :=
  match tget d.fab.scheds n with
  | none => d
  | some s => d.onFab fun f => { f with scheds := tput f.scheds n { s with queues := tmap s.queues (settleQueue d n s t) } }

/-- Every scheduler brought up to a time. -/
def settleAll (t : Time) (d : Dev) : Dev := (d.fab.scheds.map (·.1)).foldl (fun d n => settle n t d) d

end Sys2Proof.Machine
end

