-- ==== Sys2Proof/Machine/Slices.lean ====
section
/-!
DEFINITION. Slices: what each holds, their states, and where a new context is placed (01 R11-R16; 07 R171; 08 R196;
14 R338, R340, R354, R356).
-/
namespace Sys2Proof.Machine

/-! ### What a slice holds (01 R13; 08 R196) -/

/-- The power of two from 16 that an elastic store has (08 R196). -/
def storeSize (n : Nat) : Nat :=
  ([16, 32, 64, 128, 256, 512, 1024, 2048, 4096, 8192].find? fun k => decide (n ≤ k)).getD 16383

/-- Is a tributary carried as stream segments (07 R185)? -/
def isSegment (x : Trib) : Bool := x.method == 6 && x.typ != 0x29

/-- Words of one justification unit (08 R196). -/
def unitWords (x : Trib) : Nat :=
  match x.method with
  | 0 => 4
  | 3 => (x.mOct + 3) / 4
  | 7 => 2
  | _ => 1

/-- es_size of a tributary (08 R196); 0 for a packet stream, which has packet FIFOs. -/
def esSizeOf (x : Trib) : Nat :=
  if x.typ = 0x29 then 0
  else if isSegment x then storeSize ((5 * x.segOct + 3) / 4)
  else storeSize (4 * unitWords x + 8)

/-- SRAM words that the placement check counts (08 R196). -/
def sramWords (x : Trib) : Nat := if x.typ = 0x29 then 8192 else 2 * esSizeOf x

/-- The rate a tributary counts at: the greater of old and new while it is resized (07 R188). -/
def countedRate (x : Trib) : Nat := match x.resize with | some r => max r.old r.new | none => x.rate

/-- What accepted changes hold: a creation in its unit until its context exists; more of an existing context wherever that
is now, or is being moved to. -/
def placesIn (d : Dev) (u : Nat) : List Place :=
  d.fab.fw.changes.filterMap fun c => match c.place with
    | some p =>
      if (if p.new then p.unit == u && (d.trib p.t).isNone else (tribsIn d u).any (·.1 == p.t)) then some p else none
    | none => none

/-- What accepted changes hold for an existing context. -/
def placesOf (d : Dev) (n : Nat) : List Place :=
  d.fab.fw.changes.filterMap fun c => match c.place with
    | some p => if !p.new && p.t == n then some p else none
    | none => none

def sumBy {α : Type} (f : α → Nat) (l : List α) : Nat := l.foldl (fun a x => a + f x) 0

/-- Load of a slice in kb/s (01 R13). -/
def sliceKbps (d : Dev) (s : Nat) : Nat := sumBy (fun e => countedRate e.2) (tribsIn d s) + sumBy (·.kbps) (placesIn d s)
/-- Guard words of the errorless groups whose selector slice is a slice: the owner of the working member (11 R272). -/
def guardWords (d : Dev) (s : Nat) : Nat :=
  sumBy (fun e => match e.2.ws.head? with
    | some m => (match m.o with
      | .trib w => (match d.trib w with | some y => if y.unit = s then e.2.errl.guard else 0 | none => 0)
      | _ => 0)
    | none => 0) d.fab.pgs

def sliceWords (d : Dev) (s : Nat) : Nat :=
  sumBy (fun e => sramWords e.2) (tribsIn d s) + sumBy (·.words) (placesIn d s) + guardWords d s
def unitEntries (d : Dev) (u : Nat) : Nat := (tribsIn d u).length + ((placesIn d u).filter (·.new)).length

/-- Does a context of a rate fit a slice's load and entries, under a limit in kb/s? -/
def fitsLoad (d : Dev) (s kbps limit : Nat) : Bool :=
  decide (unitEntries d s < 4096) && decide (sliceKbps d s + kbps ≤ limit)

/-- Does it fit the slice's SRAM? -/
def fitsWords (d : Dev) (s words : Nat) : Bool := decide (sliceWords d s + words ≤ 200000)

/-- Does it fit under the limit of R13? -/
def fits (d : Dev) (s kbps words : Nat) : Bool := fitsLoad d s kbps 400000000 && fitsWords d s words

/-! ### States (14 R338) -/

/-- The wear of a slice (14 R354). -/
def sliceWear (d : Dev) (s : Nat) : Nat := (tgetD d.aon.wear s {}).wear

/-- The governor powers a slice up: usable after 2 frames from RETAIN, 16 from OFF (14 R332, R338). -/
def wakeSlice (s : Nat) (t : Time) (d : Dev) : Dev :=
  match (d.slice s).st with
  | .retain => sliceTo s .waking (t + 2 * frame) t d
  | .off => if d.aon.coll.fenced.contains s then d else sliceTo s .waking (t + 16 * frame) t d
  | _ => d

/-- SLICE_WAKE_COMPLETE (14 R338). -/
def execSliceWakeComplete (s : Nat) (st : State) : Out :=
  st.run (gRun fun t d =>
    let x := d.slice s
    if s < 32 ∧ x.st = .waking ∧ x.since ≤ t then settleSlice s t (sliceTo s .idle t t d) else d)

/-! ### Placement (07 R171) -/

/-- The slice of least wear that a predicate admits, then of lowest number. -/
def leastWorn (d : Dev) (p : Nat → Bool) : Option Nat :=
  ((List.range 32).filter p).foldl (fun b s => match b with
    | some c => if sliceWear d s < sliceWear d c then some s else b
    | none => some s) none

/-- The slice that takes a new context: the parent's, the lowest-numbered powered one, one that is waking for another
creation, the least-worn RETAIN or OFF slice. -/
def chooseSlice (d : Dev) (parent : Nat) (ok : Nat → Bool) : Option Nat :=
  if parent < 32 && sliceUp d parent && ok parent then some parent
  else match (List.range 32).find? fun s => sliceUp d s && ok s with
    | some s => some s
    | none =>
      let live := fun s => !d.aon.coll.fenced.contains s
      match (List.range 32).find? fun s => live s && (d.slice s).st == .waking && ok s with
      | some s => some s
      | none => leastWorn d fun s => live s && ((d.slice s).st == .retain || (d.slice s).st == .off) && ok s

/-- Where a tributary goes, its parent in a unit: NO_RESOURCE names the load and entries, or the SRAM (16 R381). -/
def placeSlice (d : Dev) (parent kbps words : Nat) : Except Err Nat :=
  match chooseSlice d parent fun s => fits d s kbps words with
  | some s => .ok s
  | none => .error (noResource
      (if (List.range 32).any fun s => !d.aon.coll.fenced.contains s && fitsLoad d s kbps 400000000 then 5 else 1))

/-- The owner of a tributary that is created: an ODUCn's port processor, 16 entries each (01 R15), or a slice. -/
def placeTrib (d : Dev) (x : Trib) : Except Err Nat :=
  if x.typ = 0x0A then
    let u := unitOfLg (lgOfPort d (x.port.getD 0))
    if unitEntries d u < 16 then .ok u else .error (noResource 1)
  else
    let parent := if x.port.isSome then 0xFF else match d.trib x.parent with | some y => y.unit | none => 0xFF
    placeSlice d parent x.rate (sramWords x)

/-- The lowest free place of a store in a slice's SRAM (log entry 22). -/
def storeBase (d : Dev) (u n : Nat) : Nat :=
  let used := (tribsIn d u).flatMap fun e => [(e.2.esRx.base, e.2.esRx.size), (e.2.esTx.base, e.2.esTx.size)]
  let free := fun b => used.all fun r => decide (b + n ≤ r.1) || decide (r.1 + r.2 ≤ b)
  (0 :: used.map fun r => r.1 + r.2).foldl (fun best b => if free b && decide (b < best) then b else best) (2 ^ 18 - 1)

/-- The lowest free context entry of a unit (01 R11; log entry 22): neither a context's nor reserved for a migration. -/
def freeEntry (d : Dev) (u : Nat) : Nat :=
  let used := (tribsIn d u).map (·.2.entry) ++ (d.fab.migs.filter (·.dst == u)).map (·.entry)
  (0 :: used.map (· + 1)).foldl (fun best e => if !used.contains e && decide (e < best) then e else best) 4096

end Sys2Proof.Machine
end

