-- ==== Sys2Proof/Machine/Tribs.lean ====
section
/-!
DEFINITION. Tributary types, carriage and rates, and the commands that create, change, stop and read tributaries
(07 R164-R171, R174, R178, R185-R192; 01 R13-R15).
-/
namespace Sys2Proof.Machine

/-! ### Types and rates (07 R164) -/

/-- The nominal rate in kb/s of a type that has one rate. -/
def fixedKbps (typ : Nat) : Nat :=
  match typ with
  | 0x01 => 1244160 | 0x02 => 2498775 | 0x03 => 10037274 | 0x04 => 10399525 | 0x05 => 40319219 | 0x06 => 104794446
  | 0x11 => 150336 | 0x12 => 48960 | 0x13 => 6848 | 0x14 => 2240 | 0x15 => 1664
  | 0x18 => 2048 | 0x19 => 1544 | 0x1A => 34368 | 0x1B => 44736 | 0x1C => 139264
  | 0x20 => 155520 | 0x21 => 622080 | 0x22 => 2488320 | 0x23 => 9953280 | 0x24 => 39813120
  | _ => 0

def tribTypeOk (typ : Nat) : Bool := isOdu typ || isVc typ || fixedKbps typ != 0 || (decide (0x28 ≤ typ) && decide (typ ≤ 0x2D))

def isPdh (typ : Nat) : Bool := decide (0x18 ≤ typ) && decide (typ ≤ 0x1C)
def isStmClient (typ : Nat) : Bool := decide (0x20 ≤ typ) && decide (typ ≤ 0x24)
def isFlexeClient (typ : Nat) : Bool := typ == 0x2A || typ == 0x2B

/-- Line rates of 66B block streams. -/
def blockRates : List Nat := [10312500, 25781250, 51562500, 103125000, 206250000]

/-- Is a client or path a fine-grain carrier: created with the carrier option (06 R156)? -/
def isCarrier (x : Trib) : Bool := isFlexeClient x.typ && x.opts.getLsbD 11

/-- Does a FlexE client or MTN path have more than the one slot of a carrier (06 R156)? -/
def manySlots (d : Dev) (x : Trib) : Bool :=
  match x.port with
  | some p => (match d.port p with
    | some y => decide (1 < (slotsOf (fld x.pos 15 0) (txCal y.flx)).length)
    | none => false)
  | none => false

/-- Fine-grain carriers of the device: 320 at most (06 R158). -/
def carrierCount (d : Dev) : Nat := (d.fab.tribs.filter fun e => isCarrier e.2).length

/-! ### GMP parameters (07 R178) -/

/-- m in octets, the period in server frames, and P_server, for a client of `ts` slots. -/
def gmpServer (server client ts : Nat) : Nat × Nat × Nat :=
  if isOdu client then
    (match server with
      | 0x03 => (ts, 8, 15232)
      | 0x05 => (ts, 32, 15232)
      | 0x06 => (ts, 80, 15200)
      | _ => (16 * ts, 20, 952))
  else if server = 0x06 then (80, 1, 190) else (1, 1, 15232)

/-- cm_min, cm_max and cm_nom_frac of a client rate in a server rate, both in kb/s. -/
def gmpLimits (rate server tol mOct frames : Nat) : Nat × Nat × Nat :=
  let num := rate * frames * oduFrameBits
  let den := server * 8 * mOct
  let k := tol + 20
  if den = 0 then (0, 0, 0)
  else (num * (1000000 - k) / (den * 1000000), (num * (1000000 + k) + den * 1000000 - 1) / (den * 1000000),
    num % den * 65536 / den)

/-- A tributary with the GMP fields that follow from its rate and server; others have none. -/
def withGmp (server serverKbps : Nat) (x : Trib) : Trib :=
  if x.method = 3 then
    let (m, frames, p) := gmpServer server x.typ (tsSlots x.tsMap).length
    let (lo, hi, fr) := gmpLimits x.rate (frameKbps server serverKbps) x.tol m frames
    { x with mOct := m, pServer := p, cmMin := lo, cmMax := hi, cmFrac := fr }
  else x

/-- The transmit direction's limits, from the tolerance that it has. -/
def withTxGmp (server serverKbps : Nat) (x : Trib) : Trib :=
  let y := withGmp server serverKbps { x with tol := x.txTol }
  { x with txMin := y.cmMin, txMax := y.cmMax }

/-! ### The request -/

/-- Who carries a tributary. -/
inductive Carrier where
  | port (p : Nat) (x : Port)
  | trib (n : Nat) (x : Trib)
  | none

/-- What a TRIB_CREATE or FG_CHAN_CREATE asks for. -/
structure TribReq where
  n : Nat
  typ : Nat
  method : Nat
  enabled : Bool
  rxOn : Bool
  txOn : Bool
  onPort : Bool
  parent : Nat
  p : Nat
  pos : Word
  rate : Nat
  tol : Nat
  opts : BitVec 12
  ts : List Word
  seg : Nat
deriving DecidableEq, Repr

def tribReq (w : Nat → Word) : TribReq :=
  { n := fld (w 4) 16 0, typ := fld (w 5) 31 26, method := fld (w 5) 25 23, enabled := bitAt (w 5) 22
    rxOn := bitAt (w 5) 20, txOn := bitAt (w 5) 19, parent := fld (w 5) 16 0, pos := w 6, rate := fld (w 7) 29 0
    tol := fld (w 8) 31 24, opts := BitVec.ofNat 12 (fld (w 8) 11 0), ts := (List.range 5).map fun i => w (9 + i)
    onPort := bitAt (w 14) 31, p := portOfWord (fld (w 14) 11 0), seg := fld (w 15) 15 0 }

def carrierOf (d : Dev) (r : TribReq) : Carrier :=
  if r.onPort then (match d.port r.p with | some x => .port r.p x | none => .none)
  else if r.parent = r.n then .none
  else match d.trib r.parent with | some x => .trib r.parent x | none => .none

/-- The level of a tributary below its port (01 R14). -/
def levelOf (d : Dev) : Nat → Nat → Nat
  | 0, _ => 0
  | k + 1, n => match d.trib n with
    | some x => if x.port.isSome then 1 else 1 + levelOf d k x.parent
    | none => 0

/-! ### Carriage (07 R166) -/

/-- Does a container carry a GFP-F packet stream? -/
def carriesGfp (d : Dev) (n : Nat) : Bool :=
  (kidsOf d n).any fun c => match d.trib c with | some y => y.typ == 0x29 && y.method == 6 | none => false

/-- Is the type one that the parent may carry? -/
def typeCarried (d : Dev) (r : TribReq) : Carrier → Bool
  | .none => false
  | .port _ x =>
    let typ := r.typ
    if isOtn x.typ then typ + (if x.typ = 0x0D then 3 else 6) == x.typ || typ == 0x2D
    else if isSdh x.typ then typ == 0x10 || typ == 0x11 || typ == 0x12 || typ == 0x2D
    else if isEth x.typ then typ == (if blockMode x then 0x28 else 0x29)
    else typ == (if x.typ = 0x18 then 0x2A else 0x2B)
  | .trib n y =>
    let typ := r.typ
    if isOdu typ then isOdu y.typ && odtuSlots y.typ y.structPt typ 1 != 0
    else if isStmClient typ then
      y.typ == (match typ with | 0x22 => 0x02 | 0x23 => 0x03 | 0x24 => 0x05 | _ => 0x01)
    else if typ = 0x28 then [0x04, 0x06, 0x07, 0x2A, 0x2B].contains y.typ
    else if typ = 0x29 then
      [0x01, 0x02, 0x03, 0x04, 0x05, 0x06, 0x08, 0x09, 0x10, 0x11, 0x12, 0x2A, 0x2B, 0x2C].contains y.typ
    else if typ = 0x12 then y.typ == 0x11
    else if isVc typ then decide (0x13 ≤ typ) && (y.typ == 0x11 || y.typ == 0x12)
    else if isPdh typ then
      carriesGfp d n || (typ == 0x18 && y.typ == 0x14) || (typ == 0x19 && y.typ == 0x15)
        || ((typ == 0x1A || typ == 0x1B) && y.typ == 0x12) || (typ == 0x1C && y.typ == 0x11)
    else if typ = 0x2C then isCarrier y
    else typ == 0x2D && (isOdu y.typ || carriesGfp d n)

/-- The methods of a carried type. -/
def methodsFor (d : Dev) (r : TribReq) : Carrier → List Nat
  | .none => []
  | .port _ _ => [0]
  | .trib n y =>
    let typ := r.typ
    if isOdu typ then
      (if (typ == 0x01 && y.typ == 0x02) || (typ == 0x02 && (y.typ == 0x03 || y.typ == 0x05)) || (typ == 0x03 && y.typ == 0x05)
        then [1] else [3])
    else if isStmClient typ then (if typ ≤ 0x21 then [3] else [1, 2])
    else if typ = 0x28 then (match y.typ with | 0x06 => [3] | 0x2A | 0x2B => [7] | _ => [2])
    else if typ = 0x29 then (if [0x09, 0x2A, 0x2B, 0x2C].contains y.typ then [7] else [6])
    else if isPdh typ then
      (if carriesGfp d n then [6] else []) ++
        (if typ = 0x18 ∧ y.typ = 0x14 ∨ typ = 0x19 ∧ y.typ = 0x15 then [4, 5]
         else if (typ == 0x1A || typ == 0x1B) && y.typ == 0x12 || typ == 0x1C && y.typ == 0x11 then [4] else [])
    else if typ = 0x2D then (if isOdu y.typ then [0] else []) ++ (if carriesGfp d n then [6] else [])
    else [0]

/-- Bits of the options word that a method names (07 R173); the carrier option stands in opts [11] of a FlexE client or
MTN path (06 R156). -/
def optsMask (typ method : Nat) : Nat :=
  if method = 6 then 0xCFF else if method = 7 then 0x80F else if isFlexeClient typ then 0x800 else 0

/-! ### Rates (07 R164, R165, R187) -/

/-- The rate that a container offers blocks, in kb/s. -/
def carrierKbps : Carrier → Nat
  | .trib _ y => y.rate
  | _ => 0

/-- The MAC rate of a port or container, in kb/s (07 R165): 5 Gb/s a slot of a FlexE client or MTN path, 10 Mb/s a grain of a
fine-grain channel (06 R152, R156). -/
def macKbps : Carrier → Nat
  | .port _ x => if isEth x.typ then (if x.lanes = 0 then (if x.typ = 0x10 then 10000000 else 25000000) else macGbps x.typ * 1000000) else 0
  | .trib _ y =>
    if isFlexeClient y.typ then y.rate / 5156250 * 5000000
    else if y.typ = 0x2C then fld y.pos 16 8 * 10000 else y.rate
  | .none => 0

/-- The rate of an overhead tributary (04 R95; 05 R133): its bytes, or 16 bits in each frame of the layer; the frames of an
OTUCn and its ODUCn have the period of one slice. -/
def overheadKbps (g : Nat) : Carrier → Nat
  | .port _ x =>
    if isSdh x.typ then (if g = 2 then 192 else if g = 3 then 576 else 64)
    else if x.typ = 0x0D then sliceKbpsOtn * 16 / oduFrameBits
    else lineKbps x.typ * 16 / otuFrameBits
  | .trib _ y => frameKbps y.typ y.rate * 16 / oduFrameBits
  | .none => 0

/-- A new tributary's nominal rate, in kb/s; 0 where the request names none that suits. -/
def newKbps (d : Dev) (r : TribReq) (c : Carrier) : Nat :=
  if r.typ = 0x07 then r.rate * 239 / 238
  else if r.typ = 0x08 ∨ r.typ = 0x09 then r.rate
  else if r.typ = 0x0A then (match c with | .port _ x => portN d x * sliceKbpsOtn | _ => 0)
  else if r.typ = 0x10 then
    (match c with | .port _ x => auX x.sdh (fld r.pos 7 0) * 150336 | _ => 0)
  else if r.typ = 0x28 then
    (match c with
      | .port _ x => (match x.typ with
        | 0x10 => 10312500 | 0x11 => 25781250 | 0x12 => 51562500 | 0x13 => 103125000 | 0x14 => 206250000
        | 0x15 => 412500000 | _ => 825000000)
      | .trib _ y => (match y.typ with
        | 0x04 => 10312500 | 0x07 => 25781250 | 0x06 => 103125000
        | _ => if r.rate = 0 then (blockRates.filter fun k => decide (k ≤ y.rate)).foldl max 0
               else if blockRates.contains r.rate then r.rate else 0)
      | .none => 0)
  else if r.typ = 0x29 then (if r.rate = 0 then min (macKbps c) 400000000 else r.rate)
  else if isFlexeClient r.typ then
    (match c with | .port _ x => ((txCal x.flx).filter (· == fld r.pos 15 0)).length * 5156250 | _ => 0)
  else if r.typ = 0x2C then (fld r.pos 16 8 * 103125 + 5) / 10
  else if r.typ = 0x2D then
    (if r.method = 6 then (if r.rate = 0 then 64 else r.rate) else overheadKbps (fld r.pos 3 0) c)
  else fixedKbps r.typ

/-! ### Positions (07 R174) -/

/-- Bits of pos that the parent's interpretation names. -/
def posMask (r : TribReq) : Carrier → Nat
  | .none => 0
  | .port _ x =>
    if r.typ = 0x2D then 0xF else if isSdh x.typ then 0xFF else if isFlexe x.typ then 0xFFFF else 0
  | .trib _ y =>
    if isOdu r.typ then 0xFFFF00
    else if r.method = 6 && r.typ != 0x29 then 0xF
    else if r.typ = 0x2D then 0xF
    else if isVc r.typ then 0x7F
    else if r.typ = 0x2C then (if isCarrier y then 0x1FFFF else 0)
    else 0

/-- The tributary of a list that a predicate finds. -/
def findTrib (d : Dev) (ns : List Nat) (p : Trib → Bool) : Option Nat :=
  ns.find? fun c => match d.trib c with | some y => p y | none => false

/-- A CONFLICT with a tributary. -/
def conflictT (n : Option Nat) : Option Err := n.map fun k => ⟨rcConflict, k⟩

/-- The AU index of a VC-3 in an AUG-1: the lowest free one. -/
def freeAu (d : Dev) (p a : Nat) : Option Nat :=
  [0, 1, 2].find? fun i => (findTrib d (tribsOfPort d p) fun y => y.typ == 0x12 && fld y.pos 7 0 == a && y.au == i).isNone

/-- A position on a port: that it exists for the type, and who holds it. -/
def portPosErr (d : Dev) (r : TribReq) (p : Nat) (x : Port) : Option Err :=
  let kids := tribsOfPort d p
  if r.typ = 0x2D then
    let g := fld r.pos 3 0
    firstErr [
      need (if isSdh x.typ then decide (g ≤ 4) else g == 5) (badArg 6 0),
      conflictT (findTrib d kids fun y => y.typ == 0x2D && fld y.pos 3 0 == g)]
  else if isSdh x.typ then
    let a := fld r.pos 7 0
    let kind := augKind x.sdh a
    firstErr [
      need (decide (a < stmN x.typ)) (badArg 6 0),
      need (kind == (if r.typ = 0x10 then 3 else if r.typ = 0x11 then 0 else 1)) (badArg 6 0),
      if r.typ = 0x12 then
        (if (freeAu d p a).isSome then none
         else conflictT (findTrib d kids fun y => y.typ == 0x12 && fld y.pos 7 0 == a))
      else conflictT (findTrib d kids fun y => isVc y.typ && fld y.pos 7 0 == a)]
  else if isFlexe x.typ then
    let c := fld r.pos 15 0
    let all := (d.fab.tribs.filter fun e => isFlexeClient e.2.typ).length
    firstErr [
      need (decide (1 ≤ c) && decide (c ≤ 0xFFFE)) (badArg 6 0),
      conflictT (findTrib d kids fun y => fld y.pos 15 0 == c),
      need (decide (kids.length < 128) && decide (all < 1024)) (noResource 1)]
  else conflictT (findTrib d kids fun y => y.typ != 0x2D)

/-- A slot position in an ODU server (05 R137). -/
def slotPosErr (d : Dev) (r : TribReq) (n : Nat) (y : Trib) (kbps : Nat) : Option Err :=
  let slots := tsSlots r.ts
  firstErr [
    need (fld r.pos 15 8 == odtuSlots y.typ y.structPt r.typ kbps % 256) (badArg 6 8),
    need (slots.length == odtuSlots y.typ y.structPt r.typ kbps) (badArg 9 0),
    need (slots.all fun s => decide (s < serverSlots d y)) (badArg 9 0),
    conflictT (findTrib d (kidsOf d n) fun z => isOdu z.typ && (tsSlots z.tsMap).any slots.contains),
    conflictT (findTrib d (kidsOf d n) fun z => !isOdu z.typ && z.typ != 0x2D)]

/-- A TU position in a VC-4 or VC-3 (04 R106). TUG-3 and TUG-2 are numbered from 0 (log entry 18). -/
def tuPosErr (d : Dev) (r : TribReq) (n : Nat) (y : Trib) : Option Err :=
  let g3 := fld r.pos 6 5
  let g2 := fld r.pos 4 2
  let tu := fld r.pos 1 0
  let held := conflictT (findTrib d (kidsOf d n) fun z =>
    !isVc z.typ || z.pos == r.pos)
  if r.typ = 0x12 then
    firstErr [need (decide (g3 < 3) && y.tug3.getD g3 0 == 0 && fld r.pos 4 0 == 0) (badArg 6 0), held]
  else
    let code := y.tug2.getD ((if y.typ = 0x11 then 7 * g3 else 0) + g2) 0
    let places := if r.typ = 0x13 then 1 else if r.typ = 0x14 then 3 else 4
    firstErr [
      need (if y.typ = 0x11 then decide (g3 < 3) && y.tug3.getD g3 0 == 1 else g3 == 0) (badArg 6 0),
      need (decide (g2 < 7) && code == r.typ - 0x13 && decide (tu < places)) (badArg 6 0), held]

/-- What an accepted change asks of a fine-grain carrier: the carrier, the channel, its grains and its channel index
(06 R161); a creation and a deletion are resizes from and to 0. -/
def fgTarget (d : Dev) (c : Change) : Option (Nat × Nat × Nat × Nat) :=
  let n := fld (c.w 4) 16 0
  let old := match d.trib n with
    | some x => if x.typ = 0x2C then some (x.parent, fld x.pos 7 0) else none
    | none => none
  match c.code.toNat with
  | 0x0224 => some (fld (c.w 5) 16 0, n, fld (c.w 6) 24 16, fld (c.w 6) 7 0)
  | 0x0225 => old.map fun o => (o.1, n, fld (c.w 6) 24 16, o.2)
  | 0x0226 => old.map fun o => (o.1, n, 0, o.2)
  | 0x0305 => old.map fun o => (o.1, n, 0, o.2)
  | 0x0301 => if fld (c.w 5) 31 26 = 0x2C then some (fld (c.w 5) 16 0, n, fld (c.w 6) 16 8, fld (c.w 6) 7 0) else none
  | _ => none

/-- Accepted map changes of a carrier, oldest first; a channel that drains has left the map already. -/
def fgPending (d : Dev) (car : Nat) : List Change :=
  d.fab.fw.changes.filter fun c => match fgTarget d c with
    | some (k, n, _, _) => k == car && c.parts.contains .own && (match d.trib n with | some x => x.drain.all (·.delete.isNone) | none => true)
    | none => false

/-- The channels of a carrier with grains and index, after every accepted change. -/
def fgFuture (d : Dev) (car : Nat) : Tbl (Nat × Nat) :=
  (fgPending d car).foldl (fun m c => match fgTarget d c with
      | some (_, n, g, i) => tput m n (g, i)
      | none => m)
    (kidsOf d car |>.filterMap fun n => match d.trib n with
      | some y => if y.typ == 0x2C && y.drain.all (·.delete.isNone) then some (n, fld y.pos 16 8, fld y.pos 7 0) else none
      | none => none)

/-- A fine-grain channel's place on its carrier (06 R156-R158). -/
def fgPosErr (d : Dev) (r : TribReq) (n : Nat) : Option Err :=
  let g := fld r.pos 16 8
  let kids := kidsOf d n
  let fut := fgFuture d n
  let used := sumBy (fun e => e.2.1) fut
  let chans := (d.fab.tribs.filter fun e => e.2.typ == 0x2C).length
  firstErr [
    need (match d.trib n with | some y => !manySlots d y | none => true) (badArg 5 0),
    need (decide (1 ≤ g) && decide (g ≤ 495)) (badArg 6 8),
    need (decide (fld r.pos 7 0 ≤ 0xFE)) (badArg 6 0),
    conflictT ((fut.find? fun e => e.2.2 == fld r.pos 7 0).map (·.1)),
    conflictT (findTrib d kids fun y => y.typ != 0x2C),
    need (decide (used + g ≤ 495) && decide (fut.length < 255) && decide (chans < 32768)) (noResource 1)]

/-- A position in a container: that it exists for the type, and who holds it. -/
def tribPosErr (d : Dev) (r : TribReq) (n : Nat) (y : Trib) (kbps : Nat) : Option Err :=
  let kids := kidsOf d n
  if isOdu r.typ then slotPosErr d r n y kbps
  else if r.typ = 0x2D && r.method = 0 then
    let g := fld r.pos 3 0
    firstErr [
      need (g == 6 || g == 7) (badArg 6 0),
      conflictT (findTrib d kids fun z => z.typ == 0x2D && z.method == 0 && fld z.pos 3 0 == g)]
  else if r.method = 6 && r.typ != 0x29 then
    conflictT (findTrib d kids fun z => isSegment z && fld z.pos 3 0 == fld r.pos 3 0)
  else if isVc r.typ then tuPosErr d r n y
  else if r.typ = 0x2C then fgPosErr d r n
  else conflictT (findTrib d kids fun z => !(z.typ == 0x2D && z.method == 0))

/-! ### Checks -/

/-- The new context, its owner left open. -/
def newTrib (d : Dev) (r : TribReq) (m : Nat) : Trib :=
  let c := carrierOf d r
  let port := if r.onPort then some r.p else none
  let au := match c with | .port p x => if isSdh x.typ && r.typ == 0x12 then (freeAu d p (fld r.pos 7 0)).getD 0 else 0 | _ => 0
  let odu := match c with | .trib _ y => isOdu y.typ && isOdu r.typ | _ => false
  let x : Trib := {
    typ := r.typ, method := r.method, enabled := r.enabled, parent := if r.onPort then r.n else r.parent, port := port
    rate := newKbps d r c, pos := r.pos, au := au, tsMap := if odu then r.ts else []
    tol := r.tol, txTol := r.tol, opts := r.opts, txOpts := r.opts, segOct := if r.seg = 0 then 256 else r.seg, owner := m }
  match c with | .trib _ y => withTxGmp y.typ y.rate (withGmp y.typ y.rate x) | _ => x

/-- A tributary that a pending command would create or connect (16 R380 item 6). -/
def pendingCreate (d : Dev) (n : Nat) : Bool := d.fab.fw.changes.any fun c => match c.place with | some p => p.new && p.t == n | none => false

/-- Items 5 to 7 of R380 for a creation. A server whose slots OTN_STRUCT_SET has set carries ODUs only, and overhead
tributaries (05 R137; log entry 53). -/
def tribCreateErr (d : Dev) (r : TribReq) (m : Nat) : Option Err :=
  let c := carrierOf d r
  let x := newTrib d r m
  let w := r.pos.toNat &&& (2 ^ 32 - 1 - posMask r c)
  let level := if r.onPort then 1 else 1 + levelOf d 5 r.parent
  firstErr [
    need (tribTypeOk r.typ) (badArg 5 26),
    need (if r.onPort then r.parent == r.n else r.parent != r.n) (badArg 5 0),
    need (match c with | .none => false | _ => true) (if r.onPort then badArg 14 0 else badArg 5 0),
    need (typeCarried d r c) (badArg 5 26),
    need ((methodsFor d r c).contains r.method) (badArg 5 23),
    need (match c with | .trib _ y => !isOdu y.typ || y.structPt == 0 || isOdu r.typ || r.typ == 0x2D | _ => true) (badArg 5 0),
    need (r.opts.toNat &&& (0xFFF - optsMask r.typ r.method) == 0) (badArg 8 0),
    need (decide (level ≤ 4)) (badArg 5 0),
    need (w == 0) (badArg 6 (runLow (posMask r c) w.log2)),
    need (x.rate != 0 || isFlexeClient r.typ) (badArg 7 0),
    need (!(r.typ == 0x08 || r.typ == 0x09) || (decide (1244160 ≤ x.rate) && decide (x.rate ≤ 400000000))) (badArg 7 0),
    need (!(r.typ == 0x28 && r.method == 7) || decide (x.rate ≤ carrierKbps c)) (badArg 7 0),
    need (!isSegment x || (x.segOct % 4 == 0 && decide (64 ≤ x.segOct) && decide (x.segOct ≤ 1024))) (badArg 15 0),
    match (match c with | .port p y => portPosErr d r p y | .trib n y => tribPosErr d r n y x.rate | .none => none) with
      | some e => if e.code = rcBadArg then some e else none
      | none => none,
    need (x.method != 3 || decide (x.cmMax ≤ x.pServer)) (badArg 8 24),
    need ((d.trib r.n).isNone && !pendingCreate d r.n) ⟨rcConflict, r.n⟩,
    match c with | .trib n _ => need (!isConnected d n) ⟨rcConflict, n⟩ | _ => none,
    match (match c with | .trib n _ => groupOfProt d (.trib n) | .port p _ => groupOfProt d (.port p) | .none => none) with
      | some g => some ⟨rcConflict, g⟩ | none => none,
    (match c with | .port p y => portPosErr d r p y | .trib n y => tribPosErr d r n y x.rate | .none => none),
    need (decide (x.rate ≤ 400000000) || r.typ == 0x0A) (noResource 1),
    need (!isCarrier x || decide (carrierCount d < 320)) (noResource 1),
    match placeTrib d x with | .ok _ => none | .error e => some e]

/-- The place a creation holds. -/
def tribPlace (d : Dev) (r : TribReq) (m : Nat) : Option Place :=
  let x := newTrib d r m
  match placeTrib d x with
  | .ok u => some ⟨r.n, true, u, x.rate, if r.typ = 0x0A then 0 else sramWords x⟩
  | .error _ => none

/-- The frame source of a new tributary: a first-level one follows its port (07 R167). -/
def newSrc (d : Dev) (r : TribReq) : Obj := if r.onPort then .port r.p else frameSrc d r.typ none r.parent

/-- An overhead tributary bound to bytes of a port or an ODU (04 R95; 05 R133), not one carried in GFP-F. -/
def isBinding (typ method : Nat) : Bool := typ == 0x2D && method == 0

/-- When a creation applies: a binding at the octet boundary (04 R111; 05 R141), a fine-grain channel when its resize
completes, every other at its container frames. -/
def createParts (d : Dev) (r : TribReq) : List Part :=
  if r.typ = 0x2C then [.own]
  else if isBinding r.typ r.method then [.octet]
  else [.frame (newSrc d r) .rx, .frame (newSrc d r) .tx]

/-! ### Starting and stopping (07 R167, R189-R191) -/

/-- Enough idle-fill words to centre a store (07 R167; 08 R198; log entry 22). -/
def centred (size : Nat) : Fifo :=
  { depth := size, entries := List.replicate (size / 2) 0xB700000000#40, committed := size / 2 }

/-- The store or FIFO of one direction of a tributary as it starts: an elastic store centred, a packet FIFO empty. -/
def startFifo (n : Nat) (x : Trib) (rx : Bool) (d : Dev) : Dev :=
  if x.typ = 0x29 then d.modFifo ⟨if rx then .pktIn else .pktOut, n⟩ fun _ => { depth := 4096 }
  else d.modFifo ⟨if rx then .esRx else .esTx, n⟩ fun _ => centred (if rx then x.esRx.size else x.esTx.size)

/-- The receive state words of a context as a new tributary has them: aligners in OOF, the store centred (07 R167). -/
def Trib.startRx (x : Trib) (t : Time) : Trib :=
  { x with
    cmRx := 0, sumRx := 0, jcRx := 0, esRx := { x.esRx with wr := x.esRx.size / 2, rd := 0 }
    fr := { oof := isOdu x.typ && x.port.isNone, since := t, watch := Watch.restart t true }
    mf := { watch := {} }, ptr := {}, delin := .hunt, segs := [], pli := 0, impPkt := false
    chk := [0, 0, x.chk.getD 2 0, x.chk.getD 3 0], filt := 0, discard := 0, drain := none, badWords := []
    poisoned := false, rdiRun := 0, h4 := {}, basRun := 0, csRun := 0 }

/-- The transmit state words as a new tributary has them. -/
def Trib.startTx (x : Trib) : Trib :=
  { x with
    cmTx := 0, acc := 0, sumTx := 0, jcTx := 0, esTx := { x.esTx with wr := x.esTx.size / 2, rd := 0 }
    ptrTx := { value := if x.typ = 0x12 ∨ x.port.isNone then 0 else 522, ndf := isVc x.typ }
    seqTx := 0, chk := [x.chk.getD 0 0, x.chk.getD 1 0, 0, 0], poisonOut := 0 }

/-- Takes up whether the container of a tributary, and an aligner of its own, deliver words: none out of frame
(04 R88, R104; 05 R119, R139). -/
def settleWords (n : Nat) (t : Time) (d : Dev) : Dev :=
  match d.trib n with
  | none => d
  | some x =>
    match x.port with
    | some p => (match d.port p with
      | some y => if isSdh y.typ then sdhWords p t d else if isOtn y.typ then otnWords p t d else d
      | none => d)
    | none =>
      if isOdu x.typ then setWords [n] (fun _ => x.fr.st != .inFrame) t d
      else if isVc x.typ then tuWords x.parent t d else d

/-- Starts the receive direction of a tributary in its container. -/
def startRx (n : Nat) (t : Time) (d : Dev) : Dev :=
  match d.trib n with
  | none => d
  | some x => settleWords n t (syncWatches t (refresh t (startFifo n x true (d.modTrib n fun y => y.startRx t))))

/-- Starts the transmit direction of a tributary in its container. -/
def startTx (n : Nat) (d : Dev) : Dev :=
  match d.trib n with
  | none => d
  | some x => refreshTx n (startFifo n x false (d.modTrib n fun y => y.startTx))

/-- Starts a tributary in its container. -/
def startTrib (n : Nat) (t : Time) (d : Dev) : Dev := startTx n (startRx n t d)

/-- Takes up the slots of a server whose clients change (05 R138). -/
def settleSlots (n : Nat) (t : Time) (d : Dev) : Dev :=
  match d.trib n with | some y => if isOdu y.typ then psiDefects n t d else d | none => d

/-- Creates a context in a unit, with the layers and bins of a new object (10 R242, R250). -/
def createTrib (n : Nat) (x : Trib) (u : Nat) (t : Time) (d : Dev) : Dev :=
  let size := if x.typ = 0x0A then 0 else esSizeOf x
  let b := storeBase d u size
  let x := { x with unit := u, entry := freeEntry d u, created := t, gen := 1, rxF := ⟨0, t, t⟩, txF := ⟨0, t, t⟩, esRx := { base := b, size := size } }
  let d := d.onFab fun f => { f with tribs := tput f.tribs n x, layers := tput f.layers (pathKey n) {} }
  let b2 := storeBase d u size
  let d := d.modTrib n fun y => { y with esTx := { base := b2, size := size } }
  settleSlots x.parent t (settleSlice u t (startTrib n t (suspectBins [pathKey n] d)))

/-- The direction of a part takes up its use; the first one creates the context (02 R46; 07 R167). -/
def applyCreate (r : TribReq) (c : Change) (rx tx : Bool) (t : Time) (d : Dev) : Dev :=
  let d := if (d.trib r.n).isSome then d
    else
      let x := { newTrib d r c.sender with rxOn := false, txOn := false }
      let u := match c.place with | some p => p.unit | none => (match placeTrib d x with | .ok u => u | .error _ => 0xFF)
      createTrib r.n x u t d
  d.modTrib r.n fun y => { y with rxOn := if rx then r.rxOn else y.rxOn, txOn := if tx then r.txOn else y.txOn }

/-- Stops the acceptance of new words; what is queued drains (07 R189). -/
def stopTrib (n : Nat) (del : Option Nat) (t : Time) (d : Dev) : Dev :=
  d.modTrib n fun x => { x with enabled := false, txEn := x.txEn && del.isNone, gen := x.gen + 1, drain := some ⟨t, del⟩ }

/-- Tributaries that a tributary feeds. -/
def fedBy (d : Dev) (n : Nat) : List Nat := (d.fab.xc.filter fun c => c.src == n).map (·.dst)

/-- Takes a tributary away with all it holds (07 R191). -/
def freeTrib (n : Nat) (t : Time) (d : Dev) : Dev :=
  match d.trib n with
  | none => d
  | some x =>
    let ks := pathKey n :: (List.range 6).map fun i => tcmKey (i + 1) n
    let d := suspectBins (ks.filter fun k => (tget d.fab.layers k).isSome) d
    let fs := [fifoKey ⟨.esRx, n⟩, fifoKey ⟨.esTx, n⟩, fifoKey ⟨.pktIn, n⟩, fifoKey ⟨.pktOut, n⟩]
    let d := d.onFab fun f => { f with
      tribs := tdel f.tribs n, layers := f.layers.filter fun e => !ks.contains e.1
      migs := f.migs.filter (·.t != n), plan := f.plan.filter (·.t != n)
      feeds := f.feeds.filter fun e => e.1 != .trib n && e.2 != .trib n
      fifos := f.fifos.filter fun e => !fs.contains e.1, scheds := tdel f.scheds n, maps := tdel f.maps n }
    settleSlots x.parent t (settleSlice x.shadow t (settleSlice x.unit t (refresh t d)))

/-! ### TRIB_CREATE -/

def ownsTrib (x : Ctx) (d : Dev) : Bool := match d.trib (fld (x.w 4) 16 0) with | some y => y.owner == x.m | none => false
def tribExists (x : Ctx) (d : Dev) : Option Err := need (d.trib (fld (x.w 4) 16 0)).isSome (badArg 4 0)

/-- The sender owns the port or container that is to carry the tributary. -/
def ownsCarrier (x : Ctx) (d : Dev) : Bool :=
  match carrierOf d (tribReq x.w) with | .port _ y => y.owner == x.m | .trib _ y => y.owner == x.m | .none => true

/-- Is the place of a change usable: its slice no longer waking? -/
def placeReady (c : Change) (d : Dev) : Bool :=
  match c.place with
  | some p => decide (32 ≤ p.unit) || (d.slice p.unit).st != .waking
  | none => true

/-- A creation wakes the slice it was given, if that is down (07 R171; 14 R340). -/
def wakePlace (c : Change) (d : Dev) : Dev :=
  match c.place with
  | some p => if p.unit < 32 && !sliceUp d p.unit then wakeSlice p.unit c.accepted d else d
  | none => d

def isTxPart : Part → Bool
  | .frame _ .tx => true
  | _ => false

def cmdTribCreate : Cmd := {
  code := 0x0301, n := 16, kind := .config, vf := true
  mask := [(4, tMask), (5, bitsMask 31 22 + bitsMask 20 19 + bitsMask 16 0), (6, anyW), (7, bitsMask 29 0)
    , (8, bitsMask 31 24 + bitsMask 11 0), (9, anyW), (10, anyW), (11, anyW), (12, anyW), (13, anyW)
    , (14, bitsMask 31 31 + portMask), (15, bitsMask 15 0)]
  enc := fun ws =>
    let w := ws.getD 5 0
    (if tribTypeOk (fld w 31 26) then [] else [(5, 31, 26)])
      ++ ((badReserved (bitsMask 31 12 + optsMask (fld w 31 26) (fld w 25 23)) (ws.getD 8 0)).map fun r => (8, r.1, r.2)).toList
  perm := ownsCarrier
  chk := fun x d => tribCreateErr d (tribReq x.w) x.m
  obj := fun x _ => .trib (fld (x.w 4) 16 0)
  parts := fun x d =>
    createParts d (tribReq x.w)
  place := fun x d => tribPlace d (tribReq x.w) x.m
  ready := placeReady
  onAccept := wakePlace
  key := fun ws => some (ws.getD 4 0, 0)
  apply := fun c p t d =>
    let r := tribReq c.w
    match p with
    | .frame _ .rx => applyCreate r c true false t d
    | .frame _ .tx => applyCreate r c false true t d
    | _ => applyCreate r c true true t d }

/-! ### TRIB_MODIFY -/

/-- A tributary with a new rate or options, and what follows from them. -/
def retune (d : Dev) (x : Trib) : Trib :=
  if x.port.isSome then x else match d.trib x.parent with | some y => withGmp y.typ y.rate x | none => x
def retuneTx (d : Dev) (x : Trib) : Trib :=
  if x.port.isSome then x else match d.trib x.parent with | some y => withTxGmp y.typ y.rate x | none => x

/-- Is a resize of a tributary in progress or accepted (07 R188)? -/
def resizing (d : Dev) (n : Nat) (x : Trib) : Bool :=
  x.resize.isSome || d.fab.fw.changes.any fun c => c.code == 0x0306#16 && c.obj == .trib n

/-- TRIB_MODIFY: each direction takes up its half of the options at its own boundary; lck and the rate of a packet
stream, which its scheduler serves, are the transmit direction's (02 R46). -/
def cmdTribModify : Cmd := {
  code := 0x0302, n := 8, kind := .config, vf := true
  mask := [(4, tMask), (5, bitsMask 31 28), (6, bitsMask 31 24 + bitsMask 11 0), (7, bitsMask 29 0)]
  perm := ownsTrib
  chk := fun x d =>
    let n := fld (x.w 4) 16 0
    match d.trib n with
    | none => some (badArg 4 0)
    | some y =>
      let w := x.w 5
      let z := retune d { y with tol := fld (x.w 6) 31 24 }
      firstErr [
        need (!bitAt w 31 || isOdu y.typ) (badArg 5 31),
        need (!bitAt w 28 || y.typ == 0x29) (badArg 5 28),
        need (!bitAt w 29 || (x.w 6).toNat % 4096 &&& (0xFFF - optsMask y.typ y.method) == 0) (badArg 6 0),
        need (!bitAt w 29 || !isCarrier { y with opts := BitVec.ofNat 12 (fld (x.w 6) 11 0) } || !manySlots d y) (badArg 6 0),
        need (!bitAt w 29 || y.method != 3 || decide (z.cmMax ≤ z.pServer)) (badArg 6 24),
        need (!bitAt w 28 || fld (x.w 7) 29 0 != 0) (badArg 7 0),
        need (!resizing d n y) ⟨rcConflict, n⟩,
        need (!bitAt w 29 || isCarrier y || !isCarrier { y with opts := BitVec.ofNat 12 (fld (x.w 6) 11 0) }
          || decide (carrierCount d < 320)) (noResource 1),
        need (!bitAt w 28 || (decide (fld (x.w 7) 29 0 ≤ 400000000)
          && (decide (32 ≤ y.unit) || decide (sliceKbps d y.unit + fld (x.w 7) 29 0 - y.rate ≤ 400000000)))) (noResource 1)]
  obj := fun x _ => .trib (fld (x.w 4) 16 0)
  parts := fun x d => contParts d (fld (x.w 4) 16 0)
  place := fun x d =>
    match d.trib (fld (x.w 4) 16 0) with
    | some y => if bitAt (x.w 5) 28 then some ⟨fld (x.w 4) 16 0, false, y.unit, fld (x.w 7) 29 0 - y.rate, 0⟩ else none
    | none => none
  key := fun ws => some (ws.getD 4 0, 0)
  apply := fun c p t d =>
    let n := fld (c.w 4) 16 0
    let w := c.w 5
    if isTxPart p then
      refreshTx n ((settle n t d).modTrib n fun x =>
        let x := if bitAt w 29 then
            retuneTx d { x with txTol := fld (c.w 6) 31 24, txOpts := BitVec.ofNat 12 (fld (c.w 6) 11 0) } else x
        { x with lck := if bitAt w 31 then bitAt w 30 else x.lck, rate := if bitAt w 28 then fld (c.w 7) 29 0 else x.rate })
    else d.modTrib n fun x =>
      let x := if bitAt w 29 then
          retune d { x with tol := fld (c.w 6) 31 24, opts := BitVec.ofNat 12 (fld (c.w 6) 11 0) } else x
      { x with gen := x.gen + 1 } }

/-! ### TRIB_ENABLE, TRIB_DISABLE, TRIB_DELETE -/

/-- Boundaries of a tributary: of its container, or of its port for a first-level one (07 R167, R189). -/
def tribSrc (d : Dev) (n : Nat) : Obj :=
  match d.trib n with
  | some x => (match x.port with | some p => .port p | none => contSrc d n)
  | none => .dev

def tribParts (d : Dev) (n : Nat) : List Part := [.frame (tribSrc d n) .rx, .frame (tribSrc d n) .tx]

/-- The W4 key of an enable or disable replaces the other's entry. -/
def sameT (ws : List Word) (code : Nat) (e : DbEntry) : Bool := e.code.toNat == code && e.obj == ws.getD 4 0

def cmdTribEnable : Cmd := {
  code := 0x0303, n := 8, kind := .config, vf := true, mask := [(4, tMask)]
  perm := ownsTrib, chk := tribExists
  obj := fun x _ => .trib (fld (x.w 4) 16 0)
  parts := fun x d => tribParts d (fld (x.w 4) 16 0)
  key := fun ws => some (ws.getD 4 0, 0)
  drop := fun ws e => sameT ws 0x0304 e
  apply := fun c p t d =>
    let n := fld (c.w 4) 16 0
    match d.trib n with
    | none => d
    | some x =>
      if isTxPart p then
        if x.txEn then d else startTx n (d.modTrib n fun x => { x with txEn := true })
      else if x.enabled then d
      else suspectBins [pathKey n] (startRx n t (d.modTrib n fun x => { x with enabled := true, gen := x.gen + 1 })) }

def cmdTribDisable : Cmd := {
  code := 0x0304, n := 8, kind := .config, vf := true, mask := [(4, tMask)]
  perm := ownsTrib, chk := tribExists
  obj := fun x _ => .trib (fld (x.w 4) 16 0)
  parts := fun x d => tribParts d (fld (x.w 4) 16 0)
  key := fun ws => some (ws.getD 4 0, 0)
  drop := fun ws e => sameT ws 0x0303 e
  apply := fun c p t d =>
    let ns := familyOf d (fld (c.w 4) 16 0)
    if isTxPart p then ns.foldl (fun d n => refreshTx n (d.modTrib n fun x => { x with txEn := false })) d
    else
      suspectBins (ns.map pathKey) (ns.foldl (fun d n =>
        match d.trib n with | some x => if x.enabled then stopTrib n none t d else d | none => d) d) }

/-- The lowest T among the children and the ends of connections of a tributary (07 R191). -/
def lowestTie (d : Dev) (n : Nat) : Option Nat :=
  let ends := (d.fab.xc.filter fun c => c.src == n || c.dst == n).map fun c => if c.src = n then c.dst else c.src
  (kidsOf d n ++ ends).foldl (fun b k => match b with | some m => some (min m k) | none => some k) none

def cmdTribDelete : Cmd := {
  code := 0x0305, n := 8, kind := .config, vf := true, mask := [(4, tMask)]
  perm := ownsTrib
  chk := fun x d => firstErr [tribExists x d, conflictT (lowestTie d (fld (x.w 4) 16 0)),
    conflictT (groupOf d (.trib (fld (x.w 4) 16 0)))]
  obj := fun x _ => .trib (fld (x.w 4) 16 0)
  parts := fun _ _ => [.own]
  drop := fun ws e =>
    let c := e.code.toNat
    fld e.obj 16 0 == fld (ws.getD 4 0) 16 0 &&
      (c / 256 == 3 || c / 256 == 6 || c == 0x0214 || c == 0x0216 || c == 0x0223
        || (bitAt e.obj 31 && (c == 0x0209 || c == 0x0211 || c == 0x0212 || c == 0x0215)))
  apply := fun c _ t d => freeTrib (fld (c.w 4) 16 0) t d }

/-! ### TRIB_STATUS_GET -/

/-- The accepted values of a tributary's filters, as items from number 4, the instance naming the filter (log entry 23). -/
def filterItems (x : Trib) : List Word :=
  let l := fun (k inst : Nat) (f : FiltL) => match f.acc with | some os => item k inst (packWords os) | none => []
  let v := fun (k inst : Nat) (f : Filt) => match f.acc with | some n => item k inst [wd n] | none => []
  l 4 0 x.pm.tti ++ v 5 0 x.pm.stat ++ l 6 0 x.ftfl ++ l 7 0 x.psi ++ v 8 0 x.pt ++ v 9 0 x.label ++ l 10 0 x.jf
    ++ (if isCarrier x then item 12 0 [wd x.fg.rxCarrierId.toNat] else [])
    ++ x.tcm.flatMap (fun e => l 4 e.1 e.2.tti ++ v 5 e.1 e.2.stat) ++ x.aps.flatMap (fun e => v 11 e.1 e.2)

def cmdTribStatusGet : Cmd := {
  code := 0x0307, n := 8, kind := .query, vf := true, i2c := true, mask := [(4, tMask)]
  perm := ownsTrib, chk := tribExists
  run := fun x d =>
    let n := fld (x.w 4) 16 0
    match d.trib n with
    | none => { dev := d }
    | some y =>
      { dev := d
        items := item 1 0 [wd y.unit] ++ item 2 0 [w28 d n] ++ item 3 0 [Config.pipeDelay n] ++ filterItems y } }

end Sys2Proof.Machine
end

