-- ==== Sys2Proof/Machine/Fifos.lean ====
section
/-!
DEFINITION. FIFOs and elastic stores, the packet buffer's compatibility layout and watermark groups (08 R195-R220;
01 R23-R25).
-/
namespace Sys2Proof.Machine

/-! ### Classes (08 R195, R200) -/

/-- A packet FIFO: entries commit by packet (08 R197). -/
def isPktCls : FifoCls → Bool
  | .pktIn | .pktOut | .pbq => true
  | _ => false

/-- Stall mode on an empty read (08 R195). -/
def isStallCls : FifoCls → Bool
  | .pbq | .cdma => true
  | _ => false

def isEsCls : FifoCls → Bool
  | .esRx | .esTx => true
  | _ => false

/-- Depth of a class whose instances no tributary creates; a packet-buffer queue may fill its bank, 16 Mbit of 40-bit
entries (01 R26). -/
def clsDepth : FifoCls → Nat
  | .xc => 1024
  | .cdma => 512
  | .pbq => 400000
  | _ => 0

/-- The FIFO, of its class's depth where it has not been used. -/
def fifoOf (d : Dev) (f : FifoId) : Fifo := tgetD d.fab.fifos (fifoKey f) { depth := clsDepth f.cls }
def setFifo (f : FifoId) (q : Fifo) (d : Dev) : Dev := d.onFab fun b => { b with fifos := tput b.fifos (fifoKey f) q }

/-- The compatibility layout of the packet buffer holds a gap marker in two entries (08 R216). -/
def gapSize (d : Dev) (c : FifoCls) : Nat := if c == .pbq && d.fab.boot.pbCompat then 2 else 1

/-- Where the tributary of a FIFO counts (10 R246); none for XC, PBQ and CDMA. -/
def fifoLayer (f : FifoId) : Option Nat :=
  match f.cls with | .esRx | .esTx | .pktIn | .pktOut => some (pathKey f.inst) | _ => none

/-- Adds to a counter of the FIFO's tributary. -/
def fifoCnt (f : FifoId) (num n : Nat) (d : Dev) : Dev := match fifoLayer f with | some k => addCnt k num n d | none => d

/-! ### Lane-word checks (01 R23, R24) -/

/-- LW_PARITY of a stage: its source, and the detecting slice's or bank's counter. -/
def lwParity (src : Nat) (detail : Word) (t : Time) (d : Dev) : Dev :=
  let d := if src < 0x20 then addCnt (objKey 0x0B src) 0x72 1 d
    else if 0x30 ≤ src ∧ src < 0x38 then addCnt (objKey 0x0C (src - 0x30)) 0x72 1 d else d
  fault src detail t d

/-- The LW_PARITY source of a FIFO (18 R416): its slice, its bank or the cross-connect. -/
def parityUnit (d : Dev) (f : FifoId) : Option Nat :=
  match f.cls with
  | .xc => some 0x38
  | .cdma => none
  | .pbq => some (0x30 + (tgetD (d.sched (f.inst / 8)).queues (f.inst % 8) {}).bank % 8)
  | _ => match d.trib f.inst with | some x => if x.unit < 0x30 then some x.unit else none | none => none

/-! ### Writing (08 R201-R207) -/

/-- Saturating count of dropped items. -/
def satGap (n : Nat) : Nat := min n (2 ^ 32 - 1)

def gapWord (n : Nat) (bad : Bool := false) : LaneWord := lw tagGap (wd n) bad

/-- One or two entries of a gap marker; a count that came poisoned stays so (01 R25; 08 R214). -/
def gapEntries (size n : Nat) (bad : Bool := false) : List LaneWord :=
  if size = 2 then [lw tagData 0, lw tagData (wd n) bad] else [gapWord n bad]

/-- Free entries. -/
def Fifo.room (q : Fifo) : Nat := q.depth - q.entries.length

/-- An item is dropped at a full FIFO (08 R202). -/
def Fifo.dropItem (q : Fifo) : Fifo :=
  { q with gapFlag := true, gap := satGap (q.gap + 1), drops := q.drops + 1, dropRun := true }

/-- A gap marker arrives (08 R204): added to a pending count, or written and committed. Poison is kept (01 R25). -/
def Fifo.putGap (q : Fifo) (size n : Nat) (bad : Bool := false) : Fifo :=
  if q.gapFlag ∨ q.room < size then { q with gapFlag := true, gap := satGap (q.gap + n), gapBad := q.gapBad || bad }
  else { q with entries := q.entries ++ gapEntries size n bad, committed := q.entries.length + size }

/-- The pending gap marker is written (08 R203). -/
def Fifo.flushGap (q : Fifo) (size : Nat) : Fifo :=
  if q.gapFlag then { q with
    entries := q.entries ++ gapEntries size q.gap q.gapBad, committed := q.entries.length + size, gapFlag := false, gap := 0
    gapBad := false } else q

/-- A word is written to a word FIFO (08 R202, R203). -/
def Fifo.putWord (q : Fifo) (w : LaneWord) : Fifo :=
  if lwTag w = tagGap then q.putGap 1 (lwPayload w).toNat (lwPoison w)
  else if q.room < 1 + b2n q.gapFlag then q.dropItem
  else
    let q := q.flushGap 1
    { q with entries := q.entries ++ [w], committed := q.entries.length + 1, dropRun := false }

/-- The packet in progress does not fit, or breaks off: rewind, a gap marker of count 1, the rest discarded (08 R207). -/
def Fifo.rewind (q : Fifo) (size : Nat) : Fifo :=
  let m := q.mark.getD q.entries.length
  { q with
    entries := q.entries.take m ++ gapEntries size 1, committed := m + size, mark := none, discarding := true
    overruns := q.overruns + 1 }

/-- A packet starts (08 R205). The length slot is reserved at the rewind mark. -/
def Fifo.startPkt (q : Fifo) (size : Nat) (w : LaneWord) : Fifo :=
  let q := if q.mark.isSome then q.rewind size else q
  if q.room < 2 + (if q.gapFlag then size else 0) then { q.dropItem with discarding := true }
  else
    let q := q.flushGap size
    { q with
      mark := some q.entries.length, entries := q.entries ++ [lw tagData 0, w], discarding := false, pktLen := 1
      poisonAny := lwPoison w, dropRun := false }

/-- A word within a packet (08 R207). -/
def Fifo.midPkt (q : Fifo) (size : Nat) (w : LaneWord) : Fifo :=
  if q.mark.isNone then q
  else if q.room = 0 then q.rewind size
  else { q with entries := q.entries ++ [w], pktLen := q.pktLen + 1, poisonAny := q.poisonAny || lwPoison w }

/-- The length slot (08 R206). -/
def slotWord (len : Nat) (poison : Bool) : LaneWord := lw tagData (wd (len * 65536 + b2n poison * 32768))

/-- A packet ends: the slot is filled and the packet commits (08 R206). -/
def Fifo.endPkt (q : Fifo) (size : Nat) (w : LaneWord) : Fifo :=
  let q := q.midPkt size w
  match q.mark with
  | none => q
  | some m =>
    let es := q.entries.set m (slotWord (4 * (q.pktLen - 1) + lwCount w + 1) q.poisonAny)
    { q with entries := es, committed := es.length, mark := none }

/-- Any word that a FIFO is given, by its class; idle fill is ignored on receipt (01 R20). A gap marker that arrives within a
packet breaks it off, as a packet start does (08 R207; DESIGN CHOICE, log entry 89). -/
def Fifo.put (q : Fifo) (pkt : Bool) (size : Nat) (w : LaneWord) : Fifo :=
  if lwTag w = tagIdle then q
  else if !pkt then q.putWord w
  else if lwTag w = tagGap then (if q.mark.isSome then q.rewind size else q).putGap size (lwPayload w).toNat (lwPoison w)
  else if lwTag w = tagStart then q.startPkt size w
  else if lwTag w = tagEnd then q.endPkt size w
  else q.midPkt size w

/-! ### Reading (08 R198-R200, R204, R208) -/

/-- Takes the oldest entry away. -/
def Fifo.pop (q : Fifo) : Fifo :=
  { q with entries := q.entries.drop 1, committed := q.committed - 1, mark := q.mark.map fun m => m - 1 }

/-- An empty read. -/
def Fifo.emptyRead (q : Fifo) (stall : Bool) : Fifo :=
  if stall then { q with stalled := true, stalls := q.stalls + 1 }
  else { q with underrun := true, under := q.under + 1, emptyRun := true }

/-- What a read found: the FIFO after it, items announced by gap markers it consumed and whether a count of them is
unreliable, whether a parity error, and the word delivered, if any. -/
structure ReadRes where
  q : Fifo
  gaps : Nat := 0
  unsure : Bool := false
  bad : Bool := false
  out : Option LaneWord := none

/-- The word that a read delivers. -/
def Fifo.deliver (q : Fifo) (w : LaneWord) : Fifo := { q with last := w, emptyRun := false, stalled := false }

/-- An empty read delivers the last payload again in last-value mode: a word whose tag nothing acts on (08 R198). -/
def Fifo.again (q : Fifo) (stall : Bool) : Option LaneWord :=
  if stall then none else some (lw tagData (lwPayload q.last) (lwPoison q.last))

/-- Poisons the words of the packet at the front. -/
def poisonPacket : List LaneWord → List LaneWord
  | [] => []
  | w :: r => lwPoisoned w :: (if lwTag w = tagEnd then r else poisonPacket r)

/-- Octets of the packet at the front, found by its packet-end tag. -/
def frontLen : Nat → List LaneWord → Nat
  | n, [] => 4 * n
  | n, w :: r => if lwTag w = tagEnd then 4 * n + lwCount w + 1 else frontLen (n + 1) r

/-- A read of at most `n` entries; an elastic store consumes gap markers on the way, a packet reader a length slot. -/
def Fifo.read (pkt es stall : Bool) : Nat → Option LaneWord → Fifo → ReadRes
  | 0, _, q => { q := q }
  | n + 1, hit, q =>
    if q.committed = 0 then { q := q.emptyRead stall, out := q.again stall }
    else
      let e := q.entries.headD 0
      let v := hit.getD e
      let (w, bad) := stageRead v
      let q1 := q.pop
      if lwTag v = tagGap && lwTag e == tagGap && (es || q.lenIn.isNone) then
        let c := (lwPayload w).toNat
        if es then
          let r := Fifo.read pkt es stall n none q1
          { r with gaps := r.gaps + c, unsure := r.unsure || lwPoison w, bad := r.bad || bad }
        else { q := q1.deliver w, gaps := c, unsure := lwPoison w, bad := bad, out := some w }
      else if pkt && q.lenIn.isNone && lwTag e == tagData then
        let q2 := if bad then { q1 with
            entries := poisonPacket q1.entries, lenIn := some (wd (frontLen 0 q1.entries * 65536 + 32768)) }
          else { q1 with lenIn := some (lwPayload w) }
        let r := Fifo.read pkt es stall n none q2
        { r with bad := r.bad || bad }
      else
        { q := (if pkt && lwTag v == tagEnd then { q1.deliver w with lenIn := none } else q1.deliver w)
          bad := bad, out := some w }

/-- The pointers of an elastic store as its context holds them (07 R173 W16, W18), moved past entries written or read, and
the octets written to the transmit store in the GMP period (07 R179). -/
def esMove (f : FifoId) (wr rd : Nat) (d : Dev) : Dev :=
  let go := fun (e : Es) => { e with wr := (e.wr + wr) % max e.size 1, rd := (e.rd + rd) % max e.size 1 }
  match f.cls with
  | .esRx => d.modTrib f.inst fun x => { x with esRx := go x.esRx }
  | .esTx => d.modTrib f.inst fun x => { x with esTx := go x.esTx, cn := x.cn + 4 * wr }
  | _ => d

/-- A write with its counts (08 R199, R202, R207). -/
def writeFifo (f : FifoId) (w : LaneWord) (d : Dev) : Dev :=
  let q := fifoOf d f
  let r := q.put (isPktCls f.cls) (gapSize d f.cls) w
  let d := esMove f (r.entries.length - q.entries.length) 0 (setFifo f r d)
  let d := if r.drops != q.drops then
      fifoCnt f 0x51 1 (if isEsCls f.cls && !q.dropRun then fifoCnt f 0x26 1 d else d)
    else d
  if r.overruns != q.overruns then fifoCnt f 0x52 1 d else d

/-- The fill of a transmit elastic store against its centre, in words (08 R196). -/
def txFill (d : Dev) (n : Nat) (x : Trib) : Int :=
  ((fifoOf d ⟨.esTx, n⟩).committed : Int) - (x.esTx.size / 2 : Nat)

/-- LW_PARITY where the FIFO's stage read a word that fails its check (01 R23, R24). -/
def fifoParity (f : FifoId) (bad : Bool) (t : Time) (d : Dev) : Dev :=
  if bad then (match parityUnit d f with | some u => lwParity u (wd f.inst) t d | none => d) else d

/-- A word that a stage reads and writes to a FIFO. -/
def storeWord (f : FifoId) (w : LaneWord) (t : Time) (d : Dev) : Dev :=
  let r := stageRead w
  writeFifo f r.1 (fifoParity f r.2 t d)

/-- Words written in order. -/
def storeWords (f : FifoId) (ws : List LaneWord) (t : Time) (d : Dev) : Dev := ws.foldl (fun d w => storeWord f w t d) d

/-- The store that a tributary's received words enter: its elastic store, or the packet FIFO of a stream (01 R17). -/
def rxStore (x : Trib) (n : Nat) : FifoId := ⟨if x.typ = 0x29 then .pktIn else .esRx, n⟩
def txStore (x : Trib) (n : Nat) : FifoId := ⟨if x.typ = 0x29 then .pktOut else .esTx, n⟩

/-- Do words fail to reach a store because a source delivers none (10 R236)? Its underruns are then no slip. -/
def wordless (d : Dev) (f : FifoId) : Bool :=
  let none_ := fun n => (d.layer (pathKey n)).noWords || stopped d n || serverSilent d 5 n
  match f.cls with
  | .esRx => none_ f.inst
  | .esTx => (match sourceOf d f.inst with | some s => none_ (selectedTrib d s) | none => false)
  | _ => false

/-- A read with its counts, and the word delivered (08 R198, R199, R214; 10 R246). -/
def takeFifo (f : FifoId) (hit : Option LaneWord) (t : Time) (d : Dev) : Option LaneWord × Dev :=
  let q := fifoOf d f
  let r := Fifo.read (isPktCls f.cls) (isEsCls f.cls) (isStallCls f.cls) (q.entries.length + 1) hit q
  let d := esMove f 0 (q.entries.length - r.q.entries.length) (setFifo f { r.q with unsure := r.q.unsure || r.unsure } d)
  let d := if r.q.under != q.under then
      fifoCnt f 0x50 1 (if isEsCls f.cls && !q.emptyRun && !wordless d f then fifoCnt f 0x26 1 d else d)
    else d
  (r.out, fifoParity f r.bad t (fifoCnt f 0x55 r.gaps d))

/-- Does a FIFO exist: that of a tributary, an attachment's two directions, a core's or a queue's? -/
def fifoExists (d : Dev) (f : FifoId) : Bool :=
  match f.cls with
  | .esRx | .esTx => (match d.trib f.inst with | some x => x.typ != 0x29 | none => false)
  | .pktIn | .pktOut => (match d.trib f.inst with | some x => x.typ == 0x29 | none => false)
  | .xc => decide (f.inst < 96)
  | .cdma => decide (f.inst < 4)
  | .pbq => decide (f.inst < 8 * 131072)

/-- PACKET_START_WRITE (08 R205). -/
def execPacketStartWrite (f : FifoId) (w : LaneWord) (s : State) : Out :=
  s.run (gFab fun t d => if fifoExists d f && isPktCls f.cls && lwTag w == tagStart then storeWord f w t d else d)

/-- PACKET_END_WRITE (08 R206). -/
def execPacketEndWrite (f : FifoId) (w : LaneWord) (s : State) : Out :=
  s.run (gFab fun t d => if fifoExists d f && isPktCls f.cls && lwTag w == tagEnd then storeWord f w t d else d)

/-- FIFO_STALL_LONG (08 R200): a stall of over 64 µs of a stall-mode FIFO. -/
def execFifoStallLong (f : FifoId) (s : State) : Out :=
  s.run (gFab fun t d => if isStallCls f.cls && (fifoOf d f).stalled then fault 0x167 (wd f.inst) t d else d)

/-- A gap marker of a demapper into the packet FIFO of a stream (07 R184, R186). -/
def gapInto (n : Nat) (d : Dev) : Dev :=
  let f : FifoId := ⟨.pktIn, n⟩
  setFifo f ((fifoOf d f).putGap 1 1) d

/-! ### Compatibility layout (08 R215-R220) -/

/-- Codeword positions of the data bits: 1 to 39 but the powers of two (08 R217). -/
def dataPos : List Nat := ((List.range 40).drop 1).filter fun p => !([1, 2, 4, 8, 16, 32].contains p)

/-- The check bits over 33 data bits, d[32] = ext (08 R217). -/
def hamBits (x : Nat) : Nat :=
  (List.range 33).foldl (fun a i => if x.testBit i then a ^^^ dataPos.getD i 0 else a) 0

/-- An entry of the compatibility layout (08 R216, R217). -/
def hamEntry (payload : Word) (ext : Bool) : BitVec 40 :=
  let x := b2n ext * 2 ^ 32 + payload.toNat
  let y := hamBits x * 2 ^ 33 + x
  BitVec.ofNat 40 (popCount 39 y % 2 * 2 ^ 39 + y)

/-- What the bank makes of an entry (08 R218). -/
structure EccRes where
  payload : Word
  ext : Bool
  corr : Bool
  bad : Bool
deriving DecidableEq, Repr

def eccRead (e : BitVec 40) : EccRes :=
  let x := e.toNat % 2 ^ 33
  let s := hamBits x ^^^ (e.toNat / 2 ^ 33 % 64)
  let odd := popCount 40 e.toNat % 2 == 1
  let y := match dataPos.findIdx? (· == s) with | some i => if odd then x ^^^ 2 ^ i else x | none => x
  ⟨wd (y % 2 ^ 32), y.testBit 32, odd && decide (s < 40), (odd && decide (40 ≤ s)) || (!odd && s != 0)⟩

/-- A gap marker with poison. -/
def badGap : List LaneWord := [lw tagGap 1 true]

/-- The lane words of a packet's payload words: `len` octets, or ended early with octet_count 0b11. -/
def buildPacket (ws : List LaneWord) (len : Option Nat) (poison : Bool) : List LaneWord :=
  let n := ws.length
  (List.range n).map fun i =>
    let w := ws.getD i 0
    let p := poison || lwPoison w
    if i + 1 = n then
      let c := match len with | some l => (l + 3) % 4 | none => 3
      lw tagEnd (lwPayload w &&& wd (2 ^ 32 - 2 ^ (8 * (3 - c)))) p c
    else lw (if i = 0 then tagStart else tagData) (lwPayload w) p

/-- A control entry: a length slot, or a gap-marker header. -/
def takeControl (payload : Word) : PbExpect :=
  if payload = 0 then .gapCount
  else .data ((fld payload 31 16 + 3) / 4) (fld payload 31 16) (bitAt payload 15) []

/-- One entry: what is expected next, what is delivered, and whether an undetected error shows (08 R219). -/
def pbStep (x : PbExpect) (e : EccRes) : PbExpect × List LaneWord × Bool :=
  match x with
  | .skip => if !e.bad && e.ext then (takeControl e.payload, [], false) else (.skip, [], false)
  | .control =>
    if e.bad then (.skip, badGap, false)
    else if !e.ext then (.skip, badGap, true)
    else (takeControl e.payload, [], false)
  | .gapCount =>
    if e.bad then (.control, [lw tagGap e.payload true], false)
    else if e.ext then (takeControl e.payload, badGap, true)
    else (.control, [lw tagGap e.payload], false)
  | .data left len poison ws =>
    if !e.bad && e.ext then
      (takeControl e.payload, if 2 ≤ ws.length then buildPacket ws none true else badGap, true)
    else
      let ws := ws ++ [lw tagData e.payload e.bad]
      if left ≤ 1 then (.control, buildPacket ws (some len) poison, false)
      else (.data (left - 1) len poison ws, [], false)

/-- PB_ENTRY_READ. -/
def execPbEntryRead (bank : Nat) (e : BitVec 40) (s : State) : Out :=
  s.run (gFab fun t d =>
    if 8 ≤ bank ∨ !d.fab.boot.pbCompat ∨ d.aon.coll.fenced.contains (0x30 + bank) then d
    else
      let x := tgetD d.fab.pb bank {}
      let r := eccRead e
      let (nx, out, odd) := pbStep x.expect r
      let un := r.bad || odd
      let d := d.onFab fun f => { f with pb := tput f.pb bank { x with
        expect := nx, out := out, corr := if r.corr then x.corr + 1 else x.corr, uncorr := if un then x.uncorr + 1 else x.uncorr } }
      let k := objKey 0x0C bank
      let d := if r.corr then fault (0xE8 + bank) 0 t (addCnt k 0x78 1 d) else d
      if un then fault (0xF0 + bank) 0 t (addCnt k 0x79 1 d) else d)

/-! ### Watermark groups (08 R210-R213) -/

/-- Entries of a queue's packets: a slot and the words of each. -/
def queueEntries (q : Queue) : Nat := sumBy (fun p => (p.len + 3) / 4 + 1) q.pkts

/-- The written depth of a member (08 R210). -/
def memberDepth (d : Dev) (m : Nat × Bool × Nat) : Nat :=
  if m.2.1 then queueEntries (tgetD (d.sched m.1).queues m.2.2 {}) else (fifoOf d ⟨.pktIn, m.1⟩).entries.length

/-- Pin XOFF[g] (08 R210). -/
def setXoff (g : Nat) (b : Bool) (d : Dev) : Dev :=
  d.onFab fun f => { f with xoff := if b then f.xoff ||| BitVec.ofNat 16 (2 ^ g) else f.xoff &&& ~~~BitVec.ofNat 16 (2 ^ g) }

/-- A flow control frame of a group's port (08 R212). -/
def sendPfc (x : WGroup) (time : Nat) (d : Dev) : Dev :=
  match x.pfc with
  | some (p, prio) => d.modPort p fun y => { y with eth := { y.eth with pfcOut := some (prio, time) } }
  | none => d

/-- A group's state against its depth (08 R211). -/
def evalGroup (g : Nat) (d : Dev) : Dev :=
  match tget d.fab.wgs g with
  | none => d
  | some x =>
    let depth := sumBy (memberDepth d) x.members
    let on := !x.members.isEmpty && (if x.on then decide (x.low ≤ depth) else decide (x.high ≤ depth))
    if on == x.on then d
    else sendPfc x (if on then 0xFFFF else 0)
      (setXoff g on (d.onFab fun f => { f with wgs := tput f.wgs g { x with on := on } }))

/-- WATERMARK_EVALUATION. -/
def execWatermarkEvaluation (g : Nat) (s : State) : Out := s.run (gRun fun _ d => evalGroup g d)

/-- PFC_REPEAT: every 32,768 quanta while the group stays asserted (08 R212). -/
def execPfcRepeat (g : Nat) (s : State) : Out :=
  s.run (gRun fun _ d =>
    match tget d.fab.wgs g with
    | some x => if x.on then sendPfc x 0xFFFF d else d
    | none => d)

/-- Members that a FC_GROUP_CONFIG's words name. -/
def groupMembers (ws : List Word) : List (Nat × Bool × Nat) :=
  ((ws.drop 8).take 8).filterMap fun w =>
    if bitAt w 31 then some (fld w 16 0, bitAt w 30, if bitAt w 30 then fld w 22 20 else 0) else none

def cmdFcGroupConfig : Cmd := {
  code := 0x0227, n := 16, kind := .config
  mask := [(4, bitsMask 31 31 + bitsMask 3 0), (5, anyW), (6, anyW), (7, bitsMask 31 31 + bitsMask 18 16 + bitsMask 7 0)]
    ++ (List.range 8).map fun i => (8 + i, bitsMask 31 30 + bitsMask 22 20 + bitsMask 16 0)
  frag := some fun ws =>
    let more := (groupMembers ws).length == 8
    let o := [wd (fld (ws.getD 4 0) 30 0)]
    if bitAt (ws.getD 4 0) 31 then ⟨false, true, 8, 8, o, 4, 31⟩ else ⟨true, !more, 0, 8, o, 4, 31⟩
  chk := fun x d =>
    let g := fld (x.w 4) 3 0
    let ms := x.msgs.flatMap groupMembers
    let port := 1024 + fld (x.w1 7) 7 0
    firstErr [
      need (decide ((x.w1 6).toNat < (x.w1 5).toNat)) (badArg 6 0),
      need (!bitAt (x.w1 7) 31 || (match d.port port with | some y => isEth y.typ && packetMode y | none => false)) (badArg 7 0),
      need (ms.all fun m => match d.trib m.1 with | some y => y.typ == 0x29 | none => false) (badArg 8 0),
      match d.fab.wgs.find? fun e => e.1 != g && e.2.members.any ms.contains with
        | some e => some ⟨rcConflict, e.1⟩
        | none => none]
  key := fun ws => some (ws.getD 4 0 &&& 0xF, if bitAt (ws.getD 4 0) 31 then ws.getD 8 0 else 0)
  drop := fun ws e => e.code.toNat == 0x0227 && !bitAt (ws.getD 4 0) 31 && e.obj == ws.getD 4 0 &&& 0xF
  apply := fun c _ _ d =>
    let g := fld (c.w 4) 3 0
    let w := fun i => (c.msgs.headD []).getD i 0
    let old := tgetD d.fab.wgs g {}
    let x : WGroup := {
      high := (w 5).toNat, low := (w 6).toNat, on := old.on, members := (c.msgs.flatMap groupMembers).eraseDups
      pfc := if bitAt (w 7) 31 then some (1024 + fld (w 7) 7 0, fld (w 7) 18 16) else none }
    evalGroup g (d.onFab fun f => { f with wgs := tput f.wgs g x }) }

end Sys2Proof.Machine
end

