-- ==== Sys2Proof/Machine/Connect.lean ====
section
/-!
DEFINITION. Cross-connections and the hitless resize of an ODUflex (07 R168-R170, R187, R188).
-/
namespace Sys2Proof.Machine

/-! ### Connections (07 R168-R170) -/

/-- The destinations that an XC_CONNECT names. -/
def xcDests (w : Nat → Word) : List Nat :=
  (List.range 8).filterMap fun i => if bitAt (w (5 + i)) 31 then some (fld (w (5 + i)) 16 0) else none

/-- The directed connections that it makes: source and destination. -/
def xcPairs (w : Nat → Word) : List (Nat × Nat) :=
  let s := fld (w 4) 16 0
  (xcDests w).map (fun t => (s, t)) ++ (if fld (w 4) 31 30 = 2 then (xcDests w).map fun t => (t, s) else [])

/-- Directed connections that pending commands will make (16 R380 item 6). -/
def xcPending (d : Dev) : List (Nat × Nat) :=
  (d.fab.fw.changes.filter fun c => c.code == 0x0401#16).flatMap fun c => xcPairs c.w

/-- The source that a destination has or is to have. -/
def xcHeld (d : Dev) (t : Nat) : Option Nat :=
  match sourceOf d t with
  | some s => some s
  | none => ((xcPending d).find? fun e => e.2 == t).map (·.1)

/-- Tributaries of one type, and of one rate but for packet streams. -/
def xcAlike (x y : Trib) : Bool := x.typ == y.typ && (x.typ == 0x29 || x.rate == y.rate)

/-- The transmit boundary of a destination (07 R170). -/
def xcPart (d : Dev) (t : Nat) : Part := .frame (contSrc d t) .tx

/-- A destination changes source (07 R170): NDF of an SDH path, IAE of an ODU, centred stores of GMP and AMP, those that the
transmitter reads (DEDUCED, log entry 80). -/
def sourceChanged (n : Nat) (d : Dev) : Dev :=
  match d.trib n with
  | none => d
  | some x =>
    let d := if isOdu x.typ then
        let d := setTxWaiting n [] (d.onFab fun f => { f with txOct := tput f.txOct n [] })
        let d := d.modTrib n fun y => { y with iaeLeft := 16, txGot := none }
        (match x.port with | some p => d.modPort p fun y => { y with otn := { y.otn with iaeLeft := 16 } } | none => d)
      else d
    let d := if isVc x.typ then d.modTrib n fun y => { y with ptrTx := { y.ptrTx with ndf := true } } else d
    let d := if x.method = 1 ∨ x.method = 3 then startFifo n x false d else d
    refreshTx n d

/-- One directed connection is made. -/
def connect (kind s n : Nat) (d : Dev) : Dev :=
  sourceChanged n (d.onFab fun f => { f with xc := (f.xc.filter fun c => c.dst != n) ++ [⟨s, n, kind⟩] })

def cmdXcConnect : Cmd := {
  code := 0x0401, n := 16, kind := .config, vf := true
  mask := (4, bitsMask 31 30 + bitsMask 16 0) :: (List.range 8).map fun i => (5 + i, bitsMask 31 31 + bitsMask 16 0)
  enc := fun ws => if fld (ws.getD 4 0) 31 30 = 0 then [(4, 31, 30)] else []
  perm := fun x d => (fld (x.w 4) 16 0 :: xcDests x.w).all fun n =>
    match d.trib n with | some y => y.owner == x.m | none => false
  chk := fun x d =>
    let s := fld (x.w 4) 16 0
    let ds := xcDests x.w
    let kind := fld (x.w 4) 31 30
    let like := fun n => match d.trib s, d.trib n with | some a, some b => xcAlike a b | _, _ => false
    let bad := (List.range 8).find? fun i => bitAt (x.w (5 + i)) 31 && !(like (fld (x.w (5 + i)) 16 0) && fld (x.w (5 + i)) 16 0 != s)
    firstErr [
      need (d.trib s).isSome (badArg 4 0),
      need (if kind = 3 then !ds.isEmpty else ds.length == 1) (badArg 5 31),
      bad.map fun i => badArg (5 + i) 0,
      need (ds.eraseDups.length == ds.length) (badArg 5 0),
      conflictT ((s :: ds).find? (isTerminated d)),
      conflictT ((s :: ds).findSome? fun n => groupOfProt d (.trib n)),
      conflictT ((xcPairs x.w).findSome? fun e => xcHeld d e.2)]
  obj := fun x _ => .trib ((xcDests x.w).headD 0)
  parts := fun x d => ((xcPairs x.w).map fun e => xcPart d e.2).eraseDups
  key := fun ws => some (ws.getD 4 0 &&& 0x1FFFF, ws.getD 5 0 &&& 0x1FFFF)
  apply := fun c p _ d =>
    (xcPairs c.w).foldl (fun d e => if xcPart d e.2 = p then connect (fld (c.w 4) 31 30) e.1 e.2 d else d) d }

/-- The ends that an XC_DISCONNECT takes the source from: a destination, and the other end of a bidirectional one. -/
def xcEnds (d : Dev) (n : Nat) : List Nat :=
  match d.fab.xc.find? fun c => c.dst == n with
  | some c => if c.kind = 2 then [n, c.src] else [n]
  | none => []

def cmdXcDisconnect : Cmd := {
  code := 0x0402, n := 8, kind := .config, vf := true, mask := [(4, tMask)]
  perm := ownsTrib
  chk := fun x d =>
    let n := fld (x.w 4) 16 0
    firstErr [tribExists x d, need (!(xcEnds d n).isEmpty) (badArg 4 0)]
  obj := fun x _ => .trib (fld (x.w 4) 16 0)
  parts := fun x d => ((xcEnds d (fld (x.w 4) 16 0)).map (xcPart d)).eraseDups
  drop := fun ws e =>
    e.code.toNat == 0x0401 && (e.sel == ws.getD 4 0 || (e.obj == ws.getD 4 0 && ((e.ws.drop 1).all (· == 0))))
  apply := fun c p t d =>
    let n := fld (c.w 4) 16 0
    let gone := d.fab.xc.filter fun e => (e.dst == n || (e.kind == 2 && e.src == n)) && xcPart d e.dst == p
    gone.foldl (fun d e =>
      let d := d.onFab fun f => { f with xc := f.xc.filter fun y => y != e }
      refreshTx e.dst (d.modTrib e.dst fun x => { x with drain := some ⟨t, none⟩ })) d }

/-- XC_GET: its source, then its destinations, each with the kind (log entry 23). -/
def cmdXcGet : Cmd := {
  code := 0x0403, n := 8, kind := .query, vf := true, i2c := true, mask := [(4, tMask)]
  perm := ownsTrib, chk := tribExists
  run := fun x d =>
    let n := fld (x.w 4) 16 0
    { dev := d
      items := ((d.fab.xc.filter fun c => c.dst == n).flatMap fun c => item 1 0 [wd (c.kind * 2 ^ 30 + c.src)])
        ++ ((d.fab.xc.filter fun c => c.src == n).flatMap fun c => item 2 0 [wd (c.kind * 2 ^ 30 + c.dst)]) } }

/-! ### ODUflex resize (07 R187, R188) -/

/-- Slots of an ODU server that no client holds. -/
def freeSlots (d : Dev) (n : Nat) (y : Trib) : List Nat :=
  let used := (kidsOf d n).flatMap fun c => match d.trib c with | some z => tsSlots z.tsMap | none => []
  (List.range (serverSlots d y)).filter fun s => !used.contains s

/-- A ts_map of slots. -/
def tsMapOf (ss : List Nat) : List Word :=
  (List.range 5).map fun i => wd (ss.foldl (fun a s => if s / 32 = i then a ||| 2 ^ (31 - s % 32) else a) 0)

/-- A tributary that holds other slots, with pos and the GMP fields. -/
def withSlots (y : Trib) (ss : List Nat) (x : Trib) : Trib :=
  withTxGmp y.typ y.rate <| withGmp y.typ y.rate { x with
    tsMap := tsMapOf ss, pos := (x.pos &&& wd 0xFFFF00FF) ||| wd (ss.length % 256 * 256), gen := x.gen + 1 }

/-- The slots of a client resized to a rate: the lowest free ones join, the highest leave (log entry 24). -/
def slotsAt (d : Dev) (x y : Trib) (kbps : Nat) : List Nat :=
  let need := flexSlots y.typ kbps
  let have_ := tsSlots x.tsMap
  if need ≤ have_.length then have_.take need
  else ((List.range 160).filter fun s => (have_ ++ (freeSlots d x.parent y).take (need - have_.length)).contains s)

/-- A tributary at its new rate, with what follows from it (07 R178, R188). -/
def ramped (d : Dev) (kbps : Nat) (x : Trib) : Trib := retuneTx d (retune d { x with rate := kbps })

def cmdOduflexResize : Cmd := {
  code := 0x0306, n := 8, kind := .config, vf := true, mask := [(4, tMask), (5, bitsMask 28 0)]
  perm := ownsTrib
  chk := fun x d =>
    let n := fld (x.w 4) 16 0
    let kbps := fld (x.w 5) 28 0
    match d.trib n with
    | none => some (badArg 4 0)
    | some z =>
      let server := if z.port.isSome then none else d.trib z.parent
      firstErr [
        need (z.typ != 0x07) ⟨rcNotPermitted, 0⟩,
        need (z.typ == 0x08 || z.typ == 0x09) (badArg 4 0),
        need (decide (1244160 ≤ kbps) && decide (kbps ≤ 400000000)) (badArg 5 0),
        match server with | some y => need (decide (flexSlots y.typ kbps ≤ serverSlots d y)) (badArg 5 0) | none => none,
        need (!resizing d n z) ⟨rcConflict, n⟩,
        match server with
          | some y => need (decide (flexSlots y.typ kbps ≤ (tsSlots z.tsMap).length + (freeSlots d z.parent y).length)) (noResource 1)
          | none => none,
        need (decide (32 ≤ z.unit) || decide (sliceKbps d z.unit + (kbps - z.rate) ≤ 400000000)) (noResource 1)]
  obj := fun x _ => .trib (fld (x.w 4) 16 0)
  parts := fun _ _ => [.own]
  place := fun x d =>
    match d.trib (fld (x.w 4) 16 0) with
    | some z => some ⟨fld (x.w 4) 16 0, false, z.unit, fld (x.w 5) 28 0 - z.rate, 0⟩
    | none => none
  key := fun ws => some (ws.getD 4 0, 0)
  apply := fun c _ _ d =>
    let kbps := fld (c.w 5) 28 0
    d.modTrib (fld (c.w 4) 16 0) fun x => ramped d kbps { x with resize := none } }

/-- The accepted resize of a tributary. -/
def resizeOf (d : Dev) (n : Nat) : Option Change :=
  d.fab.fw.changes.find? fun c => c.code == 0x0306#16 && c.obj == .trib n

/-- The slots of a resize change. -/
def reslot (n kbps : Nat) (t : Time) (d : Dev) : Dev :=
  match d.trib n with
  | none => d
  | some x =>
    if x.port.isSome then d
    else match d.trib x.parent with
      | some y => psiDefects x.parent t (d.modTrib n fun x => withSlots y (slotsAt d x y kbps) x)
      | none => d

/-- ODUFLEX_RESIZE_STEP: LCR adds slots, then BWR ramps up; or BWR ramps down, then LCR removes slots. -/
def execOduflexResizeStep (n : Nat) (s : State) : Out :=
  s.run (gRun fun t d =>
    match d.trib n, resizeOf d n with
    | some x, some c =>
      let kbps := fld (c.w 5) 28 0
      let d := (kidsOf d n).foldl (fun d k => settle k t d) d
      match x.resize with
      | none =>
        if !ownReady d c t then d
        else
          let d := d.modTrib n fun y => { y with resize := some ⟨c.handle, x.rate, kbps, 1⟩ }
          if x.rate ≤ kbps then reslot n kbps t d else d.modTrib n (ramped d kbps)
      | some r =>
        let d := if r.old ≤ r.new then d else reslot n kbps t d
        refresh t (applyPart cmdOduflexResize c .own t d)
    | _, _ => d)

/-- ODUFLEX_RESIZE_TIMEOUT: before any ramp starts, the slot changes are undone; a ramp that has started runs on. -/
def execOduflexResizeTimeout (n : Nat) (s : State) : Out :=
  s.run (gRun fun t d =>
    match d.trib n, resizeOf d n with
    | some x, some c =>
      let stop := fun d : Dev => abortChange c rcTimeout t (d.modTrib n fun y => { y with resize := none })
      (match x.resize with
        | none => if ownReady d c t then stop d else d
        | some r => if r.old ≤ r.new then stop (reslot n r.old t d) else d)
    | _, _ => d)

end Sys2Proof.Machine
end

