-- ==== Sys2Proof/Machine/Vc.lean ====
section
/-!
DEFINITION. VCs at their owner slice: the frames of words, path overhead, the demultiplexing of TUs and their pointers, and
what a switched VC passes on (04 R98-R99, R106-R109; 07 R169, R193; 09 R224, R226; 10 R232). Places of overhead and of TU
columns are those of G.707 (PRESUMED, log entry 64).
-/
namespace Sys2Proof.Machine

/-! ### The frame of a VC -/

def isHoVc (typ : Nat) : Bool := decide (0x10 ≤ typ) && decide (typ ≤ 0x12)

/-- Columns of a higher-order VC: with the two of fixed stuff for a VC-3 in an AU-3. -/
def vcWidth (x : Trib) : Nat :=
  if x.typ = 0x10 then 261 * (x.rate / 150336) else if x.typ = 0x11 then 261 else if x.port.isSome then 87 else 85

/-- Octets between the path overhead bytes, and of the container frame: 9 rows, or 4 frames of 125 µs. -/
def pohStep (x : Trib) : Nat :=
  if isHoVc x.typ then vcWidth x else if x.typ = 0x13 then 107 else if x.typ = 0x14 then 35 else 26
def vcLen (x : Trib) : Nat := (if isHoVc x.typ then 9 else 4) * pohStep x

/-- The BIP of a VC in its place in the overhead byte: the BIP-8 of B3, or the BIP-2 in V5 [7:6] (04 R109; 09 R224). -/
def vcBip (x : Trib) (os : List Octet) : Octet :=
  let b := bip8 os
  if isHoVc x.typ then b
  else
    let two := fun i : Nat => xor (xor (b.getLsbD i) (b.getLsbD (i - 2))) (xor (b.getLsbD (i - 4)) (b.getLsbD (i - 6)))
    BitVec.ofNat 8 ((two 7).toNat * 128 + (two 6).toNat * 64)

/-- Path overhead as received (04 R109). `rdi` is the three bits of RDI and enhanced RDI. -/
structure VcPoh where
  j : Octet
  bip : Octet
  label : Nat
  rei : Nat
  rdi : Nat
  rfi : Bool
  h4 : Nat
  aps : Nat
deriving DecidableEq, Repr

def vcPoh (x : Trib) (os : List Octet) : VcPoh :=
  let at_ := fun i => (os.getD (i * pohStep x) 0).toNat
  if isHoVc x.typ then
    { j := os.getD 0 0, bip := BitVec.ofNat 8 (at_ 1), label := at_ 2, rei := at_ 3 / 16, rdi := at_ 3 / 2 % 8, rfi := false
      h4 := at_ 5 % 4, aps := at_ 7 / 16 }
  else
    { j := os.getD (pohStep x) 0, bip := BitVec.ofNat 8 (at_ 0 / 64 * 64), label := at_ 0 / 2 % 8, rei := at_ 0 / 32 % 2
      rdi := at_ 0 % 2 * 4 + at_ 3 / 2 % 4, rfi := bitAt (wd (at_ 0)) 4, h4 := 0, aps := at_ 3 / 16 }

/-! ### Path overhead (04 R98, R99, R108, R109) -/

/-- The trace format of J1 or J2: as set, else 16-byte, and for a J1 in SONET mode 64-byte (04 R83). -/
def jFmt (d : Dev) (x : Trib) : Nat :=
  let sonet := match x.port with | some p => (match d.port p with | some y => y.sdh.sonet | none => false) | none => false
  (tgetD x.traces (if isHoVc x.typ then 2 else 3) {}).fmt.getD (if sonet then 2 else 1)

/-- One frame of the H4 aligner (04 R108): `accum` counts frames in its state. -/
def h4Step (m : MfAlign) (v : Nat) : MfAlign :=
  let ok := v == (m.exp + 1) % 4
  if m.im then
    if ok then { m with exp := v, run := 0, accum := m.accum + 1 }
    else if m.run = 1 then { m with im := false, exp := v, run := 0, accum := 1 }
    else { m with exp := (m.exp + 1) % 4, run := m.run + 1, accum := m.accum + 1 }
  else if ok then
    (if m.run = 1 then { m with im := true, exp := v, run := 0, accum := 1 } else { m with exp := v, run := 1, accum := m.accum + 1 })
  else { m with exp := v, run := 0, accum := m.accum + 1 }

/-- RDI in 5 consecutive frames against the defect as it stands (10 R232). -/
def rdiStep (cur : Bool) (run : Nat) (b : Bool) : Bool × Nat :=
  if b == cur then (cur, 0) else if run = 4 then (b, 0) else (cur, run + 1)

/-- The partner values of a first-level path (03 R477). -/
def vcPartner (old new : Trib) (t : Time) (d : Dev) : Dev :=
  match new.port with
  | none => d
  | some p =>
    let a := fld new.pos 7 0
    let d := match new.jf.acc with
      | some os => if old.jf.acc = some os then d else setPartner p 7 (0x100 + a) (packWords os) t d
      | none => d
    match new.label.acc with
    | some v => if old.label.acc = some v then d else setPartner p 7 (0x200 + a) [wd v] t d
    | none => d

/-- Words W24 to W27 whose check failed make the next result indeterminate (09 R228, R229). -/
def indet (x : Trib) (ws : List Nat) : Bool := x.badWords.any ws.contains
def clearIndet (x : Trib) : Trib := { x with badWords := x.badWords.filter fun w => decide (w < 24) || decide (27 < w) }

/-- Children of a VC that are VCs. -/
def tuKids (d : Dev) (n : Nat) : List Nat :=
  (kidsOf d n).filter fun c => match d.trib c with | some y => isVc y.typ | none => false

/-- Does a VC carry TU-2s, TU-12s or TU-11s? -/
def carriesTus (d : Dev) (n : Nat) : Bool :=
  (tuKids d n).any fun c => match d.trib c with | some y => y.typ != 0x12 | none => false

/-- The path overhead of a frame of a VC (04 R109). A received G1 REI above 8 reads as 0 (DESIGN CHOICE, log entry 66). Out
of frame, and under aSSF, the filters and the multiframe hold (04 R88; 10 R233). -/
def vcRx (n : Nat) (os : List POct) (t : Time) (d : Dev) : Dev :=
  match d.trib n with
  | none => d
  | some x =>
    let k := pathKey n
    let h := vcPoh x (os.map (·.1))
    let own := vcBip x (os.map (·.1))
    let poisoned := os.any (·.2)
    let ho := isHoVc x.typ
    let ind := indet x [24, 25]
    let prev := (x.pm.bips.headD []).head?
    let errs := match prev with | some b => popCount 8 (b ^^^ h.bip).toNat | none => 0
    let d := addCnt k 0x07 (b2n ind) (blockRx k errs (prev.isSome && !ind) d)
    let d := farDef k (hasDef d k .vcRdi) (farRx k (if h.rei ≤ 8 then h.rei else 0) d)
    let l := d.layer k
    let hold := l.ssf || l.noWords
    let (rdi, run) := if hold || poisoned then (hasDef d k .vcRdi, x.rdiRun) else rdiStep (hasDef d k .vcRdi) x.rdiRun (4 ≤ h.rdi)
    let sent := if ho then errs else min errs 1
    let y := { clearIndet x with
      pm := { x.pm with bips := [[own]] }, chk := [0, wd (own.toNat * 2 ^ 24), x.chk.getD 2 0, x.chk.getD 3 0]
      jf := if hold then x.jf else traceStep (jFmt d x) x.jf h.j poisoned t
      label := if hold || poisoned then x.label else x.label.step 5 h.label t
      aps := if hold || poisoned then x.aps else tmod x.aps 0 {} fun a => a.step 3 h.aps t
      erdiRx := if hold || poisoned || !l.erdi then x.erdiRx else x.erdiRx.step 5 h.rdi t
      rfi := if hold || poisoned then x.rfi else h.rfi
      h4 := if ho && carriesTus d n && !hold then h4Step x.h4 h.h4 else x.h4
      rdiRun := run, reiTx := if l.tsf || ind then 0 else sent }
    let d := vcPartner x y t (d.modTrib n fun _ => y)
    let d := labelDefects n t d
    let d := setTim k .vcTim true (expTrace y (if ho then 2 else 3)) y.jf.acc t d
    setDef k .vcRdi rdi t d

/-! ### TUs (04 R106, R107) -/

/-- The columns of a TU in its VC: every third column of a VC-4 is a TUG-3's, whose first is the TU-3's pointer column; a
TUG-2 takes every seventh of the 84 columns left; a TU its share of the 12 of its TUG-2. -/
def tuColumns (y x : Trib) : List Nat :=
  let g3 := (List.range 86).map fun j => 3 + 3 * j + fld x.pos 6 5
  let cols := if y.typ = 0x11 then g3.drop 2
    else (List.range (vcWidth y)).filter fun c => c != 0 && !(y.port.isSome && (c == 29 || c == 58))
  if x.typ = 0x12 then g3
  else
    let share := if x.typ = 0x13 then 1 else if x.typ = 0x14 then 3 else 4
    ((List.range 12).map fun i => cols.getD (7 * i + fld x.pos 4 2) 0).zipIdx.filterMap fun e =>
      if e.2 % share = fld x.pos 1 0 then some e.1 else none

/-- The places of a TU in the frame of its VC, in line order. -/
def tuPlaces (y x : Trib) : List Nat := (List.range 9).flatMap fun r => (tuColumns y x).map fun c => vcWidth y * r + c

/-- The pointer frame of a TU-3: H1, H2 and H3 head the first three rows of its columns; its first column below them is
fixed stuff. -/
def tu3Frame (os : List POct) : PtrFrame :=
  let row := fun r => ((os.drop (86 * r)).take 86)
  ⟨units 1 ([0, 1].flatMap fun r => (row r).drop 1), [], (row 2).take 1, units 1 ([2, 3, 4, 5, 6, 7, 8].flatMap fun r => (row r).drop 1)⟩

/-- The pointer frame of a TU-2, TU-12 or TU-11: the multiframe of four frames headed by V1 to V4. -/
def tuFrame (fs : List (List POct)) : PtrFrame :=
  let rest := fun i => (fs.getD i []).drop 1
  ⟨units 1 (rest 0), units 1 (rest 1), (fs.getD 2 []).take 1, units 1 (rest 2 ++ rest 3)⟩

/-- A TU's pointer and words (04 R104, R107): the state machine of R103 with TU_AIS and TU_LOP. -/
def tuRx (c : Nat) (h1 h2 : Octet) (f : PtrFrame) (t : Time) (d : Dev) : Dev :=
  match d.trib c with
  | none => d
  | some y =>
    let (r, ev) := y.ptr.step (ptrMax y.typ true) (h1 ++ h2)
    let live := r.st == .norm
    let pk := if live then y.pack.frame f y.ptr.act r.act r.stuff else {}
    let d := d.modTrib c fun z => { z with ptr := r, pack := pk.rest }
    let d := match ev with | some e => addCnt (pathKey c) e 1 d | none => d
    let d := ptrDefects (pathKey c) r.st false t d
    if live then sendPacked c (!y.pack.marks.isEmpty) pk d else d

/-- The octet of a list of received octets. -/
def octAt (os : List POct) (i : Nat) : Octet := (os.getD i (0, false)).1

/-- The TUs of a frame of a VC: TU-3s each frame, the others each multiframe, in which H4 names the frame that follows it;
none of them in LOM or out of multiframe (04 R106-R108). `phase` is the H4 of the frame before. -/
def tuDemux (n phase : Nat) (os : List POct) (t : Time) (d : Dev) : Dev :=
  match d.trib n with
  | none => d
  | some y =>
    let pick := fun (x : Trib) (fr : List POct) => (tuPlaces y x).map fun i => fr.getD i (0, false)
    let kids := (tuKids d n).filterMap fun c => (d.trib c).map fun x => (c, x)
    let d := (kids.filter (·.2.typ == 0x12)).foldl (fun d e =>
      let fr := pick e.2 os
      tuRx e.1 (octAt fr 0) (octAt fr 86) (tu3Frame fr) t d) d
    let low := kids.filter (·.2.typ != 0x12)
    let d := if low.isEmpty || !y.h4.im || hasDef d (pathKey n) .lom then d
      else
        let fs := (y.tuMf.take phase) ++ [os]
        let d := d.modTrib n fun z => { z with tuMf := fs }
        if fs.length ≠ 4 then d
        else low.foldl (fun d e =>
          let fr := fs.map (pick e.2)
          tuRx e.1 (octAt (fr.getD 0 []) 0) (octAt (fr.getD 1 []) 0) (tuFrame fr) t d) d
    tuWords n t d

/-! ### Frames of words (04 R104; 07 R168, R169) -/

/-- Received octets as words of a container frame: a word is poisoned where one of its octets is. -/
def poctWords (os : List POct) : List LaneWord :=
  (units 4 (os ++ List.replicate ((4 - os.length % 4) % 4) (0, false))).zipIdx.map fun e =>
    lw (if e.2 = 0 then tagFrame else tagData) ((packWords (e.1.map (·.1))).headD 0) (e.1.any (·.2))

/-- The octets of lane words, each with the poison of its word. -/
def wordPocts (ws : List LaneWord) : List POct :=
  ws.flatMap fun w => (octetsOf (lwPayload w)).map fun o => (o, lwPoison w)

/-- The octets of a VC frame in some of its words, without those of empty justification opportunities. -/
def vcClean (x : Trib) (ws : List LaneWord) : List POct :=
  let os := (unstuff (x.just.headD []) (wordPocts ws)).take (vcLen x)
  if x.poisoned then os.map fun o => (o.1, true) else os

/-- How many words of octets are complete, at the end of the frame with the last one filled up. -/
def wordsDone (x : Trib) (os : List POct) : Nat := if os.length = vcLen x then (os.length + 3) / 4 else os.length / 4

/-- A frame of a VC is complete at its owner: path overhead and its TUs; the rest is payload for its mappers. -/
def vcFrameIn (n : Nat) (t : Time) (d : Dev) : Dev :=
  match d.trib n with
  | none => d
  | some x =>
    let os := vcClean x x.rxAcc
    let d := d.modTrib n fun y => { y with just := y.just.drop 1, rxAcc := [] }
    if os.length ≠ vcLen x || d.aon.snowdrop then d else tuDemux n x.h4.exp os t (vcRx n os t d)

/-- Protection members that copy what a tributary sends (11 R262). -/
def copiesOf (d : Dev) (n : Nat) : List Nat :=
  d.fab.pgs.filterMap fun e => match e.2.p.o with
    | .trib q => if bridgedTrib d q == some n then some q else none
    | _ => none

/-- The destinations of a tributary's received words: those of the tributary it stands for, and the members that copy them
(07 R168; 11 R260, R262). -/
def rxDests (d : Dev) (n : Nat) : List Nat :=
  match servedObj d (.trib n) with
  | some (.trib s) => (fedBy d s).flatMap fun c => c :: copiesOf d c
  | _ => []

/-- Does a context keep running XORs (09 R226)? -/
def keepsXor (typ : Nat) : Bool := isOdu typ || isVc typ || typ == 0x2B

/-- A received word of a VC: a frame start completes the frame before it; the running XOR takes the word in, and each word
of octets that it completes goes to every destination of a switched VC. -/
def vcWord (n : Nat) (w : LaneWord) (t : Time) (d : Dev) : Dev :=
  let first := lwTag w == tagFrame
  let d := match d.trib n with
    | some x => if first && !x.rxAcc.isEmpty then vcFrameIn n t d else d
    | none => d
  match d.trib n with
  | none => d
  | some x =>
    if !first && x.rxAcc.isEmpty then d
    else
      let acc := if first then [w] else x.rxAcc ++ [w]
      let os := vcClean x acc
      let out := ((poctWords os).take (wordsDone x os)).drop (if first then 0 else wordsDone x (vcClean x x.rxAcc))
      let d := d.modTrib n fun y => { y with
        rxAcc := acc, chk := lset y.chk 0 ((if first then 0 else y.chk.getD 0 0) ^^^ lwPayload w) }
      (rxDests d n).foldl (fun d c => out.foldl (fun d w => writeFifo ⟨.esTx, c⟩ w d) d) d

/-- A frame of a switched VC leaves its slice (07 R169, R193): the overhead passes unchanged, but B3 or V5 [7:6] is the
received BIP, XOR that computed over the VC received before it, XOR that over the VC transmitted before it. A poisoned word
is sent as read, and counts. -/
def vcPass (n : Nat) (d : Dev) : Dev :=
  match d.trib n with
  | none => d
  | some x =>
    let os := (wordOctets x.txAcc).take (vcLen x)
    let bad := (x.txAcc.filter lwPoison).length
    if os.length ≠ vcLen x then d.modTrib n fun y => { y with txAcc := [] }
    else
      let place := if isHoVc x.typ then pohStep x else 0
      let keep : Octet := if isHoVc x.typ then 0 else 0x3F
      let own := BitVec.ofNat 8 (fld (x.chk.getD 3 0) 31 24)
      let b := os.getD place 0
      let sent := os.set place ((b &&& keep) ||| ((b ^^^ x.swBip ^^^ own) &&& ~~~keep))
      toCarrier n (frameWords sent) (d.modTrib n fun y => { y with
        txAcc := [], swBip := vcBip x os, chk := lset (lset y.chk 2 0) 3 (wd ((vcBip x sent).toNat * 2 ^ 24))
        poisonOut := min (y.poisonOut + bad) 65535 })

/-- A word that a switched VC's mapper takes from the transmit store. -/
def vcTxWord (n : Nat) (w : LaneWord) (d : Dev) : Dev :=
  let first := lwTag w == tagFrame
  let d := match d.trib n with
    | some x => if first && !x.txAcc.isEmpty then vcPass n d else d
    | none => d
  d.modTrib n fun x =>
    if first then { x with txAcc := [w], chk := lset x.chk 2 (lwPayload w) }
    else if x.txAcc.isEmpty then x
    else { x with txAcc := x.txAcc ++ [w], chk := lset x.chk 2 (x.chk.getD 2 0 ^^^ lwPayload w) }

end Sys2Proof.Machine
end

