-- ==== Sys2Proof/Machine/Mapping.lean ====
section
/-!
DEFINITION. Mapping and demapping: AMP, BMP, PDH, GMP, GFP-F, stream segments and IMP (07 R176-R186, R193, R194;
09 R228, R229; 10 R232). Where the spec leaves a code or a place to a standard, the standard's is taken (PRESUMED, log
entry 70).
-/
namespace Sys2Proof.Machine

/-! ### Client bits between stores and containers (01 R17; 07 R193)

A mapper takes the words of the transmit store bit by bit, keeping what a word holds over; a demapper packs bits in words. A
66B block stream has two words a block, and 66 bits. -/

/-- An Error control block of 64B/66B: block type 0x1E and eight error characters. -/
def errorBlock : Block66 := ⟨0b10, 0x1E3C78F1E3C78F1E, false⟩

/-- The block of two words; one with a poisoned octet becomes an Error control block (07 R193). -/
def blockOfWords (a b : LaneWord) : Block66 :=
  if lwPoison a || lwPoison b then errorBlock
  else ⟨if lwTag a = tagOverhead then 0b10 else 0b01, lwPayload a ++ lwPayload b, false⟩

def blockBits (b : Block66) : List Bool := natBits 2 b.sync.toNat ++ natBits 64 b.payload.toNat

/-- Local Fault and Remote Fault ordered sets of 64B/66B (log entry 70). -/
def lfBlock : Block66 := ⟨0b10, 0x4B00000100000000, false⟩
def rfBlock : Block66 := ⟨0b10, 0x4B00000200000000, false⟩

/-- Is an ODU built here rather than passed: a terminated one, a maintenance signal, or a copy of one (05 R140; 11 R262)? -/
def builtOdu (d : Dev) (n : Nat) (x : Trib) : Bool :=
  x.tx != .normal || isTerminated d n || (match bridgedTrib d n with | some w => isTerminated d w | none => false)

/-- The next 32 bits of an STM-N that carries MS-AIS (10 R237). -/
def aisBits (n : Nat) (x : Trib) (d : Dev) : List Bool × Dev :=
  let (os, b1) := if x.aisOut.length < 4 then
      (let f := msAisFrame (stmN (x.typ - 0x1F)) x.aisB1; (x.aisOut ++ f, bip8 f)) else (x.aisOut, x.aisB1)
  (lineBits (os.take 4), d.modTrib n fun y => { y with aisOut := os.drop 4, aisB1 := b1 })

/-- The next word of an ODU that is built here, as read; 0x00 where none waits (log entry 67). -/
def builtBits (n : Nat) (hit : Option LaneWord) (t : Time) (d : Dev) : List Bool × Dev :=
  match firstRead hit (txWaiting d n) with
  | ([], _) => (List.replicate 32 false, d)
  | (w :: r, bad) => (natBits 32 (lwPayload w).toNat, fifoParity ⟨.esTx, n⟩ bad t (setTxWaiting n r d))

/-- A poisoned word that is replaced counts in poison_out, and in the PM of the tributary (07 R193). -/
def countPoison (n k : Nat) (d : Dev) : Dev :=
  if k = 0 then d
  else addCnt (pathKey n) 0x53 k (d.modTrib n fun y => { y with poisonOut := min (y.poisonOut + k) 65535 })

/-- The next bits of a client from its transmit store, with poisoned octets replaced; those of an ODU are sent as read (07
R193). -/
def storedBits (n : Nat) (x : Trib) (hit : Option LaneWord) (t : Time) (d : Dev) : List Bool × Dev :=
  let (a, d) := takeFifo ⟨.esTx, n⟩ hit t d
  let w := a.getD (lw tagData 0)
  if x.typ = 0x28 then
    let (b, d) := takeFifo ⟨.esTx, n⟩ none t d
    let v := b.getD (lw tagData 0)
    (blockBits (blockOfWords w v), countPoison n (b2n (lwPoison w || lwPoison v)) d)
  else (natBits 32 (if lwPoison w && !isOdu x.typ then 0xFFFFFFFF else (lwPayload w).toNat), countPoison n (b2n (lwPoison w)) d)

/-- The next bits of a client: the signal that it carries in place of its own (07 R190; 10 R237), an ODU built here, or what
its store holds. -/
def nextBits (n : Nat) (x : Trib) (hit : Option LaneWord) (t : Time) (d : Dev) : List Bool × Dev :=
  if isOdu x.typ && builtOdu d n x then builtBits n hit t d
  else match x.tx with
    | .allOnes => (List.replicate 32 true, d)
    | .zeros => (List.replicate 32 false, d)
    | .localFault => (blockBits lfBlock, d)
    | .msAis => aisBits n x d
    | _ => storedBits n x hit t d

/-- Fills what the mapper has in hand up to `k` bits, from its first word as read. -/
def fillBits (n k : Nat) (x : Trib) (t : Time) : Nat → Option LaneWord → List Bool → Dev → List Bool × Dev
  | 0, _, bs, d => (bs, d)
  | f + 1, hit, bs, d =>
    if k ≤ bs.length then (bs, d) else (let (more, d) := nextBits n x hit t d; fillBits n k x t f none (bs ++ more) d)

/-- Takes `k` bits of a client, from the first stored word as read `hit` where that differs (01 R23). -/
def takeBits (n k : Nat) (hit : Option LaneWord) (t : Time) (d : Dev) : List Bool × Dev :=
  let d := refreshTx n d
  match d.trib n with
  | none => (List.replicate k false, d)
  | some x =>
    let (bs, d) := fillBits n k x t (k / 32 + 1) hit x.txRes d
    (bs.take k, d.modTrib n fun y => { y with txRes := bs.drop k })

/-- Words of received bits, each bit with its poison, and the bits left over. -/
def packBits (blocks : Bool) : Nat → List (Bool × Bool) → List LaneWord × List (Bool × Bool)
  | 0, bs => ([], bs)
  | f + 1, bs =>
    let k := if blocks then 66 else 32
    if bs.length < k then ([], bs)
    else
      let now := bs.take k
      let bad := now.any (·.2)
      let v := now.map (·.1)
      let ws := if blocks then blockWords ⟨BitVec.ofNat 2 (bitsNat (v.take 2)), BitVec.ofNat 64 (bitsNat (v.drop 2)), bad⟩
        else [lw tagData (wd (bitsNat v)) bad]
      let r := packBits blocks f (bs.drop k)
      (ws ++ r.1, r.2)

/-- Demapped bits enter the receive store of a client. -/
def putBits (n : Nat) (bs : List (Bool × Bool)) (t : Time) (d : Dev) : Dev :=
  match d.trib n with
  | none => d
  | some x =>
    let all := x.rxRes ++ bs
    let (ws, rest) := packBits (x.typ == 0x28) (all.length / 32) all
    storeWords (rxStore x n) (if x.poisoned then ws.map lwPoisoned else ws) t (d.modTrib n fun y => { y with rxRes := rest })

/-- The bits of octets, each with the poison of its octet. -/
def poctBits (os : List POct) : List (Bool × Bool) := os.flatMap fun o => (natBits 8 o.1.toNat).map fun b => (b, o.2)

/-- Bits that are all poisoned, or all sound. -/
def withPoison (bad : Bool) (bs : List Bool) : List (Bool × Bool) := bs.map fun b => (b, bad)

/-- What a mapper has made goes to the payload of its container, unless that sends a maintenance signal; the octets of several
mappers of one container follow each other (DESIGN CHOICE, log entry 75). -/
def mapInto (n : Nat) (jc os : List Octet) (d : Dev) : Dev :=
  match d.trib n with
  | none => d
  | some x =>
    let d := d.modTrib n fun y => { y with mapJc := jc, mapOut := os }
    let sent := match d.trib x.parent with | some y => y.tx == .normal | none => false
    if x.port.isSome || !sent then d else d.onFab fun f => { f with payload := tmod f.payload x.parent [] (· ++ os) }

/-- The fill of a transmit store against its centre in bits, with the bits in hand. -/
def fillOf (d : Dev) (n : Nat) (x : Trib) : Int := 32 * txFill d n x + x.txRes.length

/-- W14 jst_hold: frames since the last justification. -/
def holdStep (h : Nat) (moved : Bool) : Nat := if moved then 0 else min 15 (h + 1)

/-! ### AMP, BMP and PDH (07 R176, R177, R181, R182, R194) -/

/-- JC [1:0] of an AMP or BMP transmitter from its fill in bits; the unit is the octet of a justification opportunity. -/
def ampJc (method : Nat) (fill : Int) : Nat := if method = 2 then 0 else if 8 < fill then 1 else if fill < -8 then 3 else 0

/-- Client octets of an opportunity group besides NJO and PJO (PRESUMED, log entry 70). -/
def ampOctets (server typ : Nat) : Nat :=
  if isOdu typ then (if typ = 0x03 then 60927 else 15231)
  else if server = 0x03 ∨ server = 0x04 then 15167
  else if server = 0x05 then 15103 else 15231

/-- What a majority decides: a tie decides nothing. -/
def majority (bs : List Bool) : Option Bool :=
  let ones := (bs.filter id).length
  if bs.length < 2 * ones then some true else if 2 * ones < bs.length then some false else none

/-- A bit by majority over the copies that came without poison; a tie is open (log entry 72). -/
def voteBit (d : Dev) (cs : List (Bool × Bool)) : Option Bool × Dev :=
  let good := (cs.filter (!·.2)).map (·.1)
  if good.isEmpty then (none, d)
  else match majority good with
    | some b => (some b, d)
    | none => (some ((free 1 d).getLsbD 0), d.used)

/-- JC [1:0] of a received group: none where no copy is valid, and 0b10 treated as 0b00 (07 R176, R194). -/
def ampVote (jc : List POct) (d : Dev) : Option Nat × Dev :=
  let (b1, d) := voteBit d (jc.map fun o => (o.1.getLsbD 1, o.2))
  let (b0, d) := voteBit d (jc.map fun o => (o.1.getLsbD 0, o.2))
  match b1, b0 with
  | some x, some y => (some (if x && !y then 0 else b2n x * 2 + b2n y), d)
  | _, _ => (none, d)

/-- An opportunity group received: NJO and PJO carry data as JC says; where no copy is valid, as in the group before, with
the octets poisoned. -/
def ampRx (n : Nat) (x : Trib) (r : AmpRx) (t : Time) (d : Dev) : Dev :=
  let (v, d) := ampVote r.jc d
  let jc := v.getD x.jcRx
  let os := (if jc = 1 then [r.njo] else []) ++ (if jc = 3 then [] else [r.pjo]) ++ r.data
  putBits n ((poctBits os).map fun b => (b.1, b.2 || v.isNone)) t (d.modTrib n fun y => { y with jcRx := jc })

/-- A group sent. -/
def ampTx (n : Nat) (x : Trib) (hit : Option LaneWord) (t : Time) (d : Dev) : Dev :=
  let jc := ampJc x.method (fillOf d n x)
  let server := match d.trib x.parent with | some y => y.typ | none => 0
  let (bs, d) := takeBits n (8 * (ampOctets server x.typ + b2n (jc == 1) + b2n (jc != 3))) hit t d
  mapInto n (List.replicate 3 (BitVec.ofNat 8 jc)) (bitOctets bs)
    (d.modTrib n fun y => { y with jcTx := jc, jstHold := holdStep y.jstHold (jc != 0) })

/-- AMP_JUSTIFICATION: an opportunity group is sent, and one received. -/
def execAmpJustification (e : AmpEvent) (s : State) : Out :=
  s.run (gFab fun t d =>
    match d.trib e.t with
    | some x =>
      if !(x.method == 1 || x.method == 2) || stoppedTrib x then d
      else
        let d := ampTx e.t x e.hit t d
        match e.rx with | some r => ampRx e.t x r t d | none => d
    | none => d)

/-- What times the transmitter of an ODU or of its port (07 R176, R177): a DPLL, or the clock of a BMP client multiplied by
the ratio of two rates. -/
inductive TxClock where
  | dpll (k : Nat)
  | client (t num den : Nat)
deriving DecidableEq, Repr

/-- The clock of a top-level ODU, and of the port that it sets. -/
def portClock (d : Dev) (p : Nat) : TxClock :=
  let own := TxClock.dpll (groupDpll d (lgOfPort d p))
  match tribsOfPort d p with
  | n :: _ =>
    match d.trib n, (kidsOf d n).head? with
    | some x, some c => (match d.trib c with
      | some y => if isOdu x.typ && y.method == 2 then .client c x.rate y.rate else own
      | none => own)
    | _, _ => own
  | [] => own

/-- S1 and S2 as 0 for stuff and 1 for data, S1 in bit 1 (07 R181, R182). -/
def pdhS (method : Nat) (fill : Int) : Nat :=
  if method = 5 then 1 else if 1 < fill then 3 else if fill < -1 then 0 else 1

/-- Client bits of a period besides S1 and S2, and the copies of C1 and of C2 (07 R181; log entry 70). -/
def pdhBits (typ : Nat) : Nat × Nat :=
  match typ with
  | 0x18 => (1023, 3)
  | 0x19 => (771, 3)
  | 0x1A => (4295, 5)
  | 0x1B => (5591, 5)
  | _ => (17407, 5)

/-- A container period sent: C bits are 1 for stuff. -/
def pdhTx (n : Nat) (x : Trib) (hit : Option LaneWord) (t : Time) (d : Dev) : Dev :=
  let s := pdhS x.method (fillOf d n x)
  let (base, copies) := pdhBits x.typ
  let (bs, d) := takeBits n (base + s / 2 + s % 2) hit t d
  let code := fun b : Bool => BitVec.ofNat 8 (if b then 0 else 2 ^ copies - 1)
  mapInto n [code (2 ≤ s), code (s % 2 == 1)] (bitOctets (bs ++ List.replicate ((8 - bs.length % 8) % 8) false))
    (d.modTrib n fun y => { y with jcTx := s, jstHold := holdStep y.jstHold (s != 1) })

/-- A container period received; jcRx holds the last decisions. -/
def pdhRx (n : Nat) (x : Trib) (r : PdhRx) (t : Time) (d : Dev) : Dev :=
  let (a, d) := voteBit d r.c1
  let (b, d) := voteBit d r.c2
  let v1 := (a.map not).getD (x.jcRx / 2 % 2 == 1)
  let v2 := (b.map not).getD (x.jcRx % 2 == 1)
  let bs := r.data ++ (if v1 then [r.s1] else []) ++ (if v2 then [r.s2] else [])
  putBits n (withPoison (r.poisoned || a.isNone || b.isNone) bs) t
    (d.modTrib n fun y => { y with jcRx := b2n v1 * 2 + b2n v2 })

/-- PDH_JUSTIFICATION: a container period is sent, and one received. -/
def execPdhJustification (e : PdhEvent) (s : State) : Out :=
  s.run (gFab fun t d =>
    match d.trib e.t with
    | some x =>
      if !(x.method == 4 || x.method == 5) || stoppedTrib x then d
      else
        let d := pdhTx e.t x e.hit t d
        match e.rx with | some r => pdhRx e.t x r t d | none => d
    | none => d)

/-! ### GMP (07 R179, R180) -/

/-- One GMP period: the accumulator, Cm and ΣCnD. -/
def gmpPeriod (mOct cmMin cmMax : Nat) (acc : Int) (cn : Nat) : Int × Nat × Nat :=
  let a := acc + cn
  let cm := min (max (a / (mOct : Int)).toNat cmMin) cmMax
  let rest := a - cm * mOct
  (rest, cm, min rest.toNat 1023)

/-- Entity `j` of a period carries data (07 R179). -/
def gmpData (cm p j : Nat) : Bool := decide (j * cm % p < cm)

/-- Data entities of `m` octets in their positions, from position `j`; stuff is sent as 0x00. -/
def gmpPlace (cm p m : Nat) : Nat → Nat → List Octet → List Octet
  | 0, _, _ => []
  | k + 1, j, os =>
    if gmpData cm p j then os.take m ++ gmpPlace cm p m k (j + 1) (os.drop m)
    else List.replicate m 0 ++ gmpPlace cm p m k (j + 1) os

/-- The data entities of a received period. -/
def gmpPick {α : Type} (cm p m : Nat) : Nat → Nat → List α → List α
  | 0, _, _ => []
  | k + 1, j, os => (if gmpData cm p j then os.take m else []) ++ gmpPick cm p m k (j + 1) (os.drop m)

/-- CRC-8 over JC1 and JC2, CRC-5 over D1 to D10 (09 R223). -/
def jcCrc8 (x : BitVec 16) : Nat := crcBits crcJc8 (natBits 16 x.toNat)
def jcCrc5 (x : BitVec 10) : Nat := crcBits crcJc5 (natBits 10 x.toNat)

/-- The bits of C1 to C14, C1 the most significant, that a change of Cm inverts (07 R180; log entry 70). -/
def cmMask : Int → Nat
  | 1 => 0b10101010101010
  | -1 => 0b01010101010101
  | 2 => 0b01100110011001
  | -2 => 0b10011001100110
  | _ => 0

/-- JC1 and JC2: C1 to C14, II and DI, by the Cm sent before and the one now. -/
def cmCode (old cm : Nat) : Nat :=
  let c := (cm : Int) - old
  if c = 0 then cm * 4
  else if cmMask c ≠ 0 then (old ^^^ cmMask c) * 4 + (if 0 < c then 2 else 1)
  else cm * 4 + 3

/-- The Cm that JC1 and JC2 code, after the one last received; none where an increment or a decrement fits no Cm. -/
def cmDecode (last v : Nat) : Option Nat :=
  let c := v / 4 % 16384
  let back := fun (k : Int) => if c = last ^^^ cmMask k then some (last + k).toNat else none
  match v % 4 with
  | 2 => (back 1).orElse fun _ => back 2
  | 1 => (back (-1)).orElse fun _ => back (-2)
  | _ => some c

/-- JC1 to JC6: the code of Cm with its CRC-8, and ΣCnD with its CRC-5, five bits an octet below three reserved ones. -/
def gmpJcOctets (old cm sum : Nat) : List Octet :=
  let v := cmCode old cm
  [BitVec.ofNat 8 (v / 256), BitVec.ofNat 8 v, BitVec.ofNat 8 (jcCrc8 (BitVec.ofNat 16 v)),
    BitVec.ofNat 8 (sum / 32 % 32), BitVec.ofNat 8 (sum % 32), BitVec.ofNat 8 (jcCrc5 (BitVec.ofNat 10 sum))]

/-- GMP_TX_PERIOD: Cn octets entered the transmit store in the period before (07 R179). -/
def execGmpTxPeriod (n : Nat) (hit : Option LaneWord) (s : State) : Out :=
  s.run (gFab fun t d =>
    match d.trib n with
    | none => d
    | some x =>
      if x.method ≠ 3 || stoppedTrib x then d
      else
        let (a, cm, sum) := gmpPeriod x.mOct x.txMin x.txMax x.acc x.cn
        let (bs, d) := takeBits n (8 * cm * x.mOct) hit t d
        mapInto n (gmpJcOctets x.cmTx cm sum) (gmpPlace cm x.pServer x.mOct x.pServer 1 (bitOctets bs))
          (d.modTrib n fun y => { y with acc := a, cmTx := cm, sumTx := sum, cn := 0 }))

/-- Is the tributary-slot multiframe of a client's server frozen: an ODU whose aligner is out of multiframe (05 R121)? -/
def serverFrozen (d : Dev) (x : Trib) : Bool :=
  match d.trib x.parent with
  | some y =>
    if !isOdu y.typ || x.port.isSome then false
    else match y.port with
      | some p => (match d.port p with | some z => !z.otn.mf.im | none => false)
      | none => !y.mf.im
  | none => false

/-- GMP_RX_PERIOD: the rules of R180; JC bytes that arrive poisoned count as failing their CRCs (07 R194). A change of Cm
that fits no value is open (log entry 71). -/
def execGmpRxPeriod (n : Nat) (j : GmpJc) (s : State) : Out :=
  s.run (gFab fun t d =>
    match d.trib n with
    | none => d
    | some x =>
      if x.method ≠ 3 || stoppedTrib x || serverFrozen d x then d
      else
        let k := pathKey n
        let oct := fun i => (j.jc.getD i (0, true))
        let val := fun i => (oct i).1.toNat
        let bad := fun is : List Nat => is.any fun i => (oct i).2
        let v := val 0 * 256 + val 1
        let sum := val 3 % 32 * 32 + val 4 % 32
        let crc8 := !bad [0, 1, 2] && jcCrc8 (BitVec.ofNat 16 v) == val 2
        let (cm, d) := match cmDecode x.cmRx v with
          | some c => (c, d)
          | none => ((free 14 d).toNat, if crc8 then d.used else d)
        let ok8 := crc8 && decide (cm ≤ x.pServer)
        let ok5 := !bad [3, 4, 5] && jcCrc5 (BitVec.ofNat 10 sum) == val 5 % 32
        let ind := indet x [24]
        let y := clearIndet x
        let y := if ind then y else { y with cmRx := if ok8 then cm else y.cmRx, sumRx := if ok5 then sum else y.sumRx }
        let d := d.modTrib n fun _ => y
        let os := gmpPick y.cmRx x.pServer x.mOct x.pServer 1 j.payload
        let d := putBits n ((poctBits os).map fun b => (b.1, b.2 || (!ind && !ok8))) t d
        if ind then addCnt k 0x07 1 d
        else
          let d := addCnt k 0x27 (b2n !ok8) (addCnt k 0x28 (b2n !ok5) d)
          addCnt k 0x29 (b2n (ok8 && (decide (cm < x.cmMin) || decide (x.cmMax < cm)))) d)

/-! ### GFP-F (07 R183, R184) -/

/-- cHEC or tHEC over 16 bits. -/
def hec (v : BitVec 16) : Nat := crcBits crcHec (natBits 16 v.toNat)

/-- A 16-bit value with its HEC, as received: right, corrected in one bit, or uncorrectable. -/
def hecFix (w : Word) : Option (BitVec 16) × Bool :=
  let good := fun x : Word => hec (x.extractLsb' 16 16) == (x.extractLsb' 0 16).toNat
  if good w then (some (w.extractLsb' 16 16), false)
  else match (List.range 32).find? fun i => good (w ^^^ wd (2 ^ i)) with
    | some i => (some ((w ^^^ wd (2 ^ i)).extractLsb' 16 16), true)
    | none => (none, true)

/-- The value that the core header is XORed with. -/
def coreXor : Word := 0xB6AB31E0

/-- A 16-bit value with its HEC. -/
def withHec (v : Nat) : Word := wd (v % 65536 * 65536 + hec (BitVec.ofNat 16 v))

/-- Octets scrambled with x^43 + 1, and the 43 bits sent last (07 R183). -/
def gfpScramble (s : Nat) (os : List Octet) : List Octet × Nat :=
  let (bs, s) := (lineBits os).foldl (fun (acc : List Bool × Nat) b =>
    let o := xor b (acc.2.testBit 42)
    (o :: acc.1, (2 * acc.2 + b2n o) % 2 ^ 43)) ([], s)
  (bitOctets bs.reverse, s)

/-- Octets descrambled, and the 43 bits received last. -/
def gfpDescramble (s : Nat) (os : List Octet) : List Octet × Nat :=
  let (bs, s) := (lineBits os).foldl (fun (acc : List Bool × Nat) b =>
    (xor b (acc.2.testBit 42) :: acc.1, (2 * acc.2 + b2n b) % 2 ^ 43)) ([], s)
  (bitOctets bs.reverse, s)

/-- Delineation with DELTA = 1: single-bit errors are corrected in SYNC only. Answers the state and the PLI taken. -/
def delinStep (st : Delin) (core : Word) (poisoned indet : Bool) : Delin × Option Nat :=
  let w := core ^^^ coreXor
  let (v, err) := hecFix w
  let ok := !poisoned && v.isSome && !err
  match st with
  | .hunt => if ok && !indet then (.presync, none) else (.hunt, none)
  | .presync => if ok && !indet then (.sync, v.map (·.toNat)) else (.hunt, none)
  | .sync =>
    if indet then (.sync, some (fld w 31 16))
    else if poisoned then (.hunt, none)
    else match v with | some p => (.sync, some p.toNat) | none => (.hunt, none)

/-- What becomes of a frame taken in SYNC. -/
inductive GfpFate where
  | idle
  | csf
  | discard
  | pfcs
  | badLen
  | packet
  | segment
deriving DecidableEq, Repr

/-- The client octets of a payload area: without the type field and its tHEC, and without the pFCS where the type says that
there is one. -/
def gfpClient {α : Type} (pfi : Bool) (os : List α) : List α :=
  (os.drop 4).take (os.length - 4 - (if pfi then 4 else 0))

/-- R184's table. `upi` is the configured one; `segs`: the container carries stream segments; `os` is the payload area
descrambled. -/
def gfpFate (pli upi : Nat) (segs ind24 ind25 : Bool) (os : List Octet) : GfpFate × Bool :=
  if pli < 4 then (.idle, false)
  else
    let head := (packWords (os.take 4)).headD 0
    let typ := if ind25 then some (head.extractLsb' 16 16) else (hecFix head).1
    match typ with
    | none => (.discard, false)
    | some ty =>
      let pti := ty.toNat / 8192
      let u := ty.toNat % 256
      let seg := segs && u == 0xF1
      let pfi := ty.getLsbD 12
      let client := gfpClient pfi os
      if pti = 4 then (if u = 1 ∨ u = 2 then .csf else .discard, pfi)
      else if pti ≠ 0 ∨ ty.toNat / 256 % 16 ≠ 0 ∨ !(u == upi || seg) then (.discard, pfi)
      else if pfi && !ind24 && crcOctets crcPfcs client != beNat (os.drop (os.length - 4)) then (.pfcs, pfi)
      else if client.length < 5 ∨ 16000 < client.length then (.badLen, pfi)
      else (if seg then .segment else .packet, pfi)

/-- A defective frame marks the 1 ms interval of the stream (10 R242). -/
def badFrame (k : Nat) (d : Dev) : Dev := d.modLayer k fun l => { l with badFrame := true }

/-- The segment streams of the container of a packet stream, by rising index (07 R185). -/
def segmentsOf (d : Dev) (x : Trib) : List Nat :=
  if x.port.isSome then []
  else (List.range 16).filterMap fun i =>
    (kidsOf d x.parent).find? fun c => match d.trib c with | some y => isSegment y && fld y.pos 3 0 == i | none => false

/-- Words of a received packet: a word is poisoned where one of its octets came so. -/
def packetPocts (os : List POct) : List LaneWord :=
  (packetWords (os.map (·.1))).mapIdx fun i w => if ((os.drop (4 * i)).take 4).any (·.2) then lwPoisoned w else w

/-- GFP_FRAME_RX: delineation, GFP_LFD, and the frame by R184. -/
def execGfpFrameRx (n : Nat) (f : GfpFrame) (s : State) : Out :=
  s.run (gFab fun t d =>
    match d.trib n with
    | none => d
    | some x =>
      if x.method ≠ 6 ∨ x.typ ≠ 0x29 ∨ stoppedTrib x then d
      else
        let k := pathKey n
        let i24 := indet x [24]
        let i25 := indet x [25]
        let (st, pli) := delinStep x.delin f.core f.poisoned i25
        let area := f.area.take (pli.getD 0)
        let (os, scr) := gfpDescramble x.gfpRx (area.map (·.1))
        let pos := os.zip (area.map (·.2))
        let d := d.modTrib n fun y => { clearIndet y with delin := st, pli := pli.getD 0, gfpRx := scr }
        let d := if i24 || i25 then addCnt k 0x07 1 d else d
        let d := if x.delin = .sync ∧ st = .hunt then badFrame k d else d
        let d := setDef k .gfpLfd (st != .sync) t d
        match pli with
        | none => d
        | some p =>
          let (fate, pfi) := gfpFate p (x.opts.toNat % 256) (!(segmentsOf d x).isEmpty) i24 i25 os
          let client := gfpClient pfi pos
          match fate with
          | .idle => d
          | .segment => d.modTrib n fun y => { y with segIn := y.segIn ++ [if x.poisoned then client.map fun o => (o.1, true) else client] }
          | .csf => setDef k .gfpCsf true t (d.modTrib n fun y => { y with csfTime := t })
          | .discard => badFrame k (addCnt k 0x48 1 d)
          | .pfcs => badFrame k (gapInto n (addCnt k 0x49 1 d))
          | .badLen => gapInto n (addCnt k (if client.length < 5 then 0x47 else 0x46) 1 d)
          | .packet => storeWords ⟨.pktIn, n⟩ (packetPocts (if x.poisoned then client.map fun o => (o.1, true) else client)) t
              (setDef k .gfpCsf false t (addCnt k 0x40 1 (addCnt k 0x41 client.length d))))

/-- The first committed packet of a packet FIFO, its words and octets, and the FIFO after it: gap markers before it go. -/
def takePacket : Nat → Fifo → Option (List LaneWord × Nat × Fifo)
  | 0, _ => none
  | n + 1, q =>
    if q.committed = 0 then none
    else
      let e := q.entries.headD 0
      if lwTag e = tagGap then takePacket n q.pop
      else
        let words := q.entries.drop 1
        let k := ((words.findIdx? fun w => lwTag w == tagEnd).getD 0) + 1
        some (words.take k, fld (lwPayload e) 31 16, { q with
          entries := q.entries.drop (k + 1), committed := q.committed - (k + 1), mark := q.mark.map fun m => m - (k + 1)
          lenIn := none })

/-- The octets of a packet's words. -/
def packetOctets (ws : List LaneWord) : List Octet :=
  ws.flatMap fun w => (octetsOf (lwPayload w)).take (if lwTag w = tagEnd then lwCount w + 1 else 4)

/-- The next packet of a packet FIFO: one that its reader has gathered, or the first committed one. -/
def nextPacket (q : Fifo) : Option (List LaneWord × Nat × Fifo) :=
  match q.out.getLast? with
  | some w => if lwTag w = tagEnd then some (q.out, (packetOctets q.out).length, { q with out := [] }) else none
  | none => takePacket (q.entries.length + 1) q

/-- A GFP-F frame: the core header, and the payload area scrambled (07 R183); the state of the scrambler after it. -/
def gfpFrame (s typ : Nat) (client tail : List Octet) : List Octet × Nat :=
  let area := octetsOf (withHec typ) ++ client ++ tail
  let (os, s) := gfpScramble s area
  (octetsOf (withHec area.length ^^^ coreXor) ++ os, s)

/-- An idle frame: PLI and cHEC of 0 (07 R183). -/
def gfpIdle : List Octet := octetsOf coreXor

/-- A frame of a packet: with poison its Ethernet FCS is inverted, and its pFCS (07 R193). -/
def gfpPacket (s : Nat) (x : Trib) (os : List Octet) (bad : Bool) : List Octet × Nat :=
  let inv := fun l : List Octet => l.map fun o => ~~~o
  let n := os.length - 4
  let sum := octetsOf (wd (crcOctets crcPfcs os))
  gfpFrame s (b2n (x.txOpts.getLsbD 11) * 2 ^ 12 + x.txOpts.toNat % 256)
    (if bad then os.take n ++ inv (os.drop n) else os)
    (if !x.txOpts.getLsbD 11 then [] else if bad then inv sum else sum)

/-- Does a segment stream have a segment ready: its octets in store beyond the centre? -/
def segmentReady (d : Dev) (c : Nat) : Bool :=
  match d.trib c with
  | some y => y.txEn && decide ((8 * y.segOct : Int) ≤ fillOf d c y + 32 * (y.esTx.size / 2 : Nat))
  | none => false

/-- A segment of a stream in its container (07 R185). -/
def sendSegment (n c : Nat) (x y : Trib) (hit : Option LaneWord) (t : Time) (d : Dev) : Dev :=
  let (bs, d) := takeBits c (8 * y.segOct) hit t d
  let head := natBe 2 y.seqTx ++ [BitVec.ofNat 8 (fld y.pos 3 0 * 16), 0]
  let (os, s) := gfpFrame x.gfpTx 0xF1 (head ++ bitOctets bs) []
  mapInto n [] os ((d.modTrib n fun z => { z with gfpTx := s }).modTrib c fun z => { z with seqTx := (z.seqTx + 1) % 65536 })

/-- GFP_FRAME_TX: a frame with the next segment that is ready, or the next packet whose length slot is filled; else an idle
frame (07 R183, R185). -/
def execGfpFrameTx (n : Nat) (hit : Option LaneWord) (s : State) : Out :=
  s.run (gFab fun t d =>
    let d := refreshTx n d
    match d.trib n with
    | none => d
    | some x =>
      if x.method ≠ 6 ∨ x.typ ≠ 0x29 ∨ stoppedTrib x then d
      else
        let idle := fun d => mapInto n [] gfpIdle (d.modTrib n fun y => { y with gfpFill := y.gfpFill + 1 })
        if x.tx != .normal || (!x.txEn && x.drain.isNone) then idle d
        else match (segmentsOf d x).find? (segmentReady d) with
          | some c => (match d.trib c with | some y => sendSegment n c x y hit t d | none => d)
          | none =>
            let q := fifoOf d ⟨.pktOut, n⟩
            match nextPacket q with
            | some (ws, len, q) =>
              let (ws, torn) := firstRead hit ws
              let bad := ws.any lwPoison
              let (os, s) := gfpPacket x.gfpTx x (packetOctets ws) bad
              let d := fifoParity ⟨.pktOut, n⟩ torn t d
              countPoison n (b2n bad) (mapInto n [] os (addCnt (pathKey n) 0x42 1 (addCnt (pathKey n) 0x43 len
                ((setFifo ⟨.pktOut, n⟩ q d).modTrib n fun y => { y with gfpTx := s }))))
            | none => idle d)

/-- A loss-of-signal defect at the source of a packet stream (07 R184). -/
def sourceLost (d : Dev) (n : Nat) : Bool :=
  match sourceOf d n with
  | none => false
  | some s =>
    match d.trib s with
    | some y => (match y.port with | some p => hasDef d (secKey p) .los || hasDef d (secKey p) .ethLf | none => false) || sourceFails d s
    | none => false

/-- GFP_CSF_TX: a client management frame every 100 ms: PTI 0b100, UPI 0x01. -/
def execGfpCsfTx (n : Nat) (s : State) : Out :=
  s.run (gFab fun t d =>
    match d.trib n with
    | some x =>
      let due := match x.csfSent with | some u => decide (u + ms 100 ≤ t) | none => true
      if x.typ = 0x29 && x.method == 6 && x.txOpts.getLsbD 10 && sourceLost d n && due && !stoppedTrib x then
        let (os, s) := gfpFrame x.gfpTx 0x8001 [] []
        mapInto n [] os (d.modTrib n fun y => { y with csfSent := some t, gfpTx := s })
      else d
    | none => d)

/-- GFP_CSF_CLEAR: 300 ms without a client management frame (10 R232). -/
def execGfpCsfClear (n : Nat) (s : State) : Out :=
  s.run (gFab fun t d =>
    match d.trib n with
    | some x => if x.csfTime + ms 300 ≤ t then setDef (pathKey n) .gfpCsf false t d else d
    | none => d)

/-! ### Stream segments (07 R185) -/

/-- A segment of a stream: in order, with numbers missing before it, whose data is made up as 0xFF, or earlier than
expected. `held` counts segments up to the 4 that playout waits for. -/
def segmentIn (c seq : Nat) (data : List POct) (t : Time) (d : Dev) : Dev :=
  match d.trib c with
  | none => d
  | some x =>
    let stream := fld x.pos 3 0
    let next := (seq + 1) % 65536
    let put := fun (held lost : Nat) (d : Dev) =>
      putBits c (poctBits (List.replicate (lost * x.segOct) (0xFF, false) ++ data)) t
        (d.modTrib c fun y => { y with segs := tput y.segs stream ⟨next, min 4 (held + lost + 1)⟩ })
    match tget x.segs stream with
    | none => put 0 0 d
    | some r =>
      let ahead := (seq + 65536 - r.exp) % 65536
      if ahead < 32768 then put r.held ahead (addCnt (pathKey c) 0x4B ahead d) else addCnt (pathKey c) 0x4C 1 d

/-- Stream index and sequence number of a segment frame (07 R185). -/
def segmentHead (f : List POct) : Nat × Nat := ((f.getD 2 (0, false)).1.toNat / 16, beNat ((f.take 2).map (·.1)))

/-- SEGMENT_RX: the oldest segment frame that a packet stream's demapper has taken, of this stream index and sequence number,
goes to the stream of its index; without such a frame there is no event (log entry 2). -/
def execSegmentRx (n stream seq : Nat) (s : State) : Out :=
  s.run (gFab fun t d =>
    match d.trib n with
    | none => d
    | some x =>
      match x.segIn with
      | [] => d
      | f :: rest =>
        if segmentHead f != (stream, seq) then d
        else
          let d := d.modTrib n fun y => { y with segIn := rest }
          match (segmentsOf d x).find? fun c => match d.trib c with | some y => fld y.pos 3 0 == stream | none => false with
          | some c => segmentIn c seq (f.drop 4) t d
          | none => d)

/-! ### IMP (07 R186) -/

/-- The kinds of 64B/66B blocks, with the octets that a terminate block carries (log entry 70). -/
inductive ImpBlock where
  | idle
  | oam
  | start
  | data
  | term (n : Nat)
  | error
  | invalid
deriving DecidableEq, Repr

/-- The block types of terminate blocks of 0 to 7 octets. -/
def termTypes : List Nat := [0x87, 0x99, 0xAA, 0xB4, 0xCC, 0xD2, 0xE1, 0xFF]

def impKind (b : Block66) : ImpBlock :=
  let typ := b.payload.toNat / 2 ^ 56
  let rest := b.payload.toNat % 2 ^ 56
  if b.uncorr || b.sync == 0b00 || b.sync == 0b11 then .invalid
  else if b.sync == 0b01 then .data
  else if typ = 0x78 then .start
  else if typ = 0x1E then (if (List.range 8).any fun i => rest / 2 ^ (7 * i) % 128 == 0x1E then .error else .idle)
  else if typ = 0x4B then .oam
  else match termTypes.findIdx? (· == typ) with | some i => .term i | none => .invalid

/-- The octets of a block's payload. -/
def blockOctets (b : Block66) : List Octet := octetsOf (b.payload.extractLsb' 32 32) ++ octetsOf (b.payload.extractLsb' 0 32)

/-- Eight octets as a payload, filled up with 0x00. -/
def blockOf (sync : BitVec 2) (os : List Octet) : Block66 :=
  ⟨sync, BitVec.ofNat 64 (beNat (os ++ List.replicate (8 - os.length) 0)), false⟩

def idleBlock : Block66 := blockOf 0b10 [0x1E]

/-- A packet as blocks (07 R186): start with preamble and SFD, data, terminate with the octets left over; a poisoned packet
ends in an Error control block (07 R193). -/
def impBlocks (os : List Octet) (bad : Bool) : List Block66 :=
  let k := os.length / 8
  let last := blockOf 0b10 (BitVec.ofNat 8 (termTypes.getD (os.length % 8) 0) :: os.drop (8 * k))
  blockOf 0b10 [0x78, 0x55, 0x55, 0x55, 0x55, 0x55, 0x55, 0xD5] ::
    ((List.range k).map fun i => blockOf 0b01 ((os.drop (8 * i)).take 8)) ++ [if bad then errorBlock else last]

/-- The blocks of a packet of a stream, and the idle blocks that follow it (07 R186). -/
def impSend (x : Trib) (os : List Octet) (bad : Bool) : List LaneWord :=
  (impBlocks os bad ++ List.replicate (x.txOpts.toNat % 16) idleBlock).flatMap blockWords

/-- The packet in progress ends in error: counted, and a gap marker. -/
def impError (n : Nat) (d : Dev) : Dev :=
  badFrame (pathKey n) (gapInto n (addCnt (pathKey n) 0x4A 1 (d.modTrib n fun y => { y with impPkt := false, impBuf := [] })))

/-- IMP_BLOCK_RX: the octets of a packet are gathered as its blocks pass. -/
def execImpBlockRx (n : Nat) (b : Block66) (s : State) : Out :=
  s.run (gFab fun t d =>
    match d.trib n with
    | none => d
    | some x =>
      if x.method ≠ 7 ∨ x.typ ≠ 0x29 ∨ stoppedTrib x then d
      else
        let k := pathKey n
        let broken := if x.impPkt then impError n d else d
        match impKind b with
        | .oam => d
        | .idle => broken
        | .start => broken.modTrib n fun y => { y with impPkt := true, impBuf := [] }
        | .data => if x.impPkt then d.modTrib n fun y => { y with impBuf := y.impBuf ++ blockOctets b } else d
        | .term m =>
          if !x.impPkt then d
          else
            let os := x.impBuf ++ ((blockOctets b).drop 1).take m
            let d := d.modTrib n fun y => { y with impPkt := false, impBuf := [] }
            if os.length < 5 then gapInto n (addCnt k 0x47 1 d)
            else if 16000 < os.length then gapInto n (addCnt k 0x46 1 d)
            else storeWords ⟨.pktIn, n⟩ (packetPocts (os.map fun o => (o, x.poisoned))) t
              (addCnt k 0x40 1 (addCnt k 0x41 os.length d))
        | .error => broken
        | .invalid => broken)

end Sys2Proof.Machine
end

