-- ==== Sys2Proof/Machine/Scrub.lean ====
section
/-!
DEFINITION. The scrub of BAR0 fields held in two copies (17 R408).
-/
namespace Sys2Proof.Machine

/-- Does a register hold a field of access RW or LK, or one whose Reset entry is fw? -/
def scrubbed (off : Nat) : Bool :=
  fwBits off != 0 || [0x1C, 0x20, 0x14000, 0x20008, 0x30100, 0x50000, 0x50004, 0x50008].contains off
    || (decide (0x10000 ≤ off) && decide (off < 0x14000) && off % 0x100 == 0x50)

/-- Registers whose loss of both copies is CFG_FATAL: MBX_BIND, MBX_LOCK, IDN_LOCK. -/
def isVital (off : Nat) : Bool :=
  off == 0x1C || off == 0x14000 || (decide (0x10000 ≤ off) && decide (off < 0x14000) && off % 0x100 == 0x50)

/-- A register's scrubbed fields take their reset value and act on it. -/
def resetField (off : Nat) (d : Dev) : Dev :=
  match off with
  | 0x20 => d.onFab fun f => { f with scratch := 0 }
  | 0x20008 => d.onIrq fun q => { q with alertEn := 0b011110#6 }
  | 0x50000 => d.onPwr fun p => { p with cap := 0x06401464#32, capIn := 0x06401464#32 }
  | 0x50004 => d.onPwr fun p => { p with policy := 0xF80A0108#32, policyIn := 0xF80A0108#32 }
  | 0x50008 => d.onPwr fun p => { p with pack := 0xB40A0618#32, packIn := 0xB40A0618#32 }
  | _ => if (lowestRunning d).isSome then d else d.onBoot fun b => { b with zeroed := sadd b.zeroed off }

/-- One finding. -/
def scrubOne (t : Time) (d : Dev) (x : ScrubFinding) : Dev :=
  if !scrubbed x.offset then d
  else
    let d := d.onAon fun a => { a with cfgMismatch := a.cfgMismatch + 1 }
    if x.both && x.offset == 0x30100 then fault 0x17A 0 t d
    else if x.both && isVital x.offset then fault 0x17B (wd x.offset) t d
    else
      let d := if x.both then resetField x.offset d else d
      fault 0x162 (wd x.offset) t (regErr 4 0 x.offset d)

/-- Findings in rising offset. -/
def insertFinding (x : ScrubFinding) : List ScrubFinding → List ScrubFinding
  | [] => [x]
  | y :: r => if x.offset < y.offset then x :: y :: r else y :: insertFinding x r

end Sys2Proof.Machine
end

