-- ==== Sys2Proof/Machine/Contexts.lean ====
section
/-!
DEFINITION. The context store: the 32 words of a context, words that fail their check, and the scrub (01 R11, R15, R32;
07 R172-R175; 09 R228; 17 R408; 18 R422).
-/
namespace Sys2Proof.Machine

/-! ### The words of a context (07 R172, R173)

State codes that the spec does not give are those of `stCode` and `frCode` (DESIGN CHOICE, log entry 76). -/

/-- A value in a field [hi:lo]. -/
def inField (hi lo v : Nat) : Nat := v % 2 ^ (hi + 1 - lo) * 2 ^ lo

def frCode : FrSt → Nat
  | .oof => 0
  | .presync => 1
  | .inFrame => 2

def ptrCode : PtrSt → Nat
  | .norm => 0
  | .ais => 1
  | .lop => 2

def delinCode : Delin → Nat
  | .hunt => 0
  | .presync => 1
  | .sync => 2

/-- The words of a store: its base and size, and its write and read offsets. -/
def esWord (e : Es) : Word := wd (inField 31 14 e.base + inField 13 0 e.size)
def esOffsets (e : Es) : Word := wd (inField 31 18 e.wr + inField 17 4 e.rd)

/-- filt_state: the runs of the label, trace, RDI and APS filters (log entry 76). -/
def filtState (x : Trib) : Nat :=
  inField 31 28 x.label.run + inField 27 24 x.jf.run + inField 23 20 x.rdiRun + inField 19 16 (tgetD x.aps 0 {}).run
    + inField 15 12 x.pt.run + inField 11 8 x.psi.run + inField 7 4 x.ftfl.run

/-- One context word's payload. -/
def ctxWord (d : Dev) (n : Nat) (x : Trib) (w : Nat) : Word :=
  let parent := if x.port.isSome then n else x.parent
  match w with
  | 0 => wd (inField 16 0 n)
  | 1 => wd (inField 31 26 x.typ + inField 25 23 x.method + inField 22 22 (b2n x.enabled) + inField 21 21 (b2n (isConnected d n))
      + inField 20 20 (b2n x.rxOn) + inField 19 19 (b2n x.txOn) + inField 18 18 (b2n x.migrating) + inField 16 0 parent)
  | 2 => wd (inField 29 0 x.rate)
  | 3 => x.pos
  | 4 | 5 | 6 | 7 | 8 => x.tsMap.getD (w - 4) 0
  | 9 => wd (inField 31 30 (xcKindOf d n) + inField 16 0 ((peerOf d n).getD 0))
  | 10 => wd (inField 31 24 x.tol + inField 23 12 x.mOct + x.opts.toNat)
  | 11 => wd (inField 31 16 x.pServer + inField 15 0 (if isSegment x then x.segOct else x.cmMin))
  | 12 => wd (inField 31 16 x.cmMax + inField 15 0 x.cmFrac)
  | 13 => wd (inField 31 16 x.cmRx + inField 15 6 x.sumRx + inField 5 0 x.jcRx)
  | 14 => wd (inField 31 16 x.cmTx + inField 15 4 (x.acc % 4096).toNat + inField 3 0 x.jstHold)
  | 15 => esWord x.esRx
  | 16 => esOffsets x.esRx
  | 17 => esWord x.esTx
  | 18 => esOffsets x.esTx
  | 19 => wd (inField 31 24 (x.mf.exp + x.h4.exp) + inField 23 21 (frCode x.fr.st) + inField 20 18 (b2n (x.mf.im || x.h4.im))
      + inField 17 0 x.fr.errRun)
  | 20 => wd (inField 31 22 x.ptr.act + inField 21 19 (ptrCode x.ptr.st) + inField 18 16 x.ptr.normRun
      + inField 15 10 (x.ptr.invRun + x.ptr.aisRun) + inField 9 0 x.ptrTx.value)
  | 21 => wd (inField 31 24 x.txMfas.toNat + inField 23 0 x.txAcc.length)
  | 22 => wd (inField 31 30 (delinCode x.delin) + inField 29 14 (tgetD x.segs (fld x.pos 3 0) {}).exp)
  | 23 => wd (inField 31 16 x.pli)
  | 24 | 25 | 26 | 27 => x.chk.getD (w - 24) 0
  | 28 => w28 d n
  | 29 => wd (filtState x)
  | 30 => wd (inField 31 16 x.poisonOut + inField 15 0 x.discard)
  | 31 => wd (inField 31 27 (x.unit % 32) + inField 26 22 x.shadow + inField 21 21 (b2n (32 ≤ x.unit)) + x.gen.toNat)
  | _ => 0

/-- The tag of a context word: W0 is a context-boundary word. -/
def ctxTag (w : Nat) : Nat := if w = 0 then tagCtx else tagData

/-- A context as the 32 lane words that it is stored and moved in. -/
def ctxWords (d : Dev) (n : Nat) (x : Trib) : List LaneWord := (List.range 32).map fun w => lw (ctxTag w) (ctxWord d n x w)

/-- Does a context word as read fail its check: parity, tag or poison (07 R175)? -/
def ctxFails (w : Nat) (v : LaneWord) : Bool := !lwParityOk v || lwTag v != ctxTag w || lwPoison v

/-! ### Words that fail (07 R175; 09 R228) -/

/-- Is a context word a configuration word? -/
def isCfgWord (w : Nat) : Bool := decide (w ≤ 12) || w == 31

/-- Sources CTX_STATE_PARITY and CHK_STATE_PARITY of a slice (18 R416). A port processor has no source of its own. -/
def ctxParity (u : Nat) : Option Nat := if u < 0x20 then some (0x40 + u) else none
def chkParity (u : Nat) : Option Nat := if u < 0x20 then some (0x60 + u) else none

def faultOpt (n : Option Nat) (detail : Word) (t : Time) (d : Dev) : Dev :=
  match n with | some k => fault k detail t d | none => d

/-- A state word at its value at creation (07 R167, R175). -/
def Trib.reinit (x : Trib) (t : Time) (w : Nat) : Trib :=
  let y := (x.startRx t).startTx
  match w with
  | 13 => { x with cmRx := 0, sumRx := 0, jcRx := 0 }
  | 14 => { x with cmTx := 0, acc := 0, jcTx := 0, jstHold := 0 }
  | 16 => { x with esRx := y.esRx }
  | 18 => { x with esTx := y.esTx }
  | 19 => { x with fr := y.fr, mf := y.mf, h4 := y.h4 }
  | 20 => { x with ptr := y.ptr, ptrTx := y.ptrTx }
  | 21 => { x with txMfas := 0, txAcc := [] }
  | 22 => { x with delin := .hunt, segs := [] }
  | 23 => { x with pli := 0, impPkt := false, impBuf := [] }
  | 29 => { x with
      rdiRun := 0, label := { x.label with run := 0, cur := none }, jf := { x.jf with run := 0, cur := none }
      aps := x.aps.map fun e => (e.1, { e.2 with run := 0, cur := none }), pt := { x.pt with run := 0, cur := none }
      psi := { x.psi with run := 0, cur := none }, ftfl := { x.ftfl with run := 0, cur := none } }
  | 30 => { x with poisonOut := 0, discard := 0 }
  | _ => x

/-- At the container frame boundary after, the state words that failed are reinitialised, with the stores that they point
into, and the configuration words that firmware rewrites are good again (07 R175). -/
def reinitWords (n : Nat) (t : Time) (d : Dev) : Dev :=
  match d.trib n with
  | none => d
  | some x =>
    let bad := x.badWords.filter fun w => !isCfgWord w && (decide (w < 24) || decide (27 < w))
    let good := bad ++ x.rewrites
    if good.isEmpty then d
    else
      let left := x.badWords.filter fun w => !good.contains w
      let y := bad.foldl (fun y w => y.reinit t w) x
      let d := d.modTrib n fun _ => { y with badWords := left, rewrites := [], poisoned := left.any isCfgWord }
      let d := if bad.contains 16 then startFifo n y true d else d
      let d := if bad.contains 18 then startFifo n y false d else d
      if bad.contains 28 then refresh t (d.modLayer (pathKey n) fun l => { l with defs := [] }) else d

/-- One word that fails its check on read. -/
def badWord (n u w : Nat) (t : Time) (d : Dev) : Dev :=
  let mark := fun (p : Bool) (d : Dev) => d.modTrib n fun x => { x with badWords := sadd x.badWords w, poisoned := x.poisoned || p }
  let detail := wd (w * 2 ^ 17 + n % 2 ^ 17)
  if isCfgWord w then fault 0x162 detail t (mark true d)
  else if 24 ≤ w ∧ w ≤ 27 then
    faultOpt (chkParity u) detail t (mark false (d.modTrib n fun x => { x with chk := lset x.chk (w - 24) 0 }))
  else if w ≤ 30 then faultOpt (ctxParity u) detail t (mark true d)
  else d

/-- CONTEXT_REWRITE: firmware rewrites a failed configuration word from its database at the next container frame
boundary. -/
def execContextRewrite (n w : Nat) (s : State) : Out :=
  s.run (gFw fun _ d => d.modTrib n fun x =>
    if isCfgWord w && x.badWords.contains w then { x with rewrites := sadd x.rewrites w } else x)

/-- CONFIG_SCRUB: a pass starts at an octet boundary and visits the register fields in ascending offset, and the
configuration words of contexts (17 R408; 07 R175). -/
def execConfigScrub (found : ScrubPass) (s : State) : Out :=
  s.run (gFab fun t d => if !isOctet t then d else
    let d := (found.regs.foldl (fun l x => insertFinding x l) []).foldl (scrubOne t) d
    found.ctx.foldl (fun d e => match d.trib e.1 with
      | some x => if isCfgWord e.2 && x.unit != 0xFF then badWord e.1 x.unit e.2 t d else d
      | none => d) d)

/-- A context without an owner goes to another slice under R171 and starts anew (18 R422). -/
def recreateTrib (n : Nat) (t : Time) (d : Dev) : Dev :=
  match d.trib n with
  | none => d
  | some x =>
    if x.unit ≠ 0xFF || (x.typ == 0x0A && d.aon.coll.fenced.contains (unitOfLg (lgOfPort d (x.port.getD 0)))) then d
    else match placeTrib d x with
      | .ok u =>
        let d := if u < 32 && !sliceUp d u then wakeSlice u t d else d
        settleSlice u t (syncWatches t (refresh t
          (startTrib n t (d.modTrib n fun y => { y with unit := u, entry := freeEntry d u, gen := y.gen + 1 }))))
      | .error _ => d

/-- CONTEXT_RECREATE. -/
def execContextRecreate (n : Nat) (s : State) : Out := s.run (gFw (recreateTrib n))

end Sys2Proof.Machine
end

