-- ==== Sys2Proof/Machine/Flexe.lean ====
section
/-!
DEFINITION. FlexE groups and MTN sections: overhead, calendars and their changes, and MTN path OAM (06 R149-R155).
-/
namespace Sys2Proof.Machine

/-- Phase units of an overhead multiframe: 32 frames of about 27,462 (06 R150). -/
def flexeMf : Nat := 32 * 27462

/-- The clients and paths of a group, in T order. -/
def flexeKids (d : Dev) (p : Nat) : List Nat :=
  (tribsOfPort d p).filter fun n => match d.trib n with | some y => isFlexeClient y.typ | none => false

/-- Instances of a group (06 R149). -/
def flexeInsts (d : Dev) (x : Port) : Nat := flexeSlots d x / 20

/-- The PHY of an instance. -/
def phyOfInst (d : Dev) (x : Port) (i : Nat) : Nat := i / (max 1 (flexeInsts d x / max 1 x.phys))

def instOf (x : Port) (i : Nat) : FlexeInst := tgetD x.flx.insts i { since := x.created, mfSince := x.created }

/-- The accepted received calendar of a bank: a client for each slot, where one is accepted. -/
def rxCal (d : Dev) (x : Port) (bankB : Bool) : List (Option Nat) :=
  (List.range (flexeInsts d x)).flatMap fun i =>
    let c := if bankB then (instOf x i).calB else (instOf x i).calA
    (List.range 20).map fun k => (c.getD k {}).acc

/-- Does a bank hold an accepted calendar? -/
def calAccepted (d : Dev) (x : Port) (bankB : Bool) : Bool := (rxCal d x bankB).all Option.isSome

/-- All instances in frame lock and within the deskew tolerance (06 R150). -/
def flexeInFrame (d : Dev) (x : Port) : Bool :=
  (List.range (flexeInsts d x)).all fun i => (instOf x i).locked && decide ((instOf x i).skew ≤ 2000)

/-- FLEXE_CALM of each client: its slots in the received calendar in use differ from the configured ones, where both
are known; or the bank that C names is not accepted (06 R151, R153). -/
def calmDefects (p : Nat) (t : Time) (d : Dev) : Dev :=
  match d.port p with
  | none => d
  | some x =>
    let rx := rxCal d x x.flx.rxBankB
    let tx := txCal x.flx
    (flexeKids d p).foldl (fun d n =>
      match d.trib n with
      | none => d
      | some y =>
        let c := fld y.pos 15 0
        let bad := (List.range rx.length).any fun k =>
          match rx.getD k none with | some r => (r == c) != (tx.getD k 0 == c) | none => false
        setDef (pathKey n) .flexeCalm (bad || x.flx.calmAll) t d) d

/-- GIDM, PHYM and MAPM of a configured group (06 R151; log entry 21). -/
def groupDefects (p : Nat) (t : Time) (d : Dev) : Dev :=
  match d.port p with
  | none => d
  | some x =>
    let is := (List.range (flexeInsts d x)).map fun i => (i, instOf x i)
    let ne := fun (a : Option Nat) (v : Nat) => match a with | some b => b != v | none => false
    let gid := x.flx.cfg && is.any fun e => ne e.2.group.acc x.flx.expGroup.toNat
    let phy := x.flx.cfg && is.any fun e => ne e.2.phy.acc (x.flx.expPhys.getD (phyOfInst d x e.1) 0).toNat
    let map := x.flx.cfg && is.any fun e => match e.2.map.acc with | some m => m != phyMap (x.flx.expPhys.take x.phys) | none => false
    let k := secKey p
    let d := setDef k .flexeMapm map t (setDef k .flexePhym phy t (setDef k .flexeGidm gid t d))
    setDef k .flexeDeskew (is.any fun e => decide (2000 < e.2.skew)) t d

/-- One frame of an instance's receiver (06 R150, R151): a frame with a wrong CRC is outside every run. -/
def FlexeInst.frame (i : FlexeInst) (f : FlexeFrame) (t : Time) : FlexeInst :=
  let i := { i with
    since := if f.locked == i.locked then i.since else t, locked := f.locked
    mfSince := if f.mfLocked == i.mfLocked then i.mfSince else t, mfLocked := f.mfLocked, skew := f.skewNs }
  if !f.locked || !f.crcOk then i
  else
    let i := { i with group := i.group.step 3 f.group.toNat t, phy := i.phy.step 3 f.phy.toNat t, rpf := f.rpf }
    if !f.mfEnd || !f.mfLocked then i
    else
      let step := fun c : List Filt => (List.range 20).map fun k => (c.getD k {}).step 2 (f.cal.getD k 0) t
      { i with map := i.map.step 2 f.map t, calA := if f.bankB then i.calA else step i.calA
               calB := if f.bankB then step i.calB else i.calB }

/-- The partner values of an instance (03 R477). -/
def flexePartner (p : Nat) (x : Port) (i : Nat) (old new : FlexeInst) (t : Time) (d : Dev) : Dev :=
  let it := if x.typ = 0x18 then 4 else 5
  let ph := phyOfInst d x i
  let d := match new.group.acc with
    | some v => if old.group.acc = some v then d else setPartner p it 0 [wd v] t d
    | none => d
  let d := match new.phy.acc with
    | some v => if old.phy.acc = some v then d else setPartner p it (1 + ph) [wd v] t d
    | none => d
  match new.map.acc with
  | some m => if old.map.acc = some m then d else setPartner p it 9 (packWords m) t d
  | none => d

/-- C of the lowest instance (06 R153): the majority of its three copies. -/
def takeC (p : Nat) (f : FlexeFrame) (d : Dev) : Dev :=
  match d.port p with
  | none => d
  | some x =>
    let c := decide (2 ≤ (f.c.filter id).length)
    if x.flx.relock && !f.crcOk then d
    else
      let ok := c == x.flx.rxBankB || calAccepted d x c
      d.modPort p fun y => { y with flx := { y.flx with
        relock := false, rxBankB := if ok then c else y.flx.rxBankB, calmAll := !ok } }

/-- CR and CA of a frame with a valid CRC (06 R153): CA is accepted in the 3rd frame running that sets it, and stays so. -/
def takeCrCa (p : Nat) (f : FlexeFrame) (d : Dev) : Dev :=
  if !f.crcOk then d
  else d.modPort p fun y => { y with flx := { y.flx with
    caOut := f.cr
    change := y.flx.change.map fun c => { c with
      caRun := if f.ca then c.caRun + 1 else if 3 ≤ c.caRun then c.caRun else 0 } } }

/-- FLEXE_OH_FRAME. -/
def execFlexeOhFrame (port inst : Nat) (f : FlexeFrame) (s : State) : Out :=
  s.run (gRun fun t d =>
    match d.port port with
    | none => d
    | some x =>
      if !isFlexe x.typ || decide (flexeInsts d x ≤ inst) then d
      else
        let i := instOf x inst
        let j := i.frame f t
        let d := d.modPort port fun y => { y with flx := { y.flx with insts := tput y.flx.insts inst j } }
        let d := if f.locked && !f.crcOk then addCnt (secKey port) 0x62 1 d else d
        let d := flexePartner port x inst i j t d
        let lead := inst == 0 && f.locked && (match d.port port with | some y => flexeInFrame d y | none => false)
        let d := if lead then takeCrCa port f (takeC port f (rxFrame port t d)) else d
        let d := calmDefects port t (groupDefects port t d)
        match d.port port with
        | none => d
        | some y =>
          let inF := flexeInFrame d y
          setWords (flexeKids d port) (fun _ => !inF) t
            (flexeRpf port (d.modPort port fun z => { z with entered := z.entered || inF })))

/-- FLEXE_LOF_CHANGE: an instance out of lock for 3 ms, or every instance in lock for 3 ms (06 R150). -/
def execFlexeLofChange (port : Nat) (mf : Bool) (s : State) : Out :=
  s.run (gRun fun t d =>
    match d.port port with
    | none => d
    | some x =>
      if !isFlexe x.typ then d
      else
        let is := (List.range (flexeInsts d x)).map (instOf x)
        let lock := fun i : FlexeInst => if mf then i.mfLocked else i.locked
        let long := fun i : FlexeInst => decide ((if mf then i.mfSince else i.since) + ms 3 ≤ t)
        let x' : Def := if mf then .flexeLomf else .flexeLof
        if is.any fun i => !lock i && long i then
          let d := if mf then d else d.modPort port fun y => { y with flx := { y.flx with relock := true } }
          flexeRpf port (setDef (secKey port) x' true t d)
        else if is.all fun i => lock i && long i then flexeRpf port (setDef (secKey port) x' false t d)
        else d)

/-! ### Calendar changes (06 R152, R153) -/

/-- The slots that W6 to W15 name. -/
def calSlots (w : Nat → Word) : List Nat := (List.range 320).filter fun k => bitAt (w (6 + k / 32)) (31 - k % 32)

/-- A calendar with a client in other slots. -/
def calWith (n c : Nat) (slots : List Nat) (cal : List Nat) : List Nat :=
  (List.range n).map fun k => if slots.contains k then c else if cal.getD k 0 = c then 0 else cal.getD k 0

def clientNo (d : Dev) (n : Nat) : Nat := match d.trib n with | some y => fld y.pos 15 0 | none => 0

/-- Accepted calendar changes of a group, oldest first. -/
def calPending (d : Dev) (p : Nat) : List Change := d.fab.fw.changes.filter fun c => c.code == 0x0222#16 && c.obj == .port p

/-- The transmitted calendar after every accepted change. -/
def calFuture (d : Dev) (p : Nat) (x : Port) : List Nat :=
  (calPending d p).foldl (fun cal c => calWith (flexeSlots d x) (clientNo d (fld (c.w 5) 16 0)) (calSlots c.w) cal) (txCal x.flx)

/-- The rate of each client from the calendar in use (06 R152). -/
def calRates (p : Nat) (d : Dev) : Dev :=
  match d.port p with
  | none => d
  | some x =>
    (flexeKids d p).foldl (fun d n => d.modTrib n fun y =>
      { y with rate := (slotsOf (fld y.pos 15 0) (txCal x.flx)).length * 5156250 }) d

def cmdFlexeClientSet : Cmd := {
  code := 0x0222, n := 16, kind := .config, vf := true
  mask := [(4, portMask), (5, tMask)] ++ (List.range 10).map fun i => (6 + i, anyW)
  perm := ownsPort
  chk := fun x d =>
    let n := fld (x.w 5) 16 0
    let p := x.port
    match d.port p, d.trib n with
    | some y, some z =>
      let ss := calSlots x.w
      let fut := calFuture d p y
      let c := fld z.pos 15 0
      let held := ss.find? fun k => fut.getD k 0 != 0 && fut.getD k 0 != c
      let owner := match held with | some k => (flexeKids d p).find? fun m => clientNo d m == fut.getD k 0 | none => none
      let kbps := ss.length * 5156250
      firstErr [
        need (isFlexe y.typ) (badArg 4 0),
        need (isFlexeClient z.typ && z.port == some p) (badArg 5 0),
        need (ss.all fun k => decide (k < flexeSlots d y)) (badArg (6 + (ss.foldl max 0) / 32) 0),
        need (!isCarrier z || decide (ss.length ≤ 1)) (badArg 6 0),
        match held with | some _ => some ⟨rcConflict, owner.getD 0⟩ | none => none,
        need (decide (kbps ≤ 400000000) && (decide (32 ≤ z.unit) || decide (sliceKbps d z.unit + (kbps - z.rate) ≤ 400000000)))
          (noResource 1)]
    | none, _ => some (badArg 4 0)
    | _, none => some (badArg 5 0)
  obj := fun x _ => .port x.port
  parts := fun _ _ => [.own]
  place := fun x d =>
    match d.trib (fld (x.w 5) 16 0) with
    | some z => some ⟨fld (x.w 5) 16 0, false, z.unit, (calSlots x.w).length * 5156250 - z.rate, 0⟩
    | none => none
  key := fun ws => some (ws.getD 4 0, ws.getD 5 0)
  apply := fun c _ t d =>
    let p := portOfWord (c.w 4).toNat
    let d := d.modPort p fun y =>
      let cal := calWith (flexeSlots d y) (clientNo d (fld (c.w 5) 16 0)) (calSlots c.w) (txCal y.flx)
      { y with flx := if y.flx.bankB then { y.flx with bankB := false, calA := cal } else { y.flx with bankB := true, calB := cal } }
    calmDefects p t (calRates p d) }

/-- FLEXE_CAL_START: at a multiframe boundary the oldest change's calendar goes into the inactive bank, with CR. -/
def execFlexeCalStart (port : Nat) (s : State) : Out :=
  s.run (gRun fun t d =>
    match d.port port, (calPending d port).head? with
    | some x, some c =>
      if x.flx.change.isSome || !ownReady d c t then d
      else
        let cal := calWith (flexeSlots d x) (clientNo d (fld (c.w 5) 16 0)) (calSlots c.w) (txCal x.flx)
        d.modPort port fun y => { y with flx := { y.flx with
          change := some ⟨c.handle, c.mem, t, 0⟩, cr := true
          calA := if y.flx.bankB then cal else y.flx.calA, calB := if y.flx.bankB then y.flx.calB else cal } }
    | _, _ => d)

/-- The change that a calendar change in progress carries out. -/
def calChangeOf (d : Dev) (p : Nat) (x : CalChange) : Option Change :=
  (calPending d p).find? fun c => c.handle == x.handle && c.mem == x.mem

/-- FLEXE_CAL_SWITCH: C changes once CA is accepted, or after 2 multiframes without handshake; CR clears. -/
def execFlexeCalSwitch (port : Nat) (s : State) : Out :=
  s.run (gRun fun t d =>
    match d.port port with
    | none => d
    | some x =>
      match x.flx.change with
      | none => d
      | some ch =>
        if if x.flx.handshake then decide (3 ≤ ch.caRun) else decide (ch.start + 2 * flexeMf ≤ t) then
          let d := d.modPort port fun y => { y with flx := { y.flx with change := none, cr := false } }
          match calChangeOf d port ch with
          | some c => applyPart cmdFlexeClientSet c .own t d
          | none => d
        else d)

/-- FLEXE_CAL_TIMEOUT: CA not accepted within ca_timeout multiframes. -/
def execFlexeCalTimeout (port : Nat) (s : State) : Out :=
  s.run (gRun fun t d =>
    match d.port port with
    | none => d
    | some x =>
      match x.flx.change with
      | none => d
      | some ch =>
        if !x.flx.handshake || decide (3 ≤ ch.caRun) || decide (t < ch.start + x.flx.caTimeout * flexeMf) then d
        else
          let d := d.modPort port fun y => { y with flx := { y.flx with
            change := none, cr := false, timeouts := y.flx.timeouts + 1
            calA := if y.flx.bankB then [] else y.flx.calA, calB := if y.flx.bankB then y.flx.calB else [] } }
          match calChangeOf d port ch with
          | some c => abortChange c rcTimeout t d
          | none => d)

/-! ### FLEXE_GROUP_CONFIG and FLEXE_STATUS_GET -/

def cmdFlexeGroupConfig : Cmd := {
  code := 0x0221, n := 11, kind := .config, vf := true
  mask := [(4, portMask), (5, bitsMask 31 24 + bitsMask 19 0), (6, bitsMask 19 0), (7, anyW), (8, anyW), (9, anyW), (10, anyW)]
  perm := ownsPort
  chk := fun x d =>
    match d.port x.port with
    | none => some (badArg 4 0)
    | some y =>
      let gid := fun w : Word => decide (1 ≤ fld w 19 0) && decide (fld w 19 0 ≤ 0xFFFFE)
      let bad := fun os : List Octet => (os.take y.phys).findIdx? fun o => o == 0 || o == 255
      let phyErr := fun (w : Nat) (os : List Octet) => (bad os).map fun i => badArg (w + i / 4) (24 - 8 * (i % 4))
      firstErr [
        need (isFlexe y.typ) (badArg 4 0),
        need (bitAt (x.w 5) 31 == (y.typ == 0x19)) (badArg 5 31),
        need (fld (x.w 5) 29 24 != 0) (badArg 5 24),
        need (gid (x.w 5)) (badArg 5 0),
        need (gid (x.w 6)) (badArg 6 0),
        phyErr 7 (eightOf (x.w 7) (x.w 8)),
        phyErr 9 (eightOf (x.w 9) (x.w 10))]
  obj := fun x _ => .port x.port
  parts := fun x _ => [.octet, .frame (.port x.port) .rx, .frame (.port x.port) .tx]
  key := fun ws => some (ws.getD 4 0, 0)
  apply := fun c p t d =>
    let n := c.port
    let w := c.w 5
    match p with
    | .frame _ .tx => d.modPort n fun y => { y with flx := { y.flx with
        txGroup := BitVec.ofNat 20 (fld w 19 0), txPhys := eightOf (c.w 7) (c.w 8) } }
    | .frame _ .rx => groupDefects n t (d.modPort n fun y => { y with flx := { y.flx with
        cfg := true, expGroup := BitVec.ofNat 20 (fld (c.w 6) 19 0), expPhys := eightOf (c.w 9) (c.w 10) } })
    | _ => d.modPort n fun y => { y with flx := { y.flx with
        mtn := bitAt w 31, handshake := bitAt w 30, caTimeout := fld w 29 24 } } }

/-- The overhead of each instance and the calendars in use (06 R151, R153; log entry 23). -/
def cmdFlexeStatusGet : Cmd := {
  code := 0x0208, n := 8, kind := .query, vf := true, i2c := true, mask := [(4, portMask)]
  perm := ownsPort
  chk := fun x d => need (match d.port x.port with | some y => isFlexe y.typ | none => false) (badArg 4 0)
  run := fun x d =>
    match d.port x.port with
    | none => { dev := d }
    | some y =>
      let one := fun i : Nat =>
        let f := instOf y i
        item 1 i [wd (b2n f.locked * 2 ^ 31 + b2n f.mfLocked * 2 ^ 30 + b2n f.rpf * 2 ^ 29 + f.skew % 65536)]
          ++ (match f.group.acc with | some v => item 2 i [wd v] | none => [])
          ++ (match f.phy.acc with | some v => item 3 i [wd v] | none => [])
          ++ (match f.map.acc with | some m => item 4 i (packWords m) | none => [])
      let cal := rxCal d y y.flx.rxBankB
      { dev := d
        items := (List.range (flexeInsts d y)).flatMap one
          ++ item 5 0 [wd (b2n y.flx.bankB + 2 * b2n y.flx.rxBankB + 4 * b2n y.flx.cr + 8 * b2n y.flx.caOut)]
          ++ (List.range (flexeInsts d y)).flatMap fun i =>
            item 6 i (((cal.drop (20 * i)).take 20).map fun v => match v with | some c => wd (2 ^ 31 + c) | none => 0) } }

/-! ### MTN paths (06 R154, R155) -/

def cmdMtnPathConfig : Cmd := {
  code := 0x0223, n := 8, kind := .config, vf := true, mask := [(4, tMask), (5, bitsMask 31 31)]
  perm := ownsTrib
  chk := fun x d => need (match d.trib (fld (x.w 4) 16 0) with | some y => y.typ == 0x2B | none => false) (badArg 4 0)
  obj := fun x _ => .trib (fld (x.w 4) 16 0)
  parts := fun x d => contParts d (fld (x.w 4) 16 0)
  key := fun ws => some (ws.getD 4 0, 0)
  apply := fun c p _ d =>
    if isTxPart p then d else d.modTrib (fld (c.w 4) 16 0) fun x => { x with connected := bitAt (c.w 5) 31 } }

/-- A condition in 3 consecutive blocks against the defect as it stands (10 R232). -/
def threeStep (cur : Bool) (run : Nat) (b : Bool) : Bool × Nat :=
  if b == cur then (cur, 0) else if run = 2 then (b, 0) else (cur, run + 1)

/-- The paths that carry OAM: an MTN path that is no fine-grain carrier (06 R156). -/
def hasOam (x : Trib) : Bool := x.typ == 0x2B && !isCarrier x

/-- MTN_BAS_RX: BIP-8 over the path since the previous BAS, REI, RDI and CS. -/
def execMtnBasRx (n : Nat) (b : BasBlock) (s : State) : Out :=
  s.run (gRun fun t d =>
    match d.trib n with
    | none => d
    | some x =>
      if !hasOam x then d
      else
        let k := pathKey n
        let ind := indet x [24, 25]
        let prev := (x.pm.bips.headD []).head?
        let errs := match prev with | some p => popCount 8 (p ^^^ b.bip).toNat | none => 0
        let d := addCnt k 0x07 (b2n ind) (blockRx k errs (prev.isSome && !ind) d)
        let d := farDef k (hasDef d k .mtnRdi) (farRx k b.rei.toNat d)
        let hold := (d.layer k).ssf
        let (rdi, r1) := if hold then (hasDef d k .mtnRdi, x.basRun) else threeStep (hasDef d k .mtnRdi) x.basRun b.rdi
        let (cs, r2) := threeStep (hasDef d k .mtnCsf) x.csRun b.cs
        let y := { clearIndet x with
          pm := { x.pm with bips := [[b.own]] }, chk := [0, wd (b.own.toNat * 2 ^ 24), x.chk.getD 2 0, x.chk.getD 3 0]
          basRun := r1, csRun := r2, reiTx := if (d.layer k).tsf || ind then 0 else errs }
        setDef k .mtnCsf cs t (setDef k .mtnRdi rdi t (d.modTrib n fun _ => y)))

/-- The number of a path in its section: paths counted from 0 in T order (03 R477). -/
def pathIndex (d : Dev) (p n : Nat) : Nat := ((flexeKids d p).filter fun m => decide (m < n)).length

/-- MTN_CV_RX: accepted when identical 3 times, and compared. -/
def execMtnCvRx (n : Nat) (cv : List Octet) (s : State) : Out :=
  s.run (gRun fun t d =>
    match d.trib n with
    | none => d
    | some x =>
      if !hasOam x then d
      else
        let os := pad 32 0 cv
        let j := if (d.layer (pathKey n)).ssf then x.jf else x.jf.step 3 os t
        let d := d.modTrib n fun y => { y with jf := j }
        let d := match j.acc, x.port with
          | some v, some p => if x.jf.acc = some v then d else setPartner p 5 (0x100 + pathIndex d p n) (packWords v) t d
          | _, _ => d
        setTim (pathKey n) .pathTim false (expTrace x 0x11) j.acc t d)
where
  /-- The first 32 octets, 0x00 where there are fewer. -/
  pad (n : Nat) (z : Octet) (os : List Octet) : List Octet := (os ++ List.replicate n z).take n

/-- MTN_APS_RX: accepted when identical in 3 consecutive APS blocks. -/
def execMtnApsRx (n : Nat) (v : Word) (s : State) : Out :=
  s.run (gRun fun t d => d.modTrib n fun x =>
    if hasOam x then { x with aps := tmod x.aps 0 {} fun a => a.step 3 v.toNat t } else x)

end Sys2Proof.Machine
end

