-- ==== Sys2Proof/Machine/Fg.lean ====
section
/-!
DEFINITION. Fine-grain carriers and channels: overhead grains, maps, bank changes and the handshake of a map change
(06 R156-R161; 10 R242).
-/
namespace Sys2Proof.Machine

/-- Phase units of 16 fine-grain multiframes of 128 µs, rounded up (06 R156, R161). -/
def fgWait : Nat := 536871

/-- F[51:0] of an overhead grain (06 R157). -/
def fgField (p : BitVec 64) : Nat := (p.toNat / 2 ^ 32 % 2 ^ 24) * 2 ^ 28 + p.toNat % 2 ^ 28

/-- Is a block OG-shaped: type 0x4B with O code 0xA (06 R159)? -/
def ogShaped (p : BitVec 64) : Bool := p.extractLsb' 56 8 == 0x4B#8 && p.extractLsb' 28 4 == 0xA#4

/-- The sequence number of a grain that counts as present; a poisoned one counts as absent (06 R160). -/
def grainSeq (g : Option FgGrain) : Option Nat :=
  match g with
  | some b => if b.poisoned || !ogShaped b.payload then none else some (fgField b.payload / 2 ^ 45)
  | none => none

/-- CRC-16 of a multiframe's map: the entries, then the octet of ms (06 R157). -/
def fgCrc (entries : List Nat) (b : Bool) : Nat :=
  crcOctets crcMap (entries.map (BitVec.ofNat 8) ++ [BitVec.ofNat 8 (b2n b)])

/-- The accepted map of a bank. -/
def FgCar.map (x : FgCar) (b : Bool) : Option (List Nat) := (x.maps.getD (b2n b) none)

/-- Is the map last advertised for a bank the one accepted into it: a map of an earlier change is not (06 R160, R161)? -/
def FgCar.advertised (x : FgCar) (b : Bool) : Bool :=
  match x.cur with | some (c, m) => c == b && x.map b == some m | none => false

/-- What a grain gives: the carrier after it, and what is counted. `judged`: a whole map with its CRC was judged. -/
structure FgOut where
  car : FgCar
  crcErr : Bool := false
  amErr : Bool := false
  judged : Bool := false

/-- A grain with sequence number 0 to 98 (06 R157, R160). -/
def FgCar.entries (x : FgCar) (s f : Nat) : FgOut :=
  let es := (List.range 5).map fun i => f / 2 ^ (32 - 8 * i) % 256
  let x := { x with asm := if s = 0 then es else if x.asm.length = 5 * s then x.asm ++ es else x.asm }
  let am := f.testBit 43
  match x.nextAm with
  | some nb =>
    if s ≠ 0 then ⟨x, false, false, false⟩
    else if nb != am then ⟨{ x with nextAm := none }, false, true, false⟩
    else ⟨{ x with nextAm := none, bank := if (x.map am).isSome then am else x.bank }, false, false, false⟩
  | none => ⟨x, false, false, false⟩

/-- A grain with sequence number 99: the map's CRC, cr, ca and carrier_id (06 R157, R160, R161). A map with a grain
missing, or with a failed partial check value, is not judged (09 R228). -/
def FgCar.last (x : FgCar) (f : Nat) (indet : Bool) : FgOut :=
  let b := f.testBit 44
  let whole := x.asm.length == 495 && !indet
  let ok := whole && fgCrc x.asm b == f / 2 ^ 16 % 2 ^ 16
  let x :=
    if ok then
      let same := x.cur == some (b, x.asm)
      let run := if same then x.curRun + 1 else 1
      { x with cur := some (b, x.asm), curRun := run
               maps := if 2 ≤ run then lset x.maps (b2n b) (some x.asm) else x.maps }
    else x
  let cr := f.testBit 42
  ⟨{ x with
      asm := [], nextAm := some (f.testBit 43), crRx := cr, caTx := cr && x.advertised b
      caOk := x.caOk || (x.change.isSome && ok && f.testBit 41)
      rxCarrierId := if ok then BitVec.ofNat 8 (f / 2 ^ 8 % 256) else x.rxCarrierId }, whole && !ok, false, whole⟩

/-- Channels of a carrier (06 R156). -/
def fgKids (d : Dev) (n : Nat) : List Nat :=
  (kidsOf d n).filter fun c => match d.trib c with | some y => y.typ == 0x2C | none => false

def fgIndex (d : Dev) (n : Nat) : Nat := match d.trib n with | some y => fld y.pos 7 0 | none => 0xFF
def fgGrains (d : Dev) (n : Nat) : Nat := match d.trib n with | some y => fld y.pos 16 8 | none => 0

/-- FG_LOA, FG_MAP_MISMATCH and the delivery of words of the channels (06 R159, R160). -/
def fgDefects (n : Nat) (t : Time) (d : Dev) : Dev :=
  match d.trib n with
  | none => d
  | some x =>
    let m := x.fg.map x.fg.bank
    let bad := fun c => match m with | some es => (es.filter (· == fgIndex d c)).length != fgGrains d c | none => false
    let d := (fgKids d n).foldl (fun d c => setDef (pathKey c) .fgMapMismatch (bad c) t (setDef (pathKey c) .fgLoa x.fg.loa t d)) d
    setWords (fgKids d n) (fun c => !(x.fg.st == .sync) || m.isNone || bad c) t d

/-- The end of a multiframe: a block, and the blocks discarded in positions of no configured channel (06 R160;
10 R242). -/
def fgMultiframe (n : Nat) (o : FgOut) (indet : Bool) (d : Dev) : Dev :=
  let k := pathKey n
  let d := if indet then blockRx k 0 false (addCnt k 0x07 1 d)
    else blockPlain k (o.crcErr || (d.layer k).badFrame) d
  let d := d.modLayer k fun l => { l with badFrame := false }
  let own := (fgKids d n).map (fgIndex d)
  let lost := 20 * (match o.car.map o.car.bank with
    | some es => (es.filter fun e => e != 0xFF && !own.contains e).length
    | none => 0)
  addCnt k 0x54 lost (d.modTrib n fun y => { y with discard := min (y.discard + lost) 65535 })

/-- The carrier_id received goes into the partner record of the port (06 R157); R477 gives it no number: instance 0x200 + c of
item 4 or 5, with the clients of the group counted from 0 in T order (DESIGN CHOICE, log entry 82). -/
def carrierPartner (n : Nat) (id : Octet) (t : Time) (d : Dev) : Dev :=
  match d.trib n with
  | some x => (match x.port with
    | some p => setPartner p (if x.typ = 0x2B then 5 else 4) (0x200 + pathIndex d p n) [wd id.toNat] t d
    | none => d)
  | none => d

/-- One expected position in SYNC (06 R159). -/
def fgSync (n : Nat) (x : Trib) (g : Option FgGrain) (t : Time) (d : Dev) : Dev :=
  let k := pathKey n
  let c := x.fg
  let s := c.expSeq
  let next := (s + 1) % 100
  if grainSeq g = some s then
    let f := match g with | some b => fgField b.payload | none => 0
    let ind := indet x [25]
    let c := { c with expSeq := next, absent := 0 }
    if s < 99 then
      let o := c.entries s f
      addCnt k 0x66 (b2n o.amErr) (d.modTrib n fun y => { y with fg := o.car })
    else
      let o := c.last f ind
      let d := d.modTrib n fun y => clearIndet { y with fg := o.car }
      let d := if o.judged && !o.crcErr then carrierPartner n o.car.rxCarrierId t d else d
      fgMultiframe n o ind (addCnt k 0x65 (b2n o.crcErr) d)
  else if 4 ≤ c.absent then
    d.modTrib n fun y => { y with fg := { c with st := .hunt, run := 0, absent := 0, loa := true, asm := [], nextAm := none } }
  else
    let c := { c with expSeq := next, absent := c.absent + 1, asm := if s = 99 then [] else c.asm
                      nextAm := if s = 0 ∨ s = 99 then none else c.nextAm }
    let d := badFrame k (addCnt k 0x64 1 (d.modTrib n fun y => { y with fg := c }))
    if s = 99 then fgMultiframe n ⟨c, false, false, false⟩ false d else d

/-- FG_OVERHEAD_GRAIN: a block at an expected position, or in HUNT an OG-shaped block anywhere (06 R159). -/
def execFgOverheadGrain (n : Nat) (g : Option FgGrain) (s : State) : Out :=
  s.run (gRun fun t d =>
    match d.trib n with
    | none => d
    | some x =>
      if !isCarrier x then d
      else
        let c := x.fg
        let seq := grainSeq g
        let d := match c.st with
          | .hunt => (match seq with
            | some q => d.modTrib n fun y => { y with fg := { c with st := .presync, run := 0, expSeq := (q + 1) % 100 } }
            | none => d)
          | .presync =>
            if seq = some c.expSeq then d.modTrib n fun y => { y with fg := { c with
              st := if c.run = 2 then .sync else .presync, run := c.run + 1, loa := c.loa && c.run != 2
              expSeq := (c.expSeq + 1) % 100, absent := 0, asm := [], nextAm := none } }
            else d.modTrib n fun y => { y with fg := { c with st := .hunt, run := 0 } }
          | .sync => fgSync n x g t d
        fgDefects n t d)

/-! ### Map changes (06 R161) -/

/-- A map of 495 positions. -/
def fullMap (m : List Nat) : List Nat := (List.range 495).map fun q => m.getD q 0xFF

/-- A map with a channel at `g` grains: the lowest unassigned positions join, its highest leave (log entry 24). -/
def fgMapWith (idx g : Nat) (m : List Nat) : List Nat :=
  let mine := (List.range 495).filter fun q => m.getD q 0xFF == idx
  let free := (List.range 495).filter fun q => m.getD q 0xFF == 0xFF
  let keep := mine.take g ++ free.take (g - mine.length)
  (List.range 495).map fun q => if keep.contains q then idx else if mine.contains q then 0xFF else m.getD q 0xFF

/-- The rate of a channel of `g` grains, in kb/s (07 R164). -/
def fgKbps (g : Nat) : Nat := (g * 103125 + 5) / 10

/-- FG_RESIZE_START: at a multiframe start the oldest change's map goes into the inactive bank, with cr. -/
def execFgResizeStart (n : Nat) (s : State) : Out :=
  s.run (gRun fun t d =>
    match d.trib n, (fgPending d n).head? with
    | some x, some c =>
      if x.fg.change.isSome || !ownReady d c t || !placeReady c d then d
      else match fgTarget d c with
        | none => d
        | some (_, k, g, i) =>
          let cur := x.fg.txMaps.getD (b2n x.fg.txBank) []
          let d := d.modTrib n fun y => { y with fg := { y.fg with
            change := some (c.handle, c.mem, t), cr := true, ms := !y.fg.txBank, caOk := false
            txMaps := lset y.fg.txMaps (b2n !y.fg.txBank) (fgMapWith i g (fullMap cur)) } }
          d.modTrib k fun y => { y with rate := min y.rate (fgKbps g) }
    | _, _ => d)

/-- The change that a handshake carries out. -/
def fgChangeOf (d : Dev) (n : Nat) (x : Nat × Nat × Time) : Option Change :=
  (fgPending d n).find? fun c => c.handle == x.1 && c.mem == x.2.1

/-- A channel takes up a new number of grains. -/
def fgSetGrains (k g : Nat) (d : Dev) : Dev :=
  d.modTrib k fun y => { y with rate := fgKbps g, pos := (y.pos &&& wd 0xFFFE00FF) ||| wd (g * 256), gen := y.gen + 1 }

/-! ### Commands -/

/-- FG_CHAN_CREATE as the TRIB_CREATE of type 0x2C that it is equivalent to (16 R395). -/
def fgReq (w : Nat → Word) : TribReq :=
  { n := fld (w 4) 16 0, typ := 0x2C, method := 0, enabled := true, rxOn := true, txOn := true, onPort := false
    parent := fld (w 5) 16 0, p := 0, pos := wd (fld (w 6) 24 16 * 256 + fld (w 6) 7 0), rate := 0, tol := 0, opts := 0
    ts := [], seg := 0 }

/-- Where FG_CHAN_CREATE carries the field that a check of TRIB_CREATE names. -/
def fgErr (e : Err) : Err :=
  if e.code ≠ rcBadArg then e
  else if e.detail / 256 = 5 then badArg 5 0
  else if e.detail = 6 * 256 + 8 then badArg 6 16 else e

def carrierPort (d : Dev) (n : Nat) : Nat := match d.trib n with | some x => x.port.getD 0 | none => 0

def cmdFgChanCreate : Cmd := {
  code := 0x0224, n := 8, kind := .config, vf := true
  mask := [(4, tMask), (5, tMask), (6, bitsMask 24 16 + bitsMask 7 0), (7, bitsMask 7 0)]
  perm := fun x d => match d.trib (fld (x.w 5) 16 0) with | some y => y.owner == x.m | none => true
  chk := fun x d => (tribCreateErr d (fgReq x.w) x.m).map fgErr
  obj := fun x _ => .trib (fld (x.w 4) 16 0)
  parts := fun x d => [.frame (.port (carrierPort d (fld (x.w 5) 16 0))) .tx, .own]
  place := fun x d => tribPlace d (fgReq x.w) x.m
  onAccept := wakePlace
  key := fun ws => some (ws.getD 4 0, 0)
  apply := fun c p t d =>
    let r := fgReq c.w
    match p with
    | .frame _ _ => d.modTrib r.parent fun y => { y with fg := { y.fg with carrierId := BitVec.ofNat 8 (fld (c.w 7) 7 0) } }
    | _ => applyCreate r c true true t d }

/-- Is T a fine-grain channel? -/
def isChannel (x : Ctx) (d : Dev) : Bool := match d.trib (fld (x.w 4) 16 0) with | some y => y.typ == 0x2C | none => false

def cmdFgChanResize : Cmd := {
  code := 0x0225, n := 8, kind := .config, vf := true, mask := [(4, tMask), (6, bitsMask 24 16)]
  perm := ownsTrib
  chk := fun x d =>
    let n := fld (x.w 4) 16 0
    let g := fld (x.w 6) 24 16
    match d.trib n with
    | none => some (badArg 4 0)
    | some y =>
      let fut := (fgFuture d y.parent).filter fun e => e.1 != n
      firstErr [
        need (isChannel x d) (badArg 4 0),
        need (decide (1 ≤ g) && decide (g ≤ 495)) (badArg 6 16),
        need (decide (sumBy (fun e => e.2.1) fut + g ≤ 495)) (noResource 1),
        need (decide (32 ≤ y.unit) || decide (sliceKbps d y.unit + (fgKbps g - y.rate) ≤ 400000000)) (noResource 1)]
  obj := fun x _ => .trib (fld (x.w 4) 16 0)
  parts := fun _ _ => [.own]
  place := fun x d =>
    match d.trib (fld (x.w 4) 16 0) with
    | some y => some ⟨fld (x.w 4) 16 0, false, y.unit, fgKbps (fld (x.w 6) 24 16) - y.rate, 0⟩
    | none => none
  key := fun ws => some (ws.getD 4 0, 0)
  apply := fun c _ _ d => fgSetGrains (fld (c.w 4) 16 0) (fld (c.w 6) 24 16) d }

def cmdFgChanDelete : Cmd := {
  code := 0x0226, n := 8, kind := .config, vf := true, mask := [(4, tMask)]
  perm := ownsTrib
  chk := fun x d => firstErr [need (isChannel x d) (badArg 4 0), conflictT (lowestTie d (fld (x.w 4) 16 0))]
  obj := fun x _ => .trib (fld (x.w 4) 16 0)
  parts := fun _ _ => [.own]
  drop := cmdTribDelete.drop
  apply := fun c _ t d => freeTrib (fld (c.w 4) 16 0) t d }

/-- The bank change of an accepted handshake: a creation or a resize applies; a deleted channel stops and drains. -/
def fgApply (c : Change) (k g : Nat) (t : Time) (d : Dev) : Dev :=
  if g = 0 then stopTrib k (some c.handle) t d
  else if c.code = 0x0301#16 then applyPart cmdTribCreate c .own t d
  else if c.code = 0x0224#16 then applyPart cmdFgChanCreate c .own t d
  else applyPart cmdFgChanResize c .own t d

/-- FG_BANK_SWITCH: ca accepted, next_am sent; from this multiframe the new bank is in use. -/
def execFgBankSwitch (n : Nat) (s : State) : Out :=
  s.run (gRun fun t d =>
    match d.trib n with
    | none => d
    | some x =>
      match x.fg.change with
      | none => d
      | some h =>
        if !x.fg.caOk then d
        else
          let d := d.modTrib n fun y => { y with fg := { y.fg with
            txBank := !y.fg.txBank, ms := !y.fg.txBank, cr := false, caOk := false, change := none } }
          match fgChangeOf d n h with
          | none => d
          | some c => match fgTarget d c with
            | some (_, k, g, _) => fgDefects n t (fgApply c k g t d)
            | none => d)

/-- FG_RESIZE_TIMEOUT: ca not accepted in 16 multiframes, or FG_LOA in the handshake: the old map stays. -/
def execFgResizeTimeout (n : Nat) (s : State) : Out :=
  s.run (gRun fun t d =>
    match d.trib n with
    | none => d
    | some x =>
      match x.fg.change with
      | none => d
      | some h =>
        if !(x.fg.loa || (!x.fg.caOk && decide (h.2.2 + fgWait ≤ t))) then d
        else
          let ch := fgChangeOf d n h
          let d := d.modTrib n fun y => { y with fg := { y.fg with
            ms := y.fg.txBank, cr := false, caOk := false, change := none, timeouts := y.fg.timeouts + 1
            txMaps := lset y.fg.txMaps (b2n !y.fg.txBank) [] } }
          match ch with
          | none => d
          | some c =>
            let d := match fgTarget d c with
              | some (_, k, _, _) => d.modTrib k fun y => { y with rate := fgKbps (fld y.pos 16 8) }
              | none => d
            abortChange c rcTimeout t d)

end Sys2Proof.Machine
end

