-- ==== Sys2Proof/Machine/Protect.lean ====
section
/-!
DEFINITION. Protection groups: inputs, requests and their evaluation, selector and bridge, APS, and the group commands
(11 R256-R270, R281, R282).
-/
namespace Sys2Proof.Machine

/-- Phase units of `n` DFE frames. -/
def frames (n : Nat) : Nat := n * frame

/-! ### Members -/

/-- Member 0 is P, member i a working one. -/
def Pg.mem (g : Pg) (i : Nat) : Option PgMem := if i = 0 then some g.p else g.ws[i - 1]?
def Pg.setMem (g : Pg) (i : Nat) (m : PgMem) : Pg := if i = 0 then { g with p := m } else { g with ws := lset g.ws (i - 1) m }

/-- The member number of an object in a group. -/
def Pg.memOf (g : Pg) (o : Obj) : Option Nat :=
  if g.p.o = o then some 0 else (g.ws.findIdx? (·.o == o)).map (· + 1)

/-- SF of a member at the group's point (11 R259; log entry 27): SNC/I takes aSSF, the others aTSF or aSSF. -/
def memSf (g : Pg) (m : PgMem) : Bool := if g.point = 1 then m.ssf else m.tsf || m.ssf

/-- SD of a member: none at SNC/I. -/
def memSd (g : Pg) (m : PgMem) : Bool := g.point != 1 && m.tsd

/-- The layer of a member's monitoring point. -/
def memLayer (g : Pg) (o : Obj) : Nat :=
  match o with
  | .port p => lineKey p
  | .trib n => if g.tcm = 0 then pathKey n else tcmKey g.tcm n
  | _ => 0

/-- New inputs of a member (11 R266): clears act at once; a raise without hold-off too; with hold-off it starts the
timer, which a clear of both cancels. -/
def Pg.input (g : Pg) (tsf ssf tsd : Bool) (t : Time) (m : PgMem) : PgMem :=
  let n := { m with tsf := tsf, ssf := ssf, tsd := tsd, chg := t }
  let sf := memSf g n
  let sd := memSd g n
  let rise := (sf && !memSf g m) || (sd && !memSd g m)
  if g.holdOff = 0 then { n with rsf := sf, rsd := sd, hold := none }
  else { n with
    rsf := m.rsf && sf, rsd := m.rsd && sd
    hold := if !sf && !sd then none else if rise && m.hold.isNone then some (t + frames (800 * g.holdOff)) else m.hold }

/-! ### APS (11 R263, R269; log entry 28) -/

/-- The request code of K1, of the ODU and MTN APS octet, and of K3 and K4. -/
def reqCode (high : Bool) : Req → Nat
  | .lo => 0xF | .fs => 0xE | .sfp => 0xC | .sf => if high then 0xD else 0xC | .sd => if high then 0xB else 0xA
  | .ms => 8 | .msw => 8 | .wtr => 6 | .exer => 4 | .rr => 2 | .dnr => 1 | .nr => 0

/-- A request code as received for a member: none where the standard defines none. -/
def codeReq (k1 : Bool) (code mem : Nat) : Option (Req × Bool) :=
  match code with
  | 0xF => some (.lo, false)
  | 0xE => some (.fs, false)
  | 0xD => if k1 then some (if mem = 0 then .sfp else .sf, true) else none
  | 0xC => some (if mem = 0 then .sfp else .sf, false)
  | 0xB => if k1 then some (.sd, true) else none
  | 0xA => some (.sd, false)
  | 8 => some (if mem = 0 then .msw else .ms, false)
  | 6 => some (.wtr, false)
  | 4 => some (.exer, false)
  | 2 => some (.rr, false)
  | 1 => some (.dnr, false)
  | 0 => some (.nr, false)
  | _ => none

/-- The architecture bits a group sends and expects: K2 [3] of an MS group, A, B, D and R otherwise. -/
def Pg.arch (g : Pg) : Nat :=
  if g.point = 0 then b2n (g.typ != 0)
  else 8 * b2n g.apsEn + 4 * b2n (g.typ != 0) + 2 * b2n g.bidir + b2n g.revertive

/-- Is the group's APS channel the 4 bits of K3 or K4? -/
def apsVc (d : Dev) (g : Pg) : Bool :=
  match g.p.o with | .trib n => (match d.trib n with | some y => isVc y.typ | none => false) | _ => false

/-- An accepted APS value as the far end's request, and whether its code is undefined. A member that the group lacks
makes it NR. -/
def farOf (d : Dev) (g : Pg) (w : Word) : FarAps × Bool :=
  let k1 := g.point == 0
  let vc := apsVc d g
  let code := if k1 then fld w 15 12 else if vc then fld w 3 0 else fld w 31 28
  let live := vc && !(code == 0 || code == 0xF)
  let m := if k1 then fld w 11 8 else if vc then b2n live else fld w 23 16
  let b := if k1 then fld w 7 4 else if vc then b2n live else fld w 15 8
  let arch := if k1 then some (fld w 3 3) else if vc then none else some (fld w 27 24)
  match codeReq k1 code m with
  | some (r, h) => if g.ws.length < m then ({ bridged := b, arch := arch }, false) else (⟨r, h, m, b, arch⟩, false)
  | none => ({ bridged := b, arch := arch }, true)

/-- The APS value a group sends, or 0 where it sends none. -/
def apsWord (d : Dev) (g : Pg) : Word :=
  if !g.apsEn then 0
  else
    let high := g.typ == 2 && (match g.mem g.txMem with | some m => m.high | none => false)
    let code := reqCode (high && g.point == 0) g.txReq
    if g.point = 0 then wd (code * 2 ^ 12 + g.txMem * 2 ^ 8 + g.bridge * 2 ^ 4 + g.arch * 2 ^ 3 + 4 + b2n g.bidir)
    else if apsVc d g then wd code
    else wd (code * 2 ^ 28 + g.arch * 2 ^ 24 + g.txMem * 2 ^ 16 + g.bridge * 2 ^ 8)

/-! ### Protocol defects (11 R269) -/

/-- Raises or clears a protocol defect, 1 PM, 2 NR, 3 INV, with its event. -/
def setFop (g k : Nat) (on : Bool) (t : Time) (d : Dev) : Dev :=
  match d.pg g with
  | none => d
  | some x =>
    let cur := if k = 1 then x.fopPm else if k = 2 then x.fopNr else x.fopInv
    if cur = on then d
    else
      let x := { x with times := tput x.times 5 t }
      let d := d.modPg g fun _ =>
        if k = 1 then { x with fopPm := on } else if k = 2 then { x with fopNr := on } else { x with fopInv := on }
      pgEvent g 0x03 (k + 0x100 * b2n on) t d

/-- Does the group send a request that names what the far end has to bridge? -/
def Pg.asks (g : Pg) : Bool := match g.txReq with | .nr | .rr => false | _ => true

/-- Takes up PM from the accepted bits, and clears NR where the bridged member equals the request, or nothing is
requested. -/
def fopUpdate (g : Nat) (t : Time) (d : Dev) : Dev :=
  match d.pg g with
  | none => d
  | some x =>
    let d := setFop g 1 (match x.far.arch with | some a => a != x.arch | none => false) t d
    if x.fopNr && (!x.asks || x.far.bridged == x.txMem) then setFop g 2 false t d else d

/-- Does a group act on local requests alone? -/
def Pg.alone (g : Pg) : Bool := !g.bidir || g.fopPm || g.fopNr

/-! ### Evaluation (11 R263-R267) -/

/-- A request present: rank, sig_pri rank, member, 1 for the far end, the request. -/
structure Cand where
  prio : Nat
  pri : Nat
  mem : Nat
  far : Nat
  req : Req
deriving DecidableEq, Repr

/-- The first candidate in the order of R265. -/
def Cand.le (a b : Cand) : Bool :=
  decide (a.prio < b.prio) || (a.prio == b.prio && (decide (a.pri < b.pri) || (a.pri == b.pri &&
    (decide (a.mem < b.mem) || (a.mem == b.mem && decide (a.far ≤ b.far))))))

def bestCand (c : Cand) (cs : List Cand) : Cand := cs.foldl (fun a b => if Cand.le a b then a else b) c

/-- A member whose context has no owner after a fence has SF (11 R281; 01 R33). -/
def fencedMem (d : Dev) (m : PgMem) : Bool :=
  match m.o with | .trib n => (match d.trib n with | some y => y.unit == 0xFF | none => false) | _ => false

/-- SF, and SD where it is used, of a member as a request. -/
def hasSf (d : Dev) (m : PgMem) : Bool := m.rsf || fencedMem d m
def hasSd (g : Pg) (m : PgMem) : Bool := g.sdEn && m.rsd

/-- The requests present, but WTR and DNR. -/
def candidates (d : Dev) (g : Pg) : List Cand :=
  let cmd := match g.cmd with | some (r, m) => [⟨reqPrio r, 1, m, 0, r⟩] | none => []
  let p := if hasSf d g.p then [⟨2, 1, 0, 0, .sfp⟩] else []
  let ws := (List.range g.ws.length).flatMap fun i =>
    match g.ws[i]? with
    | some m =>
      let k := if g.typ = 2 ∧ m.high then 0 else 1
      if hasSf d m then [(⟨4, k, i + 1, 0, .sf⟩ : Cand)] else if hasSd g m then [⟨5, k, i + 1, 0, .sd⟩] else []
    | none => []
  let far := match g.far.req with
    | .nr | .rr => []
    | r => if g.alone then [] else [(⟨reqPrio r, if g.typ = 2 ∧ g.far.high then 0 else 1, g.far.mem, 1, r⟩ : Cand)]
  cmd ++ p ++ ws ++ far

def noRequest : Cand := ⟨11, 1, 0, 0, .nr⟩

/-- WTR and DNR (11 R267): ended by a higher request, started where the SF or SD that selected P has cleared. -/
def Pg.wait (d : Dev) (g : Pg) (best : Cand) (t : Time) : Pg :=
  let g := if best.prio < 7 then { g with wtrEnd := none, dnr := false } else g
  let gone := match g.mem g.sel with | some m => !hasSf d m && !hasSd g m | none => true
  if g.wtrEnd.isNone && !g.dnr && g.sel != 0 && g.why && gone && decide (7 < best.prio) then
    if g.revertive then { g with wtrEnd := some (t + frames (480000 * g.wtr)), why := false, times := tput g.times 3 t }
    else { g with dnr := true, why := false }
  else g

/-- The decision for a best request: the working member that P stands for, and the one P carries. -/
def Pg.choose (g : Pg) (b : Cand) : Nat × Nat :=
  match b.req with
  | .lo | .sfp | .msw => (0, 0)
  | .fs | .sf => (b.mem, b.mem)
  | .sd | .ms =>
    let m := if hasSd g g.p && g.sel != b.mem then 0 else b.mem
    (m, m)
  | .nr => if g.typ = 0 ∧ !g.revertive then (g.sel, g.sel) else (0, 0)
  | _ => (g.sel, g.bridge)

/-- A local request of a bidirectional group moves the selector once the far end's reply bridges the member
(11 R268's worked example; log entry 27). -/
def Pg.held (g : Pg) (b : Cand) (s : Nat) : Bool :=
  b.far == 0 && decide (b.prio < 7) && s != 0 && s != g.sel && !g.alone && g.far.bridged != s

/-- What a group sends for its best request (11 R263, R269). -/
def Pg.sends (b : Cand) : Req × Nat := if b.far = 1 then (.rr, b.mem) else if b.req = .nr then (.nr, 0) else (b.req, b.mem)

/-! ### Errorless switches (11 R275-R278) -/

/-- Bits in a frame of a member type (11 R271). -/
def memFrameBits (typ kbps : Nat) : Nat :=
  if isOdu typ then oduFrameBits else if decide (0x13 ≤ typ) then kbps / 2 else kbps / 8

/-- F in phase units, rounded down. -/
def memFrame (d : Dev) (g : Pg) : Nat :=
  match g.p.o with
  | .trib n => (match d.trib n with
    | some y => if y.rate = 0 then frame else memFrameBits y.typ y.rate * 262144 / y.rate
    | none => frame)
  | _ => frame

/-- The member whose copies arrive later: P where d is above 0. -/
def Errl.later (x : Errl) : List SigRec := if 0 < x.d then x.pSigs else x.wSigs

/-- A frame number of P or W in W's numbering. -/
def Errl.wNum (x : Errl) (prot : Bool) (n : Nat) : Int := if prot then (n : Int) - x.offset else n

/-- The newest frame, in W's numbering, that has begun at the output: frame n begins 2F after the later member's copy
of n begins to arrive (11 R277). -/
def outNum (d : Dev) (g : Pg) (t : Time) : Int :=
  let x := g.errl
  let f : Int := memFrame d g
  match x.later.getLast? with
  | some r => x.wNum (decide (0 < x.d)) r.num + ((t : Int) - r.at_ - 2 * f) / f
  | none => 0

/-- n_sw for a decision (11 R278). -/
def switchFrame (d : Dev) (g : Pg) (b : Cand) (t : Time) : Int :=
  let x := g.errl
  let prot := g.selNow != 0
  let sigs : List SigRec := if prot then x.pSigs else x.wSigs
  let m : Option PgMem := g.mem g.selNow
  let fails : Bool := match m with | some m => (b.req == .sf || b.req == .sd || b.req == .sfp) && b.far == 0 && (hasSf d m || hasSd g m) | none => false
  if fails then
    let from_ := (match m with | some m => m.chg | none => t) - g.preWin * 262144 / 1000
    match sigs.find? fun r => decide (from_ ≤ r.at_) with
    | some r => x.wNum prot r.num
    | none => (match sigs.getLast? with | some r => x.wNum prot r.num + 1 | none => outNum d g t + 1)
  else outNum d g t + 2

/-- Is a switch of the group errorless now? -/
def Pg.errorless (g : Pg) : Bool := g.errl.on && (g.errl.st == .aligned || g.errl.st == .hold)

/-- A new decision of an errorless group sets the switch frame; one that the output has passed is late. -/
def armSwitch (g : Nat) (b : Cand) (t : Time) (d : Dev) : Dev :=
  match d.pg g with
  | none => d
  | some x =>
    if !x.errorless then d
    else if x.sel = x.selNow then modErrl g (fun e => { e with nsw := none, late := false }) d
    else
      let n := switchFrame d x b t
      let o := outNum d x t
      if n ≤ o then
        pgEvent g 0x04 0 t (d.modPg g fun y => { y with
          cnt := tput y.cnt 2 (tgetD y.cnt 2 0 + 1), errl := { y.errl with nsw := some (o + 1), late := true } })
      else modErrl g (fun e => { e with nsw := some n, late := false }) d

/-- Evaluates a group (11 R257). -/
def evalPg (g : Nat) (t : Time) (d : Dev) : Dev :=
  let d := fopUpdate g t d
  match d.pg g with
  | none => d
  | some x0 =>
    let cs := candidates d x0
    let best := bestCand noRequest cs
    let x := x0.wait d best t
    let cs := cs ++ (if x.wtrEnd.isSome then [⟨7, 1, x.sel, 0, .wtr⟩] else []) ++ (if x.dnr then [⟨10, 1, x.sel, 0, .dnr⟩] else [])
    let b := bestCand noRequest cs
    let (s0, br) := x.choose b
    let s := if x.held b s0 then x.sel else s0
    let (tr, tm) := Pg.sends b
    let why := if s = 0 then false
      else if (b.req == .sf || b.req == .sd) && b.far == 0 && s == b.mem then true
      else if b.prio < 7 then false else x.why
    let moved := s != x.sel
    let newReq := b.req != x.act || b.mem != x.actMem || (b.far == 0) != x.actLocal
    let sent := tr != x.txReq || tm != x.txMem
    let d := d.modPg g fun _ => { x with
      act := b.req, actMem := b.mem, actLocal := b.far == 0, sel := s, bridge := br, why := why
      txReq := tr, txMem := tm, reqTime := if sent then t else x.reqTime
      times := if newReq then tput x.times 1 t else x.times }
    let d := if newReq then pgEvent g 0x02 (if b.far = 0 then 0 else 1) t d else d
    if moved then armSwitch g b t d else d

/-! ### Commands (11 R260-R264, R282; 16 R395) -/

/-- The request of a PG_COMMAND code. -/
def cmdReq : Nat → Option Req
  | 1 => some .lo | 2 => some .fs | 3 => some .ms | 4 => some .msw | 5 => some .exer | _ => none

def ownsGroup (x : Ctx) (d : Dev) : Bool := match d.pg (fld (x.w 4) 11 0) with | some g => g.owner == x.m | none => false
def groupExists (x : Ctx) (d : Dev) : Option Err := need (d.pg (fld (x.w 4) 11 0)).isSome (badArg 4 0)

def cmdPgCommand : Cmd := {
  code := 0x0504, n := 8, kind := .config, vf := true
  mask := [(4, bitsMask 11 0), (5, bitsMask 31 28 + bitsMask 3 0)]
  enc := fun ws => if fld (ws.getD 5 0) 31 28 ≤ 5 then [] else [(5, 31, 28)]
  perm := ownsGroup
  chk := fun x d =>
    match d.pg (fld (x.w 4) 11 0) with
    | none => some (badArg 4 0)
    | some g =>
      let c := fld (x.w 5) 31 28
      let m := fld (x.w 5) 3 0
      firstErr [
        need (if c = 2 ∨ c = 3 then decide (1 ≤ m) && decide (m ≤ g.ws.length) else m == 0) (badArg 5 0),
        match cmdReq c with
          | some r => need (decide (reqPrio r < reqPrio g.act)) ⟨rcNotPermitted, 0⟩
          | none => none]
  obj := fun x _ => .group (fld (x.w 4) 11 0)
  parts := fun _ _ => [.own]
  apply := fun c _ _ d =>
    d.modPg (fld (c.w 4) 11 0) fun g =>
      match cmdReq (fld (c.w 5) 31 28) with
      | some r => { g with cmd := some (r, fld (c.w 5) 3 0) }
      | none => { g with cmd := none, wtrEnd := none } }

/-- Accepted commands of the groups whose trigger has come take effect at the evaluation (11 R264). -/
def takeCommands (p : Nat → Bool) (t : Time) (d : Dev) : Dev :=
  (d.fab.fw.changes.filter fun c => c.code == 0x0504#16 && decide (c.trig ≤ t) && p (fld (c.w 4) 11 0)).foldl
    (fun d c => applyPart cmdPgCommand c .own t d) d

/-- PG_EVALUATION: the scan of every group, in a DFE frame. -/
def execPgEvaluation (s : State) : Out :=
  s.run (gRun fun t d => d.fab.pgs.foldl (fun d e => evalPg e.1 t d) (takeCommands (fun _ => true) t d))

/-- PG_FAST_EVALUATION: an errorless group is evaluated without waiting for the scan. -/
def execPgFastEvaluation (g : Nat) (s : State) : Out :=
  s.run (gRun fun t d =>
    match d.pg g with
    | some x => if x.errl.on then evalPg g t d else d
    | none => d)

/-- The members that W6 and the working words of the messages name: word index and word. -/
def pgWords (msgs : List (List Word)) : List (Nat × Word) :=
  msgs.flatMap fun ws => (List.range 8).filterMap fun i =>
    if bitAt (ws.getD (7 + i) 0) 29 then some (7 + i, ws.getD (7 + i) 0) else none

/-- The object of a member word. -/
def memObj (w : Word) : Obj := if bitAt w 31 then .port (portOfWord (fld w 11 0)) else .trib (fld w 16 0)

/-- The type and rate of a member of the kind that a point allows (11 R259). -/
def memKind (d : Dev) (point tcm : Nat) (w : Word) : Option (Nat × Nat) :=
  match memObj w with
  | .port p => match d.port p with
    | some x => if point = 0 ∧ isSdh x.typ then some (x.typ, 0) else none
    | none => none
  | .trib n => match d.trib n with
    | some y =>
      let odu := isOdu y.typ && y.typ != 0x0A
      if (odu && (point == 1 || point == 2 || point == 3)) || (isVc y.typ && tcm == 0 && (point == 1 || point == 2))
          || (y.typ == 0x2B && !isCarrier y && point == 4)
      then some (y.typ, y.rate) else none
    | none => none
  | _ => none

/-- Does a member's TCM sink match the point: MONITOR for SNC/N, TERMINATE for SNC/S? -/
def tcmMatches (d : Dev) (point tcm : Nat) (w : Word) : Bool :=
  if tcm = 0 then true
  else match memObj w with
    | .trib n => (match d.trib n with | some y => (tgetD y.tcm tcm {}).sink == (if point = 3 then 2 else 1) | none => false)
    | _ => false

/-- The parameters of W5 in a group; APS is forced where R258 requires it. -/
def Pg.withParams (g : Pg) (w : Word) : Pg :=
  { g with
    bidir := bitAt w 31, revertive := bitAt w 30, apsEn := bitAt w 29 || bitAt w 31 || g.typ != 0, sdEn := bitAt w 28
    holdOff := fld w 27 21, wtr := fld w 20 17, preWin := fld w 16 10, maxDelay := fld w 6 0 }

/-- The ranges of W5 (11 R261). -/
def paramErr (typ : Nat) (errl : Bool) (w : Word) : Option Err := firstErr [
  need (typ == 0 || bitAt w 31) (badArg 5 31),
  need (decide (fld w 27 21 ≤ 100)) (badArg 5 21),
  need (decide (1 ≤ fld w 20 17) && decide (fld w 20 17 ≤ 12)) (badArg 5 17),
  need (!errl || decide (fld w 16 10 ≤ 100)) (badArg 5 10),
  need (!errl || (decide (1 ≤ fld w 6 0) && decide (fld w 6 0 ≤ 120))) (badArg 5 0)]

/-- HBM units of an errorless group: its alignment buffer and its history (11 R272). -/
def errlUnits (typ kbps delay : Nat) : Nat :=
  let fb := memFrameBits typ kbps
  let b := ((kbps * delay + 20 * fb) * 33 + 10 * 256 * 4096 - 1) / (10 * 256 * 4096)
  let h := 8 * ((2 * delay * kbps + 10 * fb - 1) / (10 * fb) + 16)
  b + (h + 4095) / 4096

/-- Guard words: 2 frames (11 R272). -/
def errlGuard (typ kbps : Nat) : Nat := 2 * ((memFrameBits typ kbps + 31) / 32)

/-- Granules of the alignment region in an HBM channel: 3.6 GiB in 4,096-octet units, none in a fenced one (01 R27, R29). -/
def channelUnits (d : Dev) (c : Nat) : Nat := if hbmLive d c then (943718 + 15 - c) / 16 else 0
def regionUnits (d : Dev) : Nat := sumBy (channelUnits d) (List.range 16)

/-- Free units of the alignment region in each channel. -/
def freeUnits (d : Dev) : List Nat :=
  (List.range 16).map fun c => channelUnits d c - sumBy (fun e => e.2.errl.chans.getD c 0) d.fab.pgs

/-- Units taken from some channels as evenly as their free units allow, in rounds (DESIGN CHOICE, log entry 83: R29 gives the
channel of a unit, no rule which free units firmware takes). -/
def spread : Nat → Nat → List Nat → List Nat
  | 0, _, fs => fs.map fun _ => 0
  | k + 1, n, fs =>
    let share := max 1 (n / max 1 (fs.filter (0 < ·)).length)
    let (took, left) := fs.foldl (fun (a : List Nat × Nat) f => let u := min (min share f) a.2; (a.1 ++ [u], a.2 - u)) ([], n)
    if left = 0 then took else List.zipWith (· + ·) took (spread k left (List.zipWith (· - ·) fs took))

/-- A group's units by channel, as many as `n`: more from the free ones, or fewer of its own. -/
def fitUnits (d : Dev) (own : List Nat) (n : Nat) : List Nat :=
  let own := (List.range 16).map fun c => own.getD c 0
  let have_ := own.foldl (· + ·) 0
  if have_ ≤ n then List.zipWith (· + ·) own (spread 40 (n - have_) (freeUnits d))
  else List.zipWith (· - ·) own (spread 40 (have_ - n) own)

/-- The type and rate of an errorless group's members. -/
def pgRate (d : Dev) (o : Obj) : Nat × Nat :=
  match o with | .trib n => (match d.trib n with | some y => (y.typ, y.rate) | none => (0, 0)) | _ => (0, 0)

/-- Accepted creations of groups. -/
def pgPending (d : Dev) : List Change := d.fab.fw.changes.filter fun c => c.code == 0x0501#16

/-- Units and member rates that errorless groups hold. -/
def unitsUsed (d : Dev) : Nat := sumBy (fun e => e.2.errl.units) d.fab.pgs
def rateUsed (d : Dev) : Nat := sumBy (fun e => if e.2.errl.on then (pgRate d e.2.p.o).2 else 0) d.fab.pgs

/-- Units that groups hold, with those of accepted errorless creations and of accepted increases of their max_diff_delay. -/
def unitsHeld (d : Dev) : Nat :=
  unitsUsed d
    + sumBy (fun c => if c.code = 0x0502#16 then (match d.pg (fld (c.w 4) 11 0) with
        | some g => if g.errl.on then
            (let r := pgRate d g.p.o; errlUnits r.1 r.2 (fld (c.w 5) 6 0) - g.errl.units) else 0
        | none => 0) else 0) d.fab.fw.changes
    + sumBy (fun c => if bitAt (c.w 4) 27 then
        (let r := pgRate d (memObj (c.w 6)); errlUnits r.1 r.2 (fld (c.w 5) 6 0)) else 0) (pgPending d)

/-- The group, or accepted creation, that holds an object. -/
def groupHolding (d : Dev) (o : Obj) : Option Nat :=
  match groupOf d o with
  | some g => some g
  | none => ((pgPending d).find? fun c =>
      memObj (c.w 6) == o || (pgWords c.msgs).any fun e => memObj e.2 == o).map fun c => fld (c.w 4) 11 0

/-- Has a protection member connections or children? -/
def protBusy (d : Dev) (o : Obj) : Bool :=
  match o with
  | .port p => !(tribsOfPort d p).isEmpty
  | .trib n => isConnected d n || isTerminated d n
  | _ => false

/-- The working member's owner slice: the selector slice (11 R272). -/
def selectorUnit (d : Dev) (o : Obj) : Nat :=
  match o with | .trib n => (match d.trib n with | some y => y.unit | none => 0xFF) | _ => 0xFF

def pgCreateErr (x : Ctx) (d : Dev) : Option Err :=
  let w4 := x.w 4
  let typ := fld w4 30 28
  let errl := bitAt w4 27
  let point := fld w4 26 24
  let tcm := fld w4 23 21
  let n := fld w4 11 0
  let all := (6, x.w 6) :: pgWords x.msgs
  let kind0 := memKind d point tcm (x.w 6)
  let kinds := all.find? fun e => (memKind d point tcm e.2).isNone || memKind d point tcm e.2 != kind0
  let objs := all.map fun e => memObj e.2
  let rep := x.msgs.find? fun ws => ws.getD 5 0 != x.w 5 || ws.getD 6 0 != x.w 6
  let (ty, kbps) := kind0.getD (0, 0)
  let w1 := objs.getD 1 .dev
  firstErr [
    match rep with | some ws => some (badArg (if ws.getD 5 0 != x.w 5 then 5 else 6) 0) | none => none,
    need (!errl || (typ == 0 && (isOdu ty || isVc ty))) (badArg 4 27),
    need (if point = 3 then tcm != 0 else point == 2 || tcm == 0) (badArg 4 21),
    paramErr typ errl (x.w 5),
    need (bitAt (x.w 6) 29) (badArg 6 29),
    need (if typ = 2 then decide (3 ≤ all.length) && decide (all.length ≤ 15) else all.length == 2) (badArg 7 29),
    kinds.map fun e => badArg e.1 0,
    need (objs.eraseDups.length == objs.length) (badArg 7 0),
    need (all.all fun e => tcmMatches d point tcm e.2) (badArg 4 21),
    need ((d.pg n).isNone && (pgPending d).all fun c => fld (c.w 4) 11 0 != n) ⟨rcConflict, n⟩,
    (objs.findSome? (groupHolding d)).map fun g => ⟨rcConflict, g⟩,
    need (!protBusy d (memObj (x.w 6))) ⟨rcConflict, n⟩,
    need (decide (sumBy (fun e => e.2.ws.length + 1) d.fab.pgs + sumBy (fun c => (pgWords c.msgs).length + 1) (pgPending d)
      + objs.length ≤ 16384)) (noResource 1),
    need (!errl || decide (unitsUsed d + errlUnits ty kbps (fld (x.w 5) 6 0) ≤ regionUnits d)) (noResource 3),
    need (!errl || decide (rateUsed d + kbps ≤ 2400000000)) (noResource 4),
    need (!errl || decide (32 ≤ selectorUnit d w1) || fitsWords d (selectorUnit d w1) (errlGuard ty kbps)) (noResource 5)]

/-- A group as it starts, with the present state of its members. -/
def newPg (d : Dev) (msgs : List (List Word)) (m : Nat) (t : Time) : Pg :=
  let ws := msgs.getLastD []
  let w4 := ws.getD 4 0
  let o := memObj (ws.getD 6 0)
  let r := pgRate d o
  let on := bitAt w4 27
  let g : Pg := { typ := fld w4 30 28, point := fld w4 26 24, tcm := fld w4 23 21, owner := m
                  times := (List.range 5).map fun i => (i + 1, t) }
  let g := g.withParams (ws.getD 5 0)
  let mem := fun (w : Word) =>
    let o := memObj w
    let l := d.layer (memLayer g o)
    let y : PgMem := { o := o, high := bitAt w 30 }
    g.input l.tsf l.ssf l.tsd t y
  let u := errlUnits r.1 r.2 g.maxDelay
  { g with
    p := mem (ws.getD 6 0), ws := (pgWords msgs).map fun e => mem e.2
    errl := if on then { on := true, need := u, chans := fitUnits d [] u, guard := errlGuard r.1 r.2, lag := 0 } else {} }

/-- Time since which both members of an errorless group are free of aSSF and aTSF. -/
def Pg.free (g : Pg) : Bool := !(g.p.tsf || g.p.ssf) && g.ws.all fun m => !(m.tsf || m.ssf)

def cmdPgCreate : Cmd := {
  code := 0x0501, n := 16, kind := .config, vf := true
  mask := (4, bitsMask 31 21 + bitsMask 11 0) :: (5, bitsMask 31 10 + bitsMask 6 0)
    :: (List.range 9).map fun i => (6 + i, bitsMask 31 29 + bitsMask 16 0)
  enc := fun ws =>
    let w := ws.getD 4 0
    (if fld w 30 28 ≤ 2 then [] else [(4, 30, 28)]) ++ (if fld w 26 24 ≤ 4 then [] else [(4, 26, 24)])
      ++ (if fld w 23 21 ≤ 6 then [] else [(4, 23, 21)])
      ++ ((List.range 9).flatMap fun i => if bitAt (ws.getD (6 + i) 0) 31 then portWordEnc (6 + i) (ws.getD (6 + i) 0) else [])
  perm := fun x d => (x.w 6 :: (pgWords x.msgs).map (·.2)).all fun w => match memObj w with
    | .port p => (match d.port p with | some y => y.owner == x.m | none => false)
    | .trib n => (match d.trib n with | some y => y.owner == x.m | none => false)
    | _ => false
  chk := pgCreateErr
  frag := some fun ws =>
    let cont := bitAt (ws.getD 4 0) 31
    let used := ((List.range 8).filter fun i => bitAt (ws.getD (7 + i) 0) 29).length
    ⟨!cont, cont || decide (used < 8), b2n cont, 1, [wd (fld (ws.getD 4 0) 30 0)], 4, 31⟩
  obj := fun x _ => .group (fld (x.w 4) 11 0)
  place := fun x d =>
    match memObj (((pgWords x.msgs).headD (0, 0)).2) with
    | .trib n => if bitAt (x.w 4) 27 then
        (let r := pgRate d (.trib n); some ⟨n, false, selectorUnit d (.trib n), 0, errlGuard r.1 r.2⟩) else none
    | _ => none
  key := fun ws => some (ws.getD 4 0, 0)
  apply := fun c _ t d =>
    let n := fld (c.w 4) 11 0
    let g := newPg d c.msgs c.sender t
    let g := { g with errl := { g.errl with freeSince := if g.free then some t else none, lag := 2 * memFrame d g } }
    let d := d.onFab fun f => { f with
      pgs := tput f.pgs n g, feeds := f.feeds.filter fun e => !(g.ws.any (·.o == e.1)) && e.2 != g.p.o }
    let d := match g.p.o with | .trib k => refreshTx k d | _ => d
    refresh t d }

def cmdPgModify : Cmd := {
  code := 0x0502, n := 8, kind := .config, vf := true
  mask := [(4, bitsMask 11 0), (5, bitsMask 31 10 + bitsMask 6 0)]
  perm := ownsGroup
  chk := fun x d =>
    match d.pg (fld (x.w 4) 11 0) with
    | none => some (badArg 4 0)
    | some g =>
      let r := pgRate d g.p.o
      firstErr [
        paramErr g.typ g.errl.on (x.w 5),
        need (!g.errl.on || decide (unitsUsed d + (errlUnits r.1 r.2 (fld (x.w 5) 6 0) - g.errl.units) ≤ regionUnits d)) (noResource 3)]
  obj := fun x _ => .group (fld (x.w 4) 11 0)
  key := fun ws => some (ws.getD 4 0, 0)
  apply := fun c _ t d =>
    let n := fld (c.w 4) 11 0
    match d.pg n with
    | none => d
    | some g =>
      let r := pgRate d g.p.o
      let h := g.withParams (c.w 5)
      let u := errlUnits r.1 r.2 h.maxDelay
      let whole := g.errl.units == g.errl.need
      let tooLate := g.errl.on && g.errl.st == .aligned && decide (h.maxDelay * 131072 < 5 * g.errl.d.natAbs)
      let d := d.modPg n fun _ => if !h.errl.on then h else { h with errl := { h.errl with
        need := u, chans := fitUnits d h.errl.chans (if whole then u else min h.errl.units u)
        st := if tooLate then .search else h.errl.st, nsw := if tooLate then none else h.errl.nsw, noMatch := if tooLate then t else h.errl.noMatch } }
      if tooLate then pgEvent n 0x04 (2 ^ 28 + g.errl.d.natAbs) t d else d }

/-- PG_DELETE (11 R282): the feeds of the working members stay; P carries the indication of R190. -/
def cmdPgDelete : Cmd := {
  code := 0x0503, n := 8, kind := .config, vf := true, mask := [(4, bitsMask 11 0)]
  perm := ownsGroup, chk := groupExists
  obj := fun x _ => .group (fld (x.w 4) 11 0)
  drop := fun ws e => e.code.toNat / 256 == 5 && fld e.obj 11 0 == fld (ws.getD 4 0) 11 0
  apply := fun c _ _ d =>
    let n := fld (c.w 4) 11 0
    match d.pg n with
    | none => d
    | some g =>
      let d := d.onFab fun f => { f with pgs := tdel f.pgs n }
      match g.p.o with | .trib k => refreshTx k d | _ => d }

/-- PG_STATUS_GET (11 R270; log entry 23): each item with the time of its last change. -/
def cmdPgStatusGet : Cmd := {
  code := 0x0505, n := 8, kind := .query, vf := true, i2c := true, mask := [(4, bitsMask 11 0)]
  perm := ownsGroup, chk := groupExists
  run := fun x d =>
    match d.pg (fld (x.w 4) 11 0) with
    | none => { dev := d }
    | some g =>
      let at_ := fun (k : Nat) (ws : List Word) => item k 0 (ws ++ timeWords (tgetD g.times k 0))
      let hold := maskOf ((List.range (g.ws.length + 1)).filter fun i => match g.mem i with | some m => m.hold.isSome | none => false)
      let left := match g.wtrEnd with | some e => (e - x.t) / frame | none => 0
      let st := match g.errl.st with | .notAligned => 0 | .search => 1 | .confirm => 2 | .aligned => 3 | .hold => 4
      { dev := d
        items := at_ 1 [wd (reqPrio g.act * 2 ^ 28 + b2n (!g.actLocal) * 2 ^ 16 + g.actMem)]
          ++ at_ 2 [wd (g.selNow * 2 ^ 16 + g.bridgeNow)] ++ at_ 3 [wd left] ++ at_ 4 [wd hold]
          ++ at_ 5 [wd (b2n g.fopPm + 2 * b2n g.fopNr + 4 * b2n g.fopInv)]
          ++ (if g.errl.on then at_ 6 [wd st, wd g.errl.d.natAbs, wd g.errl.lag] else [])
          ++ (List.range 5).flatMap fun k => item (7 + k) 0 (cntWords (tgetD g.cnt k 0).toNat) } }

/-! ### Inputs and timers -/

/-- The APS value accepted in the group's channel on P (11 R259): K1 and K2 of a port (04 R96), the level of an ODU (05 R134),
K3 or K4 of a VC (04 R109), or the APS block of an MTN path (06 R155). -/
def apsAccepted (d : Dev) (g : Pg) : Option Word :=
  match g.p.o with
  | .port p => (d.port p).bind fun x => x.sdh.k.acc.map wd
  | .trib n => (d.trib n).bind fun x =>
    (tgetD x.aps (if isOdu x.typ then (if g.point = 2 then g.tcm else 7) else 0) {}).acc.map wd
  | _ => none

/-- DEFECT_FAST_PATH (10 R240): the engine receives the present aTSF, aSSF and aTSD of a member, and from the protection
member the accepted APS value. -/
def execDefectFastPath (o : Obj) (s : State) : Out :=
  s.run (gRun fun t d =>
    match groupOf d o with
    | none => d
    | some n =>
      match d.pg n with
      | none => d
      | some g =>
        match g.memOf o with
        | none => d
        | some i =>
          match g.mem i with
          | none => d
          | some m =>
            let l := d.layer (memLayer g o)
            let m2 := if m.tsf == l.tsf && m.ssf == l.ssf && m.tsd == l.tsd then m else g.input l.tsf l.ssf l.tsd t m
            let g2 := g.setMem i m2
            let g2 := { g2 with times := if m2.hold = m.hold then g2.times else tput g2.times 4 t }
            let e := g2.errl
            let g2 := { g2 with errl := { e with
              freeSince := if g2.free then (match e.freeSince with | some f => some f | none => some t) else none
              st := if e.st = .aligned ∧ !g2.free then .hold else e.st } }
            let d := d.modPg n fun _ => g2
            match apsAccepted d g with
            | none => d
            | some w =>
              if i ≠ 0 then d
              else
                let (f, bad) := farOf d g2 w
                fopUpdate n t (setFop n 3 bad t (d.modPg n fun y => { y with far := f })))

/-- HOLD_OFF_EXPIRY: the request is raised if the member then has SF or SD. -/
def execHoldOffExpiry (g i : Nat) (s : State) : Out :=
  s.run (gRun fun t d => d.modPg g fun x =>
    match x.mem i with
    | none => x
    | some m =>
      match m.hold with
      | none => x
      | some e =>
        if t < e then x
        else { x.setMem i { m with hold := none, rsf := memSf x m, rsd := memSd x m } with times := tput x.times 4 t })

/-- WTR_EXPIRY: the request falls to NR, at the next evaluation. -/
def execWtrExpiry (g : Nat) (s : State) : Out :=
  s.run (gRun fun t d => d.modPg g fun x =>
    match x.wtrEnd with
    | some e => if t < e then x else { x with wtrEnd := none, times := tput x.times 3 t }
    | none => x)

/-- PG_FOP_NR_TIMEOUT: 50 ms after a request was sent the far end bridges another member. -/
def execPgFopNrTimeout (g : Nat) (s : State) : Out :=
  s.run (gRun fun t d =>
    match d.pg g with
    | none => d
    | some x =>
      if x.bidir && x.asks && x.far.bridged != x.txMem && decide (x.reqTime + frames 400 ≤ t) then setFop g 2 true t d else d)

/-! ### Selector and bridge (11 R262) -/

/-- The tributaries that a working member feeds onward: itself, or those of a port. -/
def memberTribs (d : Dev) (o : Obj) : List Nat :=
  match o with | .trib n => [n] | .port p => tribsOfPort d p | _ => []

/-- P stands for a working member, or for none: the feeds follow. -/
def setFeeds (g : Pg) (n : Nat) (d : Dev) : Dev :=
  d.onFab fun f => { f with
    feeds := (f.feeds.filter fun e => !(g.ws.any (·.o == e.1)) && e.2 != g.p.o)
      ++ (match (if n = 0 then none else g.ws[n - 1]?) with | some m => [(m.o, g.p.o)] | none => []) }

/-- The working members whose received signal changes. -/
def movedMems (g : Pg) (old new : Nat) : List Obj :=
  ([old, new].filter (· != 0)).eraseDups.filterMap fun i => (g.mem i).map (·.o)

/-- Takes up the selector's position: a plain switch is a change of source for every destination. -/
def takeSelector (n : Nat) (plain : Bool) (t : Time) (d : Dev) : Dev :=
  match d.pg n with
  | none => d
  | some g =>
    let ws := movedMems g g.selNow g.sel
    let d := d.modPg n fun y => { y with selNow := y.sel, cnt := tput y.cnt 0 (tgetD y.cnt 0 0 + 1), times := tput y.times 2 t }
    let d := refresh t (setFeeds g g.sel d)
    let d := ([g.p.o] ++ g.ws.map (·.o)).foldl (fun d o => match o with | .port p => sdhWords p t d | _ => d) d
    let ds := (ws.flatMap (memberTribs d)).flatMap (fedBy d)
    ds.foldl (fun d k => if plain then sourceChanged k d else refreshTx k d) d

/-- SELECTOR_SWITCH: at the newly selected member's frame boundary, but for an errorless switch. -/
def execSelectorSwitch (n : Nat) (s : State) : Out :=
  s.run (gRun fun t d =>
    match d.pg n with
    | none => d
    | some g =>
      if g.sel = g.selNow ∨ (g.errorless ∧ g.errl.nsw.isSome) then d
      else
        let d := takeSelector n true t d
        let d := modErrl n (fun e => { e with nsw := none, late := false, lag := if e.on then 2 * memFrame d g else e.lag }) d
        pgEvent n 0x01 (reqPrio g.act) t d)

/-- BRIDGE_SWITCH: at P's transmit frame boundary. -/
def execBridgeSwitch (n : Nat) (s : State) : Out :=
  s.run (gRun fun t d =>
    match d.pg n with
    | none => d
    | some g =>
      if g.bridge = g.bridgeNow then d
      else
        let d := d.modPg n fun y => { y with bridgeNow := y.bridge, times := tput y.times 2 t }
        match g.p.o with | .trib k => refreshTx k d | _ => d)

/-- PG_STATE_PARITY (11 R281): timers and the far-end request are cleared; the members' inputs count at once. -/
def execPgStateParity (n : Nat) (s : State) : Out :=
  s.run (gRun fun t d =>
    match d.pg n with
    | none => d
    | some g =>
      let again := fun m : PgMem => { m with hold := none, rsf := memSf g m, rsd := memSd g m }
      fault 0x163 (wd n) t (d.modPg n fun y => { y with
        p := again y.p, ws := y.ws.map again, wtrEnd := none, far := {}, times := tput (tput y.times 3 t) 4 t }))

end Sys2Proof.Machine
end

