-- ==== Sys2Proof/Machine/Errorless.lean ====
section
/-!
DEFINITION. Errorless 1+1: frame signatures, the alignment state machine, build-out, the errorless switch and the
replacement of lost units (11 R271-R279).
-/
namespace Sys2Proof.Machine

/-- Is a delay in phase units within `k` times max_diff_delay, in steps of 100 µs (11 R261)? -/
def withinDelay (g : Pg) (k n : Nat) : Bool := decide (5 * n ≤ k * g.maxDelay * 131072)

/-- 2 × D in phase units, rounded up. -/
def doubleDelay (g : Pg) : Nat := (2 * g.maxDelay * 131072 + 4) / 5

/-- The record of the same frame in the other member's history, at an offset of frame numbers. -/
def recAt (sigs : List SigRec) (n : Int) : Option SigRec := sigs.find? fun r => (r.num : Int) == n

/-- The offsets, later's number less the earlier's, at which the 8 latest valid signatures of the later member match
records of the earlier one, with the delay of the newest, up to 2 × D (11 R276). -/
def matchesOf (g : Pg) (later earlier : List SigRec) : List (Int × Nat) :=
  let l8 := (later.filter (·.valid)).reverse.take 8
  match l8.head? with
  | none => []
  | some h =>
    if l8.length < 8 then []
    else earlier.filterMap fun r =>
      let o := (h.num : Int) - r.num
      let ok := l8.all fun x => match recAt earlier ((x.num : Int) - o) with
        | some y => y.valid && y.sig == x.sig && decide (y.at_ ≤ x.at_) && withinDelay g 2 (x.at_ - y.at_)
        | none => false
      if ok then some (o, h.at_ - r.at_) else none

/-- PG_ALIGN_LOST with a cause: 1 EXCESS_DELAY, 2 NO_MATCH, 3 MISMATCH, 4 BUFFER_LOST (log entry 26). -/
def alignLost (n cause delay : Nat) (t : Time) (d : Dev) : Dev := pgEvent n 0x04 (cause * 2 ^ 28 + delay) t d

/-- Is the earlier member selected? -/
def earlierSelected (g : Pg) : Bool :=
  if g.errl.d = 0 then false else (g.selNow != 0) == decide (g.errl.d < 0)

/-- The output's lag behind the selected member (11 R277). -/
def lagOf (d : Dev) (g : Pg) : Nat :=
  2 * memFrame d g + (if g.errorless && earlierSelected g then g.errl.d.natAbs else 0)

/-- A change of alignment asks for a build-out where the lag of the selected member changes. -/
def askBuildOut (n : Nat) (d : Dev) : Dev :=
  match d.pg n with
  | none => d
  | some g =>
    let l := lagOf d g
    modErrl n (fun e => { e with buildOut := if l = e.lag then none else some l }) d

/-- ALIGNED or HOLD is left for SEARCH. -/
def toSearch (n cause delay : Nat) (t : Time) (d : Dev) : Dev :=
  let d := modErrl n (fun e => { e with st := .search, nsw := none, run := 0, miss := 0, noMatch := t }) d
  askBuildOut n (alignLost n cause delay t d)

/-- Enters ALIGNED: PG_ALIGNED is raised, and the episode ends. -/
def toAligned (n : Nat) (t : Time) (d : Dev) : Dev :=
  match d.pg n with
  | none => d
  | some g =>
    let d := modErrl n (fun e => { e with st := .aligned, miss := 0, excessRaised := false, noMatchRaised := false }) d
    askBuildOut n (pgEvent n 0x04 g.errl.d.natAbs t d)

/-- SEARCH on a frame of a member taken as the later one. -/
def searchStep (n : Nat) (g : Pg) (prot : Bool) (t : Time) (d : Dev) : Dev :=
  let e := g.errl
  let found := if prot then matchesOf g e.pSigs e.wSigs else matchesOf g e.wSigs e.pSigs
  let signed := fun x : Int => if prot then x else -x
  match found with
  | [] =>
    if t < e.noMatch + doubleDelay g + 8 * memFrame d g || e.noMatchRaised then d
    else alignLost n 2 0 t (modErrl n (fun e => { e with noMatchRaised := true }) d)
  | [(o, k)] =>
    if withinDelay g 1 k then
      modErrl n (fun e => { e with st := .confirm, run := 0, offset := signed o, d := signed k, noMatch := t }) d
    else
      let d := modErrl n (fun e => { e with d := signed k, noMatch := t, excessRaised := true }) d
      if e.excessRaised then d else alignLost n 1 k t d
  | _ =>
    modErrl n (fun e => { e with noMatch := t }) (d.modPg n fun y => { y with cnt := tput y.cnt 4 (tgetD y.cnt 4 0 + 1) })

/-- A compared frame: a frame valid in both copies at the offset; whether it matches, and its delay P less W. -/
def compared (e : Errl) (prot : Bool) (r : SigRec) : Option (Bool × Int) :=
  if !r.valid then none
  else
    match (if prot then recAt e.wSigs ((r.num : Int) - e.offset) else recAt e.pSigs ((r.num : Int) + e.offset)) with
    | some y =>
      if !y.valid then none
      else some (y.sig == r.sig, if prot then (r.at_ : Int) - y.at_ else (y.at_ : Int) - r.at_)
    | none => none

/-- CONFIRM and ALIGNED on a compared frame. -/
def compareStep (n : Nat) (g : Pg) (ok : Bool) (k : Int) (t : Time) (d : Dev) : Dev :=
  let e := g.errl
  if e.st = .confirm then
    if !ok then modErrl n (fun e => { e with st := .search, run := 0, noMatch := t }) d
    else
      let d := modErrl n (fun e => { e with run := e.run + 1, d := k }) d
      if e.run + 1 = 8 then toAligned n t d else d
  else if e.st = .aligned then
    let d := modErrl n (fun e => { e with miss := if ok then 0 else e.miss + 1, d := k }) d
    if !ok && e.miss + 1 = 4 then toSearch n 3 k.natAbs t d
    else if !withinDelay g 1 k.natAbs then toSearch n 1 k.natAbs t d
    else d
  else d

/-! ### The buffer (11 R274, R277) -/

/-- The descriptor of a data line: poison_any, fs, fs_word and frame_lsb. -/
def lineDesc (poison fs : Bool) (word num : Nat) : BitVec 16 :=
  BitVec.ofNat 16 (b2n poison * 2 ^ 15 + b2n fs * 2 ^ 14 + word % 16 * 2 ^ 10 + num % 1024)

/-- A word joins the open line, of 16 payload words, or starts one; `first`: it holds the first octet of frame `num`. -/
def addWord (ls : List ErrlLine) (num : Nat) (first : Bool) (w : LaneWord) : List ErrlLine :=
  match ls.getLast? with
  | some l =>
    if l.words.length < 16 then
      let desc := l.desc ||| BitVec.ofNat 16 (b2n (lwPoison w) * 2 ^ 15)
        ||| (if first then BitVec.ofNat 16 (2 ^ 14 + l.words.length * 2 ^ 10) else 0)
      ls.dropLast ++ [{ l with words := l.words ++ [lwPayload w], desc := desc }]
    else ls ++ [⟨[lwPayload w], lineDesc (lwPoison w) first 0 num, num⟩]
  | none => [⟨[lwPayload w], lineDesc (lwPoison w) first 0 num, num⟩]

/-- A frame is stored; the oldest lines leave a buffer of `cap` lines. -/
def addFrame (cap num : Nat) (ws : List LaneWord) (ls : List ErrlLine) : List ErrlLine :=
  let ls := (ws.zipIdx.foldl (fun ls e => addWord ls num (e.2 == 0) e.1) ls)
  ls.drop (ls.length - cap)

/-- The frame that starts in a line: the one of its first word, or the one after it. -/
def ErrlLine.starts (l : ErrlLine) : Option Nat :=
  if l.desc.getLsbD 14 then some (if l.desc.extractLsb' 10 4 = 0#4 then l.num else l.num + 1) else none

/-- The words of a frame of `len` words as the selector reads them: tags by their places in the container frame, and every
word of a line poisoned that has poison_any or whose read is uncorrectable. -/
def readFrame (len num : Nat) (uncorr : List Nat) (ls : List ErrlLine) : List LaneWord :=
  match ls.findIdx? fun l => l.starts == some num with
  | none => []
  | some i =>
    let from_ := ls.drop i
    let skip := ((from_.headD ⟨[], 0, 0⟩).desc.extractLsb' 10 4).toNat
    let all := (from_.zipIdx).flatMap fun e => e.1.words.map fun w => (w, e.1.desc.getLsbD 15 || uncorr.contains (i + e.2))
    ((all.drop skip).take len).mapIdx fun k w => lw (if k = 0 then tagFrame else tagData) w.1 w.2

/-- Lines that a group's buffer holds: 64 octets and 2 of descriptor each (11 R272, R274). -/
def bufferLines (typ kbps delay : Nat) (x : Errl) : Nat :=
  let fb := memFrameBits typ kbps
  let h := 8 * ((2 * delay * kbps + 10 * fb - 1) / (10 * fb) + 16)
  (x.units - (h + 4095) / 4096) * 4096 / 66

/-- The octets of a frame that its signature covers: columns 15 to 3,824 of an ODU, a VC less its path overhead (11 R275). -/
def sigOctets (x : Trib) (os : List Octet) : List Octet :=
  (os.zipIdx.filter fun e => if isOdu x.typ then decide (14 ≤ e.2 % 3824) else e.2 % pohStep x != 0).map (·.1)

/-- A frame's signature and whether it counts for comparison (11 R275). -/
def sigRecOf (x : Trib) (f : ErrlFrame) : SigRec :=
  ⟨f.num, wd (crcOctets crcIlf (sigOctets x (wordOctets f.words))),
    !(f.words.any lwPoison) && !f.failed && f.bipOk, f.arrived⟩

/-- The earlier member's frame is stored, the later member's waits; with the later member's frame n + 2 the output delivers
frame n of the selected member (11 R274, R277). -/
def errlWords (x : Trib) (g : Pg) (f : ErrlFrame) (e : Errl) : Errl :=
  if !(e.st == .confirm || e.st == .aligned || e.st == .hold) then { e with lines := [], guarded := [] }
  else
    let laterP := decide (0 < e.d)
    if f.prot != laterP then
      { e with lines := addFrame (bufferLines x.typ x.rate g.maxDelay e) f.num f.words e.lines }
    else
      let kept := (e.guarded ++ [(f.num, f.words)]).drop (e.guarded.length - 2)
      let n := f.num - 2
      let other := ((n : Int) + (if laterP then -e.offset else e.offset)).toNat
      { e with
        guarded := kept
        out := if earlierSelected g then readFrame f.words.length other f.uncorr e.lines
               else ((kept.find? fun k => k.1 == n).map (·.2)).getD [] }

/-- ERRORLESS_FRAME: a frame joins its member's history, which spans 2 × D; then the state machine of R276, and the words of
the frame go their way. -/
def execErrorlessFrame (n : Nat) (f : ErrlFrame) (s : State) : Out :=
  s.run (gRun fun t d =>
    match d.pg n with
    | none => d
    | some g =>
      if !g.errl.on then d
      else
        let mem : Trib := match (if f.prot then some g.p.o else g.ws.head?.map (·.o)) with
          | some (.trib k) => (d.trib k).getD {}
          | _ => {}
        let r := sigRecOf mem f
        let keep := fun l : List SigRec => (l.filter fun x => decide (r.at_ ≤ x.at_ + doubleDelay g)) ++ [r]
        let d := modErrl n (fun e =>
          let e := errlWords mem g f e
          if f.prot then { e with pSigs := keep e.pSigs } else { e with wSigs := keep e.wSigs }) d
        match d.pg n with
        | none => d
        | some g =>
          let e := g.errl
          let free8 := match e.freeSince with | some x => decide (x + 8 * memFrame d g ≤ t) | none => false
          match e.st with
          | .notAligned =>
            if free8 && e.units == e.need then modErrl n (fun e => { e with st := .search, noMatch := t }) d else d
          | .search => searchStep n g f.prot t d
          | .hold => if free8 then modErrl n (fun e => { e with st := .confirm, run := 0 }) d else d
          | _ => match compared e f.prot r with
            | some (ok, k) => compareStep n g ok k t d
            | none => d)

/-- ERRORLESS_SWITCH: the output reaches the switch frame; no change of source (11 R278). -/
def execErrorlessSwitch (n : Nat) (s : State) : Out :=
  s.run (gRun fun t d =>
    match d.pg n with
    | none => d
    | some g =>
      match g.errl.nsw with
      | none => d
      | some k =>
        if !g.errorless || decide (outNum d g t < k) then d
        else
          let late := g.errl.late
          let d := takeSelector n false t d
          let d := d.modPg n fun y => { y with
            cnt := if late then y.cnt else tput y.cnt 1 (tgetD y.cnt 1 0 + 1)
            errl := { y.errl with nsw := none, late := false } }
          let d := match d.pg n with | some y => modErrl n (fun e => { e with lag := lagOf d y, buildOut := none }) d | none => d
          pgEvent n 0x01 (reqPrio g.act) t d)

/-- PG_BUILD_OUT: at a frame boundary the output takes up its new lag; the event carries the signed change. -/
def execPgBuildOut (n : Nat) (s : State) : Out :=
  s.run (gRun fun t d =>
    match d.pg n with
    | none => d
    | some g =>
      match g.errl.buildOut with
      | none => d
      | some l =>
        let change := (BitVec.ofInt 32 ((l : Int) - g.errl.lag)).toNat
        pgEvent n 0x04 change t (d.modPg n fun y => { y with
          cnt := tput y.cnt 3 (tgetD y.cnt 3 0 + 1), errl := { y.errl with lag := l, buildOut := none } }))

/-- ALIGN_BUFFER_REPLACE: groups in ascending order get back what they lost, where the region has it. -/
def execAlignBufferReplace (s : State) : Out :=
  s.run (gFw fun t d => d.fab.pgs.foldl (fun d e =>
    match d.pg e.1 with
    | none => d
    | some g =>
      let x := g.errl
      if !x.on || x.units == x.need || decide (regionUnits d < unitsHeld d + (x.need - x.units)) then d
      else modErrl e.1 (fun y => { y with chans := fitUnits d y.chans y.need, st := .search, noMatch := t }) d) d)

end Sys2Proof.Machine
end

