-- ==== Sys2Proof/Machine/FaultRows.lean ====
section
/-!
DEFINITION. The rows of the fault collector, the safe-state sequencer and the recorder (18 R418-R427, R433-R434).
-/
namespace Sys2Proof.Machine

/-- FAULT_EVENT (18 R418-R422). -/
def execFaultEvent (source : Nat) (detail : Word) (s : State) : Out := s.run (gAon fun t d => fault source detail t d)

/-- FAULT_WINDOW_END (18 R418): a window that ends before the count reaches N closes, and its count clears. -/
def execFaultWindowEnd (source : Nat) (s : State) : Out :=
  s.run (gAon fun t d =>
    match srcInfo source with
    | some ⟨_, _, some (_, w), _⟩ =>
      let x := d.src source
      match x.winStart with
      | some b => if b + w ≤ t then d.setSrc source { x with winStart := none, count := 0 } else d
      | none => d
    | _ => d)

/-- FAULT_CLASS_DECAY (18 R418): 16 × W without an event returns the class to the initial class. -/
def execFaultClassDecay (source : Nat) (s : State) : Out :=
  s.run (gAon fun t d =>
    match srcInfo source with
    | some ⟨_, _, some (_, w), _⟩ =>
      let x := d.src source
      match x.last with
      | some l => if l + 16 * w ≤ t then d.setSrc source { x with rise := 0 } else d
      | none => d
    | _ => d)

/-- HEARTBEAT_TIMEOUT (18 R426): the sequencer counts COLLECTOR_FAIL and enters Snowdrop. -/
def execHeartbeatTimeout (s : State) : Out := s.run (gAon fun t d => fault 0x17A 0 t d)

/-- OSC_LOSS (13 R307). -/
def execOscLoss (s : State) : Out := s.run (gAon fun t d => fault 0x179 0 t d)

/-- What a port sends in Snowdrop (18 R427): a squelched lane group squelches, system lanes squelch, and a line port
sends its maintenance signal, by its type. -/
def snowdropSig (d : Dev) (p : Nat) (x : Port) : TxSig :=
  if 1024 ≤ p || d.fab.boot.squelch.getLsbD (lgOfLane x.first) then .squelch
  else if x.typ ≤ 0x05 then .msAis
  else if x.typ ≤ 0x0D then .oduAis
  else .localFault

/-- SNOWDROP_LINE_SIGNALS (18 R427): the port's next transmit frame boundary in Snowdrop. -/
def execSnowdropLineSignals (port : Nat) (s : State) : Out :=
  s.run (gFab fun _ d =>
    if d.aon.snowdrop then d.modPort port fun x => { x with tx := snowdropSig d port x } else d)

/-- DUMP_COMPLETE (18 R427, R434, R435): the dump is in flash, dump_busy clears and dump_l latches; in Snowdrop no
interrupt is sent. -/
def execDumpComplete (s : State) : Out :=
  s.run (gAon fun _ d =>
    if !(d.aon.snowdrop && d.aon.fmn.dumpBusy) then d
    else
      let o := dumpOctets d
      let d := d.onFlash fun m => flashProgram m (dumpAddr (dumpSlot m)) 66560 o
      d.onFmn fun r => { r with dumpBusy := false, sts := r.sts.latch 22 })

/-- RECORD_WRITE (18 R433): a record leaves the staging queue. -/
def execRecordWrite (s : State) : Out :=
  s.run (gAon fun _ d => if d.aon.fmn.frozen then d else writeOldest d)

end Sys2Proof.Machine
end

