-- ==== Sys2Proof/Machine/Sched.lean ====
section
/-!
DEFINITION. Packet streams: classification, policing, queues, selection, gate lists, batching and their commands
(12 R284-R304; 14 R350).
-/
namespace Sys2Proof.Machine

/-! ### Queue counters (12 R303) -/

def cEnqPkts : Nat := 1
def cEnqOct : Nat := 2
def cDeqPkts : Nat := 3
def cDeqOct : Nat := 4
def cDropFull : Nat := 5
def cDropYellow : Nat := 6
def cSpillOct : Nat := 7
def cHeldGate : Nat := 8
def cOversize : Nat := 9
def cOverrun : Nat := 10
def cHeldPfc : Nat := 11
def cDeferLate : Nat := 12

/-- Adds to a counter of a queue. -/
def Queue.count (q : Queue) (k n : Nat) : Queue :=
  if n = 0 then q else { q with cnt := tmod q.cnt k 0 fun c => c + BitVec.ofNat 40 n }

/-- Octets in a queue, spilled ones included. -/
def Queue.octets (q : Queue) : Nat := sumBy (·.len) q.pkts

/-- Octets that a queue holds in its bank. -/
def Queue.inBank (q : Queue) : Nat := sumBy (fun p => if p.spilled then 0 else p.len) q.pkts

/-- A pending gap count grows, saturating (08 R202). -/
def Queue.addGap (q : Queue) (n : Nat) : Queue := { q with gap := satGap (q.gap + n) }

def qOf (s : Sched) (cls : Nat) : Queue := tgetD s.queues cls { bank := cls }
def Sched.modQ (s : Sched) (cls : Nat) (f : Queue → Queue) : Sched := { s with queues := tmod s.queues cls { bank := cls } f }

/-- Is the tributary a packet stream? -/
def isStream (d : Dev) (n : Nat) : Bool := match d.trib n with | some x => x.typ == 0x29 | none => false

/-! ### Banks (12 R287; 14 R350) -/

/-- 2 µs and 20 µs in phase units. -/
def bankWake : Nat := 525
def bankClear : Nat := 5243

/-- Every queue with its stream and class. -/
def allQueues (d : Dev) : List (Nat × Nat × Queue) := d.fab.scheds.flatMap fun e => e.2.queues.map fun q => (e.1, q.1, q.2)

/-- Entries of a packet in the bank: a slot and its words (08 R205). -/
def pktEntries (len : Nat) : Nat := (len + 3) / 4 + 1

/-- Entries that a bank's queues hold in it. -/
def bankEntries (d : Dev) (b : Nat) : Nat :=
  sumBy (fun e => if e.2.2.bank = b then sumBy (fun p => if p.spilled then 0 else pktEntries p.len) e.2.2.pkts else 0) (allQueues d)

def bankDom (d : Dev) (b : Nat) : Dom := tgetD d.fab.pd.banks b {}
def setBank (b : Nat) (x : Dom) (d : Dev) : Dev := d.onPd fun p => { p with banks := tput p.banks b x }

/-- Octets spilled to the overflow region of 3.0 GiB (01 R27). -/
def spilledOctets (d : Dev) : Nat := sumBy (fun e => sumBy (fun p => if p.spilled then p.len else 0) e.2.2.pkts) (allQueues d)

/-- The next batch instant after a time; none with batching off (12 R299; 02 R41). -/
def nextInstant (d : Dev) (t : Time) : Option Time :=
  let b := d.aon.gov.batch
  if b = 0 then none else some ((eOf t / b + 1) * b * frame)

/-! ### Enqueueing (12 R285-R289) -/

/-- The class of a packet from its source stream. -/
def classOf (d : Dev) (n : Nat) (pcp : Option (BitVec 3)) : Nat :=
  let m := tgetD d.fab.maps n {}
  match pcp with | some p => m.map.getD p.toNat 0 | none => m.dflt

/-- Colours of R289. -/
inductive Colour where
  | green
  | yellow
  | red
deriving DecidableEq, Repr

/-- The colour of a packet, and the policer after it. -/
def Policer.mark (p : Policer) (len : Nat) (t : Time) : Colour × Policer :=
  let tc := refill p.tc p.cir p.cbs (t - p.upd)
  let tp := refill p.tp p.pir p.pbs (t - p.upd)
  let l := full len
  if tp < l then (.red, { p with tc := tc, tp := tp, upd := t })
  else if tc < l then (.yellow, { p with tc := tc, tp := tp - l, upd := t })
  else (.green, { p with tc := tc - l, tp := tp - l, upd := t })

/-- Polices a packet of a class at its source, with the counts of R289. -/
def police (n cls len : Nat) (t : Time) (d : Dev) : Colour × Dev :=
  let m := tgetD d.fab.maps n {}
  match tget m.pol cls with
  | none => (.green, d)
  | some p =>
    let (c, p) := p.mark len t
    let m := { m with pol := tput m.pol cls p }
    let m := match c with
      | .red => { m with red := tmod m.red cls 0 (· + 1) }
      | .yellow => { m with yellow := tmod m.yellow cls 0 (· + 1) }
      | .green => m
    (c, d.onFab fun f => { f with maps := tput f.maps n m })

/-- Destinations of a source stream, itself where nothing is connected: a stream loops to no one. -/
def destsOf (d : Dev) (n : Nat) : List Nat := (fedBy d n).filter (isStream d)

/-! ### The overflow region (01 R27-R29) -/

/-- Octets that the HBM can move for the overflow region in a DFE frame: its usable bandwidth, less 0.4 Tb/s for each fenced
channel and twice the rate of the errorless groups, and less what priorities 2 to 4 take, which no rule gives (a free value,
log entry 29). 1 kb/s is 1/64 octet a frame. -/
def spillShare (d : Dev) : Nat := ((liveChannels d).length * 400000000 - 2 * rateUsed d) / 64 - (free 32 d).toNat

/-- Octets moved for the region in the frame of a time. -/
def spillMoved (d : Dev) (t : Time) : Nat := if d.fab.spill.frame = eOf t then d.fab.spill.moved else 0

/-- Is there bandwidth for a packet, which is written in one DFE frame (DESIGN CHOICE, log entry 29)? -/
def spillRoom (d : Dev) (len : Nat) (t : Time) : Bool :=
  decide (spilledOctets d + len ≤ 3 * 2 ^ 30 / 16 * (liveChannels d).length) && decide (spillMoved d t + len ≤ spillShare d)

/-- Octets are moved. -/
def moveSpill (len : Nat) (t : Time) (d : Dev) : Dev :=
  d.onFab fun f => { f with spill := { f.spill with frame := eOf t, moved := spillMoved d t + len } }

/-- The channels of a packet's granules: packets follow one another through the granules of the live channels, each from the
start of a granule (DESIGN CHOICE, log entry 83). -/
def spillChans (d : Dev) (len : Nat) : List Nat :=
  let live := liveChannels d
  ((List.range ((len + 4095) / 4096)).map fun i => hbmChannel (live.getD ((d.fab.spill.pos + i) % max 1 live.length) 0)).eraseDups

def placeSpill (len : Nat) (d : Dev) : Dev :=
  d.onFab fun f => { f with spill := { f.spill with pos := f.spill.pos + (len + 4095) / 4096 } }

/-! ### Admission (12 R287) -/

/-- What admission makes of a packet (12 R287). -/
inductive Admit where
  | inBank
  | spill
  | full
  | yellow
deriving DecidableEq, Repr

/-- R287's conditions. `hbm`: the packet fits in the overflow region with bandwidth available (01 R27, R28). -/
def admission (d : Dev) (c : QCfg) (q : Queue) (col : Colour) (len : Nat) (hbm : Bool) : Admit :=
  let fitsBank := decide (q.inBank + len ≤ c.quota) && decide (bankEntries d q.bank + pktEntries len ≤ clsDepth .pbq)
  let fitsHbm := c.spill && hbm
  let lost := d.aon.coll.fenced.contains (0x30 + q.bank)
  let green := col == .green || decide (q.octets < c.yellow)
  if lost || decide (c.maxOct < q.octets + len) || !(fitsBank || fitsHbm) then .full
  else if !green then .yellow
  else if fitsBank then .inBank else .spill

/-- Releases every held packet of a queue. -/
def Queue.release (q : Queue) : Queue := { q with pkts := q.pkts.map fun p => { p with released := true } }

/-- Octets that wait for release. -/
def Queue.heldOctets (q : Queue) : Nat := sumBy (fun p => if p.released then 0 else p.len) q.pkts

/-- A packet joins a queue; it commits at `at_`. `spill`: the HBM channels of one that is spilled. -/
def Queue.join (q : Queue) (c : QCfg) (ws : List LaneWord) (len : Nat) (at_ t : Time) (spill : Option (List Nat))
    (batching : Bool) : Queue :=
  let p : QPkt := {
    len := len, at_ := at_, ws := ws, chans := spill.getD [], gap := q.gap
    released := !batching || c.kind != .deferrable, spilled := spill.isSome }
  let q := { q with pkts := q.pkts ++ [p], gap := 0 }
  let q := ((q.count cEnqPkts 1).count cEnqOct len).count cSpillOct (if spill.isSome then len else 0)
  let q := if q.maxDepth < q.octets then { q with maxDepth := q.octets, depthAt := t } else q
  if c.kind = .deferrable ∧ c.batchMax ≤ q.heldOctets then q.release else q

/-- The time at which a bank takes a write: at once, or when it has woken (14 R350). -/
def bankReady (d : Dev) (b : Nat) (t : Time) : Time :=
  let x := bankDom d b
  match x.st with | .retain => t + bankWake | .waking => x.since | _ => t

/-- The words of a packet as a bank keeps them: the compatibility layout holds poison per packet (08 R220). -/
def bankWords (d : Dev) (ws : List LaneWord) : List LaneWord :=
  if d.fab.boot.pbCompat && ws.any lwPoison then ws.map lwPoisoned else ws

/-- A packet offered to one destination. A destination that is disabled admits nothing (12 R304). -/
def offer (n cls : Nat) (ws : List LaneWord) (len : Nat) (col : Colour) (t : Time) (d : Dev) : Dev :=
  match d.trib n with
  | none => d
  | some x =>
    if !x.txEn then d
    else
      let d := settle n t (d.modSched n id)
      let s := d.sched n
      let q := qOf s cls
      let c := queueCfg d n cls q
      let put := fun (q : Queue) (d : Dev) => d.modSched n fun s => s.modQ cls fun _ => q
      if col = .red then put (q.addGap 1) d
      else
        let hbm := spillRoom d len t
        let d := if c.spill then d.used else d
        match admission d c q col len hbm with
        | .full => put ((q.addGap 1).count cDropFull 1) d
        | .yellow => put ((q.addGap 1).count cDropYellow 1) d
        | r =>
          let spill := r == .spill
          let at_ := if spill then t else bankReady d q.bank t
          let d := if spill then d else match (bankDom d q.bank).st with
            | .retain => setBank q.bank ⟨.waking, at_⟩ d
            | _ => d
          let q := q.join c (bankWords d ws) len at_ t (if spill then some (spillChans d len) else none) (d.aon.gov.batch != 0)
          put q (if spill then moveSpill len t (placeSpill len d) else d)

/-- The PCP of a packet's outermost VLAN tag (12 R285). -/
def pcpOf (os : List Octet) : Option (BitVec 3) :=
  let tpid := beNat ((os.drop 12).take 2)
  if (tpid = 0x8100 ∨ tpid = 0x88A8) ∧ 15 ≤ os.length then some ((os.getD 14 0).extractLsb' 5 3) else none

/-- The items that gap markers at the front of a packet FIFO announce, and the FIFO without them. -/
def takeGaps : Nat → Fifo → Nat → Fifo × Nat
  | 0, q, g => (q, g)
  | k + 1, q, g =>
    let e := q.entries.headD 0
    if q.committed = 0 ∨ lwTag e ≠ tagGap ∨ !q.out.isEmpty then (q, g)
    else takeGaps k q.pop (satGap (g + (lwPayload e).toNat))

/-- PACKET_ENQUEUE: the next packet of a source stream's PKT_IN is policed, classified and offered to every destination; the
gap markers before it precede it there. -/
def execPacketEnqueue (src : Nat) (s : State) : Out :=
  s.run (gRun fun t d =>
    if !isStream d src then d
    else
      let f : FifoId := ⟨.pktIn, src⟩
      let (q, g) := takeGaps (fifoOf d f).entries.length (fifoOf d f) 0
      let m := tgetD d.fab.maps src {}
      let gaps := satGap (m.gapIn + g)
      let d := addCnt (pathKey src) 0x55 g d
      match nextPacket q with
      | none => setFifo f q (if gaps = m.gapIn then d else d.onFab fun b => { b with maps := tput b.maps src { m with gapIn := gaps } })
      | some (ws, len, q) =>
        let d := (setFifo f q d).onFab fun b => { b with maps := tmod b.maps src {} fun m => { m with gapIn := 0 } }
        let cls := classOf d src (pcpOf (packetOctets ws))
        let ds := destsOf d src
        let d := if gaps = 0 then d else ds.foldl (fun d n => d.modSched n fun s => s.modQ cls fun q => q.addGap gaps) d
        let (col, d) := police src cls len t d
        ds.foldl (fun d n => offer n cls ws len col t d) d)

/-! ### Selection (12 R290-R295, R298) -/

/-- Is a class paused? -/
def pausedNow (q : Queue) (t : Time) : Bool := match q.paused with | some e => decide (t < e) | none => false

/-- What the gate says of a head packet. -/
inductive Fit where
  | closed
  | fits
  | waits
  | never
deriving DecidableEq, Repr

def gateFit (s : Sched) (cls units : Nat) (t : Time) : Fit :=
  if !gateOpen s cls then .closed
  else match windowOf s cls t with
    | none => .fits
    | some (left, whole) => if units ≤ left then .fits else if units ≤ whole then .waits else .never

/-- Judges the head of a queue (12 R295, R298): an oversize head is dropped, and the next one judged; answers the queue
and the gap items that PKT_OUT is to announce. -/
def judgeHead (x : Trib) (rate : Nat) (s : Sched) (cls : Nat) (t : Time) : Nat → Queue → Nat → Queue × Nat
  | 0, q, g => (q, g)
  | k + 1, q, g =>
    match q.pkts with
    | [] => (q, g)
    | p :: r =>
      if t < p.at_ then (q, g)
      else if pausedNow q t then
        (if p.heldPfc then q else { (q.count cHeldPfc 1) with pkts := { p with heldPfc := true } :: r }, g)
      else match gateFit s cls (txUnits (countedSize x p.len) rate) t with
        | .never => judgeHead x rate s cls t k { (q.count cOversize 1) with pkts := r } (satGap (g + p.gap + 1))
        | .waits => (if p.heldGate then q else { (q.count cHeldGate 1) with pkts := { p with heldGate := true } :: r }, g)
        | _ => (q, g)

/-- The head packet of a queue if it is eligible (12 R291). -/
def eligible (d : Dev) (n : Nat) (x : Trib) (s : Sched) (t : Time) (cls : Nat) : Option QPkt :=
  let q := qOf s cls
  let c := queueCfg d n cls q
  match q.pkts with
  | [] => none
  | p :: _ =>
    let shaped := match c.kind with
      | .cbs => decide (0 ≤ q.credit)
      | _ => (match q.bucket with | some v => decide (full p.len ≤ v) | none => decide (p.len ≤ c.pbs))
    let ok := decide (p.at_ ≤ t) && !pausedNow q t && shaped && (c.kind != .deferrable || p.released)
      && gateFit s cls (txUnits (countedSize x p.len) (schedRate d n)) t == .fits
    if ok then some p else none

def isDwrr (k : QKind) : Bool := k == .deferrable || k == .bestEffort

/-- DWRR from the class whose turn it is, classes in falling order (log entry 29): the class that sends, and the
scheduler after it. -/
def dwrr (w : Nat → Option (Nat × Nat)) : Nat → Sched → Option Nat × Sched
  | 0, s => (none, s)
  | k + 1, s =>
    let cls := s.rr
    let next := (cls + 7) % 8
    match w cls with
    | none => dwrr w k { s with rr := next, rrOpen := false }
    | some (weight, len) =>
      let s := if s.rrOpen then s else { s.modQ cls fun q => { q with deficit := q.deficit + weight * 2048 } with rrOpen := true }
      if len ≤ (qOf s cls).deficit then (some cls, s.modQ cls fun q => { q with deficit := q.deficit - len })
      else dwrr w k { s with rr := next, rrOpen := false }

/-- The class that starts a packet: STRICT and CBS by number, then DWRR. -/
def choose (d : Dev) (n : Nat) (x : Trib) (s : Sched) (t : Time) : Option Nat × Sched :=
  let kind := fun c => (queueCfg d n c (qOf s c)).kind
  match [7, 6, 5, 4, 3, 2, 1, 0].find? fun c => !isDwrr (kind c) && (eligible d n x s t c).isSome with
  | some c => (some c, s)
  | none =>
    let w := fun c => if isDwrr (kind c) then
        (match eligible d n x s t c with | some p => some ((queueCfg d n c (qOf s c)).weight, p.len) | none => none)
      else none
    if (List.range 8).any fun c => (w c).isSome then dwrr w 160 s else (none, s)

/-- The head packet of a class leaves its queue (12 R292, R302, R303). -/
def Queue.take (q : Queue) (c : QCfg) (p : QPkt) (t : Time) : Queue :=
  let soj := min (t - p.at_) (2 ^ 32 - 1)
  let rest := q.pkts.drop 1
  let q := ((q.count cDeqPkts 1).count cDeqOct p.len).count cDeferLate
    (b2n (c.kind == .deferrable && decide (c.defer * 262144 < soj * 1000)))
  { q with
    pkts := rest, deficit := if rest.isEmpty then 0 else q.deficit
    bucket := if c.kind = .cbs then q.bucket else some (q.bucket.getD (full c.pbs) - full p.len)
    maxSoj := max q.maxSoj soj, sojAt := if q.maxSoj < soj then t else q.sojAt, sojLen := if q.maxSoj < soj then p.len else q.sojLen }

/-- SCHEDULER_SELECT: in a phase unit with the output free, one eligible packet starts, and is written to PKT_OUT. -/
def execSchedulerSelect (n : Nat) (st : State) : Out :=
  st.run (gRun fun t d =>
    match d.trib n with
    | none => d
    | some x =>
      if x.typ ≠ 0x29 ∨ t < (d.sched n).busyUntil ∨ (!x.txEn ∧ x.drain.isNone) then d
      else
        let d := settle n t (d.modSched n id)
        let s := { d.sched n with sending := none, overrun := false }
        let rate := schedRate d n
        let (s, out) := (List.range 8).foldl (fun (a : Sched × Nat) cls =>
          let q := qOf a.1 cls
          let (q, g) := judgeHead x rate s cls t (q.pkts.length + 1) q 0
          (a.1.modQ cls fun _ => q, satGap (a.2 + g))) (s, s.outGap)
        let (cls, s) := if s.hold then (none, s) else choose d n x s t
        match cls with
        | none => d.modSched n fun _ => { s with outGap := out }
        | some c =>
          let q := qOf s c
          match q.pkts with
          | [] => d
          | p :: _ =>
            let s := s.modQ c fun q => q.take (queueCfg d n c q) p t
            let s := { s with
              outGap := 0, sending := some c, busyUntil := t + txUnits (countedSize x p.len) rate
              rrOpen := s.rrOpen && !(qOf s c).pkts.isEmpty }
            let g := satGap (out + p.gap)
            let f : FifoId := ⟨.pktOut, n⟩
            let d := if g = 0 then d else setFifo f ((fifoOf d f).putGap 1 g) d
            let d := storeWords f p.ws t (if p.spilled then moveSpill p.len t d else d)
            d.modSched n fun _ => s)

/-! ### Gate lists (12 R294-R297) -/

/-- The entry of a list in force at a time at or after its start, and its end. -/
def Gate.at_ (g : Gate) (t : Time) : Nat × Time :=
  let cyc := g.cycle
  let base := if cyc = 0 then t else t - (t - g.start) % cyc
  let rec go : List (Octet × Nat) → Nat → Time → Nat × Time
    | [], i, e => (i - 1, e)
    | x :: r, i, e => if t < e + x.2 then (i, e + x.2) else go r (i + 1) (e + x.2)
  go g.entries 0 base

/-- A packet that started under an older list now runs past the closing of its gate (12 R297). -/
def countOverrun (t : Time) (s : Sched) : Sched :=
  match s.sending with
  | some c =>
    if s.overrun && decide (t < s.busyUntil) && !gateOpen s c then
      { s.modQ c fun q => q.count cOverrun 1 with overrun := false }
    else s
  | none => s

/-- GATE_ENTRY_CHANGE: the next entry's gate states apply when a duration has run out. -/
def execGateEntryChange (n : Nat) (st : State) : Out :=
  st.run (gRun fun t d =>
    match (d.sched n).gate with
    | none => d
    | some g =>
      if t < (d.sched n).gateEnd then d
      else
        let (i, e) := g.at_ t
        (settle n t d).modSched n fun s => countOverrun t { s with gateIdx := i, gateEnd := e })

/-- A fragment's place (16 R392). -/
def gateFrag (ws : List Word) : FragPos :=
  let w := ws.getD 5 0
  ⟨fld w 15 8 = 0, bitAt w 31, fld w 15 8, fld w 3 0, [ws.getD 4 0], 5, 8⟩

/-- Entries of a gate list: a duration of 0 encodes 2^24. -/
def gateEntries (msgs : List (List Word)) : List (Octet × Nat) :=
  msgs.flatMap fun ws => (List.range (fld (ws.getD 5 0) 3 0)).map fun i =>
    let w := ws.getD (6 + i) 0
    (BitVec.ofNat 8 (fld w 31 24), if fld w 23 0 = 0 then 2 ^ 24 else fld w 23 0)

def entrySum (es : List (Octet × Nat)) : Nat := sumBy (·.2) es

/-- The start of a list by R296: S, or the first S + k × cycle at or after A + 8 frames; none where it is rejected. -/
def gateStart (x : Ctx) (cyc : Nat) : Option Time :=
  let sfn := BitVec.ofNat 40 (fld (x.w 2) 7 0 * 2 ^ 32 + (x.w 3).toNat)
  let ph := fld (x.w 2) 30 16
  let due : Int := (x.t + 8 * frame : Nat)
  let s : Int := match absTime sfn ph x.t with
    | some t => t
    | none => ((eOf x.t : Int) - (sfnOf x.t - sfn).toNat) * frame + ph
  if due ≤ s then some s.toNat
  else if (x.t : Int) - s < (2 ^ 20 * frame : Nat) ∧ 0 < cyc then
    some (s + ((due - s + cyc - 1) / cyc) * cyc).toNat
  else none

def cmdGateListSet : Cmd := {
  code := 0x0605, n := 16, kind := .config, vf := true
  mask := [(4, tMask), (5, bitsMask 31 31 + bitsMask 24 16 + bitsMask 15 8 + bitsMask 3 0)]
    ++ (List.range 8).map fun i => (6 + i, anyW)
  enc := fun ws =>
    let w := ws.getD 5 0
    (if 8 < fld w 3 0 then [(5, 3, 0)] else []) ++ (if !bitAt w 31 && fld w 24 16 != 0 then [(5, 24, 16)] else [])
  frag := some gateFrag
  perm := ownsTrib
  chk := fun x d =>
    let es := gateEntries x.msgs
    let short := (List.range (fld (x.w 5) 3 0)).find? fun i => decide (0 < fld (x.w (6 + i)) 23 0) && decide (fld (x.w (6 + i)) 23 0 < 32)
    firstErr [
      need (bitAt (x.w 1) 31 || isMember x) (badArg 1 31),
      need (isStream d (fld (x.w 4) 16 0)) (badArg 4 0),
      need (fld (x.w 5) 24 16 == es.length && decide (es.length ≤ 256)) (badArg 5 16),
      short.map fun i => badArg (6 + i) 0,
      need (es.all fun e => decide (32 ≤ e.2)) (badArg 6 0),
      need (decide (entrySum es ≤ 262144000)) (badArg 5 16)]
  obj := fun x _ => .stream (fld (x.w 4) 16 0)
  parts := fun _ _ => [.own]
  trigger := fun x _ => gateStart x (entrySum (gateEntries x.msgs))
  onAccept := fun c d =>
    if time55 c.trig = fld (c.w 2) 7 0 * 2 ^ 47 + (c.w 3).toNat * 2 ^ 15 + fld (c.w 2) 30 16 ∨ !bitAt (c.w 1) 31 then d
    else d.modSched (fld (c.w 4) 16 0) fun s => { s with lateStart := s.lateStart + 1 }
  key := fun ws => some (ws.getD 4 0, wd (fld (ws.getD 5 0) 15 8))
  drop := fun ws e => e.code.toNat == 0x0605 && fld (ws.getD 5 0) 15 8 == 0 && e.obj == ws.getD 4 0
  apply := fun c _ t d =>
    let n := fld (c.w 4) 16 0
    let es := gateEntries c.msgs
    (settle n t d).modSched n fun s =>
      let qs := tmap s.queues fun _ q => { q with pkts := q.pkts.map fun p => { p with heldGate := false } }
      let s := { s with queues := qs, overrun := s.sending.isSome && decide (t < s.busyUntil) }
      if es.isEmpty then { s with gate := none, gateIdx := 0, gateEnd := 0 }
      else
        let g : Gate := ⟨es, c.trig⟩
        let (i, e) := g.at_ t
        countOverrun t { s with gate := some g, gateIdx := i, gateEnd := e } }

/-- GATE_LIST_START: the oldest accepted list whose start has come replaces the running one. -/
def execGateListStart (n : Nat) (st : State) : Out :=
  st.run (gRun fun t d =>
    match d.fab.fw.changes.find? fun c => c.code == 0x0605#16 && c.obj == .stream n with
    | some c => if ownReady d c t then applyPart cmdGateListSet c .own t d else d
    | none => d)

/-! ### Batching and bank sleep (12 R299, R300; 14 R350) -/

/-- Releases the packets of DEFERRABLE classes that committed before a time. -/
def releaseAll (d : Dev) (t : Time) (s : Nat × Sched) : Sched :=
  { s.2 with queues := tmap s.2.queues fun c q =>
      if (queueCfg d s.1 c q).kind = .deferrable then
        { q with pkts := q.pkts.map fun p => { p with released := p.released || decide (p.at_ < t) } }
      else q }

/-- BATCH_INSTANT: at phase 0 of every frame whose E is a multiple of batch_frames (02 R41). -/
def execBatchInstant (st : State) : Out :=
  st.run (gRun fun t d =>
    let b := d.aon.gov.batch
    if b = 0 ∨ phaseOf t ≠ 0 ∨ eOf t % b ≠ 0 then d
    else d.onFab fun f => { f with scheds := f.scheds.map fun e => (e.1, releaseAll d t e) })

/-- BANK_QUEUE_REDISTRIBUTE: at the octet boundary after the fence, the bank's queues move to the remaining banks, in
class order; what they held is discarded with one gap marker (12 R288; 01 R33). A queue of class c moves to the c-th of the
remaining banks, counted round (DESIGN CHOICE, log entry 84: the spec names no bank for a queue). -/
def execBankQueueRedistribute (b : Nat) (st : State) : Out :=
  st.run (gRun fun t d =>
    if 8 ≤ b ∨ !d.aon.coll.fenced.contains (0x30 + b) ∨ !isOctet t then d
    else
      let live := (List.range 8).filter fun k => !d.aon.coll.fenced.contains (0x30 + k)
      let d := settleAll t d
      if live.isEmpty then d
      else
        let move := fun (c : Nat) (q : Queue) =>
          if q.bank != b then q
          else
            let lost := q.pkts.length
            let q := (q.addGap (lost + sumBy (·.gap) q.pkts)).count cDropFull lost
            { q with pkts := [], deficit := 0, bank := live.getD (c % live.length) 0 }
        d.onFab fun f => { f with scheds := tmap f.scheds fun _ s => { s with queues := tmap s.queues move } })

/-- BANK_RETAIN. -/
def execBankRetain (b : Nat) (st : State) : Out :=
  st.run (gRun fun t d =>
    let far : Bool := match nextInstant d t with | some u => decide (t + bankClear < u) | none => false
    let quiet := (allQueues d).all fun e => e.2.2.bank != b ||
      e.2.2.pkts.all fun p => p.spilled || ((queueCfg d e.1 e.2.1 e.2.2).kind == .deferrable && decide (p.at_ ≤ t))
    if b < 8 ∧ (bankDom d b).st = .on ∧ bitAt d.aon.pwr.policyIn 27 ∧ far ∧ quiet then setBank b ⟨.retain, t⟩ d else d)

/-- BANK_WAKE: 2 µs before a batch instant, or when a write has woken it. -/
def execBankWake (b : Nat) (st : State) : Out :=
  st.run (gRun fun t d =>
    let x := bankDom d b
    let near : Bool := match nextInstant d t with | some u => decide (u ≤ t + bankWake) | none => true
    if b < 8 ∧ ((x.st = .waking ∧ x.since ≤ t) ∨ (x.st = .retain ∧ near)) then setBank b ⟨.on, t⟩ d else d)

/-! ### Commands -/

/-- W4 of a queue: class and stream. -/
def qMask : Nat := tMask + bitsMask 22 20
def qStream (w : Nat → Word) : Nat := fld (w 4) 16 0
def qClass (w : Nat → Word) : Nat := fld (w 4) 22 20

def streamArg (x : Ctx) (d : Dev) : Option Err := need (isStream d (qStream x.w)) (badArg 4 0)

def cmdSchedConfig : Cmd := {
  code := 0x0601, n := 8, kind := .config, vf := true, mask := [(4, tMask), (5, bitsMask 31 30)]
  perm := ownsTrib, chk := streamArg
  obj := fun x _ => .stream (qStream x.w)
  key := fun ws => some (ws.getD 4 0, 0)
  apply := fun c _ t d => (settle (qStream c.w) t d).modSched (qStream c.w) fun s => { s with
    hold := bitAt (c.w 5) 31, gateEn := bitAt (c.w 5) 30 } }

def kindOf (k : Nat) : QKind := match k with | 0 => .strict | 1 => .cbs | 2 => .deferrable | _ => .bestEffort

/-- The parameters that a QUEUE_CONFIG carries. -/
def qcfgOf (w : Nat → Word) : QCfg :=
  { kind := kindOf (fld (w 5) 31 30), spill := bitAt (w 5) 29, weight := fld (w 5) 7 0, maxOct := (w 6).toNat
    quota := (w 7).toNat, yellow := (w 8).toNat, pir := (w 9).toNat, pbs := (w 10).toNat, slope := (w 11).toNat
    defer := fld (w 12) 13 0, minRate := (w 13).toNat, batchMax := (w 14).toNat }

/-- The parameters that a queue will have once every accepted change has applied. -/
def futureCfg (d : Dev) (n cls : Nat) : QCfg :=
  match (d.fab.fw.changes.filter fun c => c.code == 0x0602#16 && qStream c.w == n && qClass c.w == cls).getLast? with
  | some c => qcfgOf c.w
  | none => queueCfg d n cls (qOf (d.sched n) cls)

/-- The rules of R286. -/
def qcfgErr (d : Dev) (n cls : Nat) (c : QCfg) : Option Err :=
  let rate := fun k => decide (1 ≤ k) && decide (k ≤ 400000000)
  let others := sumBy (fun k => if k = cls then 0 else
    let y := futureCfg d n k
    if y.kind = .cbs then y.slope else 0) (List.range 8)
  firstErr [
    need (!isDwrr c.kind || c.weight != 0) (badArg 5 0),
    need (decide (16384 ≤ c.maxOct) && decide (c.maxOct ≤ 2 ^ 31)) (badArg 6 0),
    need (decide (c.quota ≤ c.maxOct)) (badArg 7 0),
    need (decide (c.yellow ≤ c.maxOct)) (badArg 8 0),
    need (rate c.pir) (badArg 9 0),
    need (decide (2 * maxFrameOf d n ≤ c.pbs) && decide (c.pbs ≤ 2 ^ 24)) (badArg 10 0),
    need (if c.kind = .cbs then rate c.slope else c.slope == 0) (badArg 11 0),
    need (c.kind != .cbs || decide (4 * (others + c.slope) ≤ 3 * schedRate d n)) (badArg 11 0),
    need (if c.kind = .deferrable then decide (50 ≤ c.defer) && decide (c.defer ≤ 10000) else c.defer == 0) (badArg 12 0),
    need (decide (c.minRate ≤ c.pir)) (badArg 13 0),
    need (decide (c.batchMax ≤ c.maxOct)) (badArg 14 0)]

def cmdQueueConfig : Cmd := {
  code := 0x0602, n := 15, kind := .config, vf := true
  mask := [(4, qMask), (5, bitsMask 31 29 + bitsMask 7 0), (6, anyW), (7, anyW), (8, anyW), (9, anyW), (10, anyW), (11, anyW)
    , (12, bitsMask 13 0), (13, anyW), (14, anyW)]
  perm := ownsTrib
  chk := fun x d => firstErr [streamArg x d, qcfgErr d (qStream x.w) (qClass x.w) (qcfgOf x.w)]
  obj := fun x _ => .stream (qStream x.w)
  key := fun ws => some (ws.getD 4 0, 0)
  apply := fun c _ t d => (settle (qStream c.w) t d).modSched (qStream c.w) fun s =>
    s.modQ (qClass c.w) fun q => { q with cfg := some (qcfgOf c.w) } }

def cmdClassMapSet : Cmd := {
  code := 0x0603, n := 8, kind := .config, vf := true
  mask := [(4, tMask), (5, sumBy (fun p => bitsMask (4 * p + 2) (4 * p)) (List.range 8)), (6, bitsMask 2 0)]
  perm := ownsTrib, chk := streamArg
  obj := fun x _ => .stream (qStream x.w)
  key := fun ws => some (ws.getD 4 0, 0)
  apply := fun c _ _ d => d.onFab fun f => { f with maps := tmod f.maps (qStream c.w) {} fun m => { m with
    map := (List.range 8).map fun p => fld (c.w 5) (4 * p + 2) (4 * p), dflt := fld (c.w 6) 2 0 } } }

/-- POLICER_SET: a policer that is set starts with full buckets. -/
def cmdPolicerSet : Cmd := {
  code := 0x0604, n := 9, kind := .config, vf := true
  mask := [(4, qMask + bitsMask 31 31), (5, anyW), (6, anyW), (7, anyW), (8, anyW)]
  perm := ownsTrib, chk := streamArg
  obj := fun x _ => .stream (qStream x.w)
  key := fun ws => if bitAt (ws.getD 4 0) 31 then some (ws.getD 4 0, 0) else none
  drop := fun ws e => e.code.toNat == 0x0604 && e.obj == ws.getD 4 0 ||| wd (2 ^ 31)
  apply := fun c _ t d => d.onFab fun f => { f with maps := tmod f.maps (qStream c.w) {} fun m => { m with
    pol := if bitAt (c.w 4) 31 then
        tput m.pol (qClass c.w) ⟨(c.w 5).toNat, (c.w 6).toNat, (c.w 7).toNat, (c.w 8).toNat, full (c.w 7).toNat, full (c.w 8).toNat, t⟩
      else tdel m.pol (qClass c.w) } } }

/-- QUEUE_STATS_GET: the counters in the order of R303's table. -/
def cmdQueueStatsGet : Cmd := {
  code := 0x0606, n := 8, kind := .query, vf := true, i2c := true, mask := [(4, qMask)]
  perm := ownsTrib, chk := streamArg
  run := fun x d =>
    let n := qStream x.w
    let c := qClass x.w
    let q := qOf (d.sched n) c
    let m := tgetD d.fab.maps n {}
    let vals := (List.range 12).map (fun i => tgetD q.cnt (i + 1) 0) ++ [tgetD m.yellow c 0, tgetD m.red c 0, (d.sched n).lateStart]
    { dev := d, items := (List.range 15).flatMap fun i => item (i + 1) 0 (cntWords (vals.getD i 0).toNat) } }

/-- QUEUE_HWM_GET: the items of R302; a clear restarts them with the depth as it stands. -/
def cmdQueueHwmGet : Cmd := {
  code := 0x0607, n := 8, kind := .query, vf := true, i2c := true, mask := [(4, qMask), (5, bitsMask 0 0)]
  perm := ownsTrib, chk := streamArg
  run := fun x d =>
    let n := qStream x.w
    let q := qOf (d.sched n) (qClass x.w)
    let items := item 1 0 [wd q.maxSoj] ++ item 2 0 (timeWords q.sojAt ++ [wd q.sojLen]) ++ item 3 0 (wd q.maxDepth :: timeWords q.depthAt)
    { dev := if bitAt (x.w 5) 0 then
        d.modSched n fun s => s.modQ (qClass x.w) fun q => { q with
          maxSoj := 0, sojAt := 0, sojLen := 0, maxDepth := q.octets, depthAt := x.t }
      else d
      items := items } }

end Sys2Proof.Machine
end

