-- ==== Sys2Proof/Machine/Governor.lean ====
section
/-!
DEFINITION. The Marigold governor: policy, sensing, droop, the cap ladder, batching, packing, retirement and rotation
(14 R333-R340, R347-R350, R353-R356; 20 R455-R458).
-/
namespace Sys2Proof.Machine

/-! ### Policy (14 R337): a value out of range is used as the nearest limit -/

def limit (lo hi v : Nat) : Nat := max lo (min hi v)

def capW (d : Dev) : Nat := limit 200 2000 (fld d.aon.pwr.capIn 27 16)
def capHyst (d : Dev) : Nat := limit 5 100 (fld d.aon.pwr.capIn 15 8)
def thermTarget (d : Dev) : Nat := limit 60 105 (fld d.aon.pwr.capIn 7 0)
def avsFloor (d : Dev) : Nat := min 30 (fld d.aon.pwr.policyIn 23 16)
def regSpare (d : Dev) : Nat := min 8 (fld d.aon.pwr.policyIn 15 8)
def batchLimit (d : Dev) : Nat := min 40 (fld d.aon.pwr.policyIn 7 0)
def regPackHi (d : Dev) : Nat := limit 100 195 (fld d.aon.pwr.packIn 31 24)
def idleHold (d : Dev) : Nat := max 1 (fld d.aon.pwr.packIn 23 16)
def retainHold (d : Dev) : Nat := fld d.aon.pwr.packIn 15 8
def rotPeriod (d : Dev) : Nat := max 1 (fld d.aon.pwr.packIn 7 0)

/-- The packing limit in force, in kb/s, and the spare slices: step 1 of the ladder replaces both (14 R347). -/
def packHi (d : Dev) : Nat := (if 1 ≤ d.aon.gov.step then 195 else regPackHi d) * 2000000
def spareSlices (d : Dev) : Nat := if 1 ≤ d.aon.gov.step then 0 else regSpare d

/-- Phase 0 of a frame whose E is a multiple of `m` (02 R41). -/
def atSfn (m : Nat) (t : Time) : Bool := phaseOf t == 0 && atFrame m t

/-! ### Sensing (14 R333, R335, R336) -/

/-- A reading in 0.125 °C. -/
def tempOf (d : Dev) (s : Nat) : Int := (d.aon.sense.temps.getD s 0).toInt

/-- THERMAL_SAMPLE. THERMTRIP is counted when a sensor first reaches 125 °C. -/
def execThermalSample (l : List (BitVec 16)) (s : State) : Out :=
  s.run (gAon fun t d =>
    let x := d.aon.sense
    let v := fun i => (l.getD i 0).toInt
    let best := (List.range 64).foldl (fun (b : Option Nat) i =>
      if !sensorOn d i then b else match b with | some j => if v j < v i then some i else b | none => some i) none
    let k := best.getD 62
    let sums := (List.range 64).map fun i => x.tempSum.getD i 0 + v i
    let d := d.onSense fun y => { y with
      temps := (List.range 64).map fun i => l.getD i 0, tempSum := sums, tempCount := y.tempCount + 1
      tmax := l.getD k 0, sensor := k, tmaxTime := t }
    let d := if 840 ≤ v k then
        (if d.aon.sense.thermHigh then d else fault 0x16C (wd k) t (d.onSense fun y => { y with thermHigh := true }))
      else if v k < 800 then d.onSense fun y => { y with thermHigh := false }
      else d
    match (List.range 64).find? fun i => decide (1000 ≤ v i) with
    | some i =>
      if d.aon.thermtrip then d else fault 0x178 (wd i) t (d.onAon fun a => { a with thermtrip := true })
    | none => d)

/-- The fused voltage of VDD_CORE in mV, 670 to 790 (20 R456). -/
def vFused : Nat := 670 + Config.vFuse 0 % 121

/-- The operating range of a rail in 0.1 mV; none for an AON rail (20 R455, R456). -/
def railRange (margin i : Nat) : Option (Nat × Nat) :=
  let pct := fun (mv k : Nat) => some (mv * (1000 - k) / 100, mv * (1000 + k) / 100)
  match i with
  | 0 => some ((vFused + margin - 30) * 10, (vFused + margin + 25) * 10)
  | 1 => pct 850 30
  | 4 | 7 | 10 => pct 750 30
  | 5 | 8 => pct 900 30
  | 6 | 9 => pct 1200 30
  | 11 | 14 => pct 1800 50
  | 12 => pct 1100 30
  | 13 => pct 400 30
  | _ => none

/-- Does a sample show a core rail outside its range by more than the 5 mV of its accuracy? -/
def railOut (margin i : Nat) (r : RailSample) : Bool :=
  match railRange margin i with
  | some (lo, hi) => decide (r.mv * 10 + 50 < lo) || decide (hi + 50 < r.mv * 10)
  | none => false

/-- RAIL_SAMPLE: once per DFE frame. With the fabric powered and out of reset, a core rail out of range leaves the
behaviour undefined (20 R458): the machine stops. -/
def execRailSample (l : List RailSample) (s : State) : Out :=
  let d := s.dev
  let rs := (List.range 16).map fun i => l.getD i ⟨0, 0⟩
  if !d.aon.standby && !d.aon.thermtrip && d.fab.boot.stage != 0
      && (List.range 16).any fun i => railOut d.aon.gov.margin i (rs.getD i ⟨0, 0⟩) then
    .fault .coreRailOutOfRange
  else
    s.run (gAon fun t d => d.onSense fun y => { y with
      rails := rs, railTime := t, winCount := y.winCount + 1
      winSum := y.winSum + sumBy (fun r => r.mv * r.ma10) rs })

/-- POWER_WINDOW_END: P in 0.1 W, the mean of volts × amperes over the window (rails are in mV and 10 mA). -/
def execPowerWindowEnd (s : State) : Out :=
  s.run (gAon fun t d =>
    let x := d.aon.sense
    if x.winCount = 0 ∨ !atSfn 800 t then d
    else d.onSense fun y => { y with
      power := BitVec.ofNat 16 (y.winSum / (y.winCount * 10000)), powerTime := t, winSum := 0, winCount := 0 })

/-! ### Droop (14 R334) -/

/-- Domains on the AVS-controlled core rail: slice datapaths, cores, the fixed domain (20 R455). -/
def onCoreRail (pd : Nat) : Bool := decide (pd < 32) || (decide (88 ≤ pd) && decide (pd ≤ 91)) || pd == 96

/-- DROOP: 96 is the fixed domain. -/
def execDroop (pd : Nat) (s : State) : Out :=
  s.run (gFab fun t d =>
    if 96 < pd then d
    else
      let d := fault (if pd = 96 then 0xE0 else 0x80 + pd) 0 t d
      if onCoreRail pd then d.onGov fun g => { g with margin := min 30 (g.margin + 5), holdUntil := t + sec 3600 } else d)

/-- DROOP_HOLD_END: an hour after the last firing. -/
def execDroopHoldEnd (s : State) : Out :=
  s.run (gFab fun t d => if d.aon.gov.holdUntil ≤ t then d.onGov fun g => { g with holdUntil := 0 } else d)

/-! ### Batching (14 R350) -/

/-- The smallest defer_bound of a DEFERRABLE class in force. -/
def minDefer (d : Dev) : Option Nat :=
  (allQueues d).foldl (fun b e =>
    let c := queueCfg d e.1 e.2.1 e.2.2
    if c.kind = .deferrable then (match b with | some k => some (min k c.defer) | none => some c.defer) else b) none

def batchFor (d : Dev) : Nat :=
  if !bitAt d.aon.pwr.policyIn 29 then 0
  else match minDefer d with | some k => min (batchLimit d) (k / 250) | none => batchLimit d

/-- BATCH_FRAMES_UPDATE: at each octet boundary; with batching off every committed packet is released. -/
def execBatchFramesUpdate (s : State) : Out :=
  s.run (gRun fun t d =>
    let n := batchFor d
    let o := d.aon.gov.batch
    if !isOctet t ∨ n = o then d
    else
      let d := govEvent 0x07 0xFF 0 n o t (d.onGov fun g => { g with batch := n })
      if n ≠ 0 then d
      else d.onFab fun f => { f with scheds := tmap f.scheds fun _ s => { s with queues := tmap s.queues fun _ q => q.release } })

/-! ### Packing (14 R339) -/

/-- A context to place: T, kb/s, SRAM words with an errorless guard (11 R280), and owner slice. -/
structure Load where
  t : Nat
  kbps : Nat
  words : Nat
  unit : Nat
deriving DecidableEq, Repr

/-- The guard of the errorless groups whose selector slice owns a tributary. -/
def guardOf (d : Dev) (n : Nat) : Nat :=
  sumBy (fun e => match e.2.ws.head? with | some m => if m.o == .trib n then e.2.errl.guard else 0 | none => 0) d.fab.pgs

/-- Inserts in decreasing rate, then rising T. -/
def insertLoad (x : Load) : List Load → List Load
  | [] => [x]
  | y :: r => if y.kbps < x.kbps then x :: y :: r else y :: insertLoad x r

def byRate (l : List Load) : List Load := l.foldl (fun a x => insertLoad x a) []

/-- Contexts that slices own, in decreasing rate. -/
def loads (d : Dev) : List Load :=
  byRate (d.fab.tribs.filterMap fun e =>
    if e.2.unit < 32 then some ⟨e.1, countedRate e.2, sramWords e.2 + guardOf d e.1, e.2.unit⟩ else none)

/-- May a bin of a load take a rate under a limit? A context above the limit takes a slice of its own under R13. -/
def binFits (limit have_ r : Nat) : Bool := decide (have_ + r ≤ limit) || (have_ == 0 && decide (r ≤ 400000000))

def firstFit (limit r : Nat) : List Nat → List Nat
  | [] => [r]
  | b :: l => if binFits limit b r then (b + r) :: l else b :: firstFit limit r l

/-- Slices that first-fit-decreasing placement needs. -/
def ffd (limit : Nat) (l : List Load) : Nat := (l.foldl (fun bs x => firstFit limit x.kbps bs) []).length

/-- Slices in rising wear, then number (14 R354). -/
def insertWear (d : Dev) (s : Nat) : List Nat → List Nat
  | [] => [s]
  | y :: r => if sliceWear d s < sliceWear d y ∨ (sliceWear d s = sliceWear d y ∧ s < y) then s :: y :: r else y :: insertWear d s r

def byWear (d : Dev) (l : List Nat) : List Nat := l.foldl (fun a s => insertWear d s a) []

/-- Slices whose state code is `c`. -/
def slicesIn (d : Dev) (c : Nat) : List Nat :=
  (List.range 32).filter fun s => !d.aon.coll.fenced.contains s && sliceCode d s == c

/-- A slice that may take contexts: load, SRAM words, entries. -/
structure SliceBin where
  s : Nat
  kbps : Nat
  words : Nat
  n : Nat
deriving DecidableEq, Repr

def binOf (d : Dev) (s : Nat) : SliceBin := ⟨s, sliceKbps d s, sliceWords d s, unitEntries d s⟩

def SliceBin.takes (b : SliceBin) (limit : Nat) (x : Load) : Bool :=
  decide (b.kbps + x.kbps ≤ min limit 400000000) && decide (b.n < 4096) && decide (b.words + x.words ≤ 200000) && b.s != x.unit

def SliceBin.add (b : SliceBin) (x : Load) : SliceBin := ⟨b.s, b.kbps + x.kbps, b.words + x.words, b.n + 1⟩

/-- The slice of least load that can take a context. -/
def leastLoaded (limit : Nat) (x : Load) (bs : List SliceBin) : Option SliceBin :=
  (bs.filter fun b => b.takes limit x).foldl (fun a b => match a with | some c => if b.kbps < c.kbps then some b else a | none => some b) none

/-- Moves contexts, each to the slice of least load; none where one fits nowhere. -/
def assign (limit : Nat) : List Load → List SliceBin → Option (List Plan)
  | [], _ => some []
  | x :: r, bs =>
    match leastLoaded limit x bs with
    | none => none
    | some b => (assign limit r (bs.map fun c => if c.s = b.s then c.add x else c)).map fun l => { t := x.t, dst := b.s } :: l

/-- May the governor move a context (14 R346)? -/
def movable (d : Dev) (t : Time) (x : Load) : Bool :=
  decide (tgetD d.aon.gov.stuckUntil x.t 0 ≤ t) && !d.fab.migs.any fun m => m.t == x.t

/-- A slice with a sensor at or above therm_target − 5 °C. -/
def isHot (d : Dev) (s : Nat) : Bool := decide (((thermTarget d : Int) - 5) * 8 ≤ tempOf d s)

/-- Items 2 and 3 of R339 with the first `k` slices of `order` as targets, one more each time a context fits nowhere. -/
def tryTargets (d : Dev) (t : Time) (limit : Nat) (active order : List Nat) (ls : List Load) : Nat → Nat → List Plan
  | 0, _ => []
  | fuel + 1, k =>
    let targets := order.take k
    if order.length < k then []
    else
      let moved := ls.filter fun x => active.contains x.unit && !targets.contains x.unit && movable d t x
      match assign limit moved (targets.map (binOf d)) with
      | some l => l
      | none => tryTargets d t limit active order ls fuel (k + 1)

/-- The moves that packing makes (14 R339). -/
def packMoves (d : Dev) (t : Time) (limit spare : Nat) : List Plan :=
  let ls := loads d
  let n := ffd limit ls
  let active := slicesIn d 0
  if active.length + (slicesIn d 1).length ≤ n + spare then []
  else tryTargets d t limit active (byWear d (active.filter fun s => !isHot d s)) ls 33 n

/-- The moves that bring an overloaded slice under the limit, largest contexts first (log entry 31). -/
def shedOne (d : Dev) (t : Time) (limit : Nat) (s : Nat) : List Plan :=
  let others := fun c => (slicesIn d c).filter (· != s)
  let active := (others 0).map (binOf d)
  let idle := (others 1).map (binOf d)
  let step := fun (a : Nat × List SliceBin × List SliceBin × List Plan) (x : Load) =>
    let (load, act, idl, l) := a
    if load ≤ limit then a
    else match leastLoaded limit x act with
      | some b => (load - x.kbps, act.map (fun c => if c.s = b.s then c.add x else c), idl, l ++ [{ t := x.t, dst := b.s }])
      | none => match leastLoaded limit x idl with
        | some b => (load - x.kbps, act ++ [b.add x], idl.filter (fun c => c.s != b.s), l ++ [{ t := x.t, dst := b.s }])
        | none => a
  (((loads d).filter fun x => x.unit == s && movable d t x).foldl step (sliceKbps d s, active, idle, [])).2.2.2

def shedMoves (d : Dev) (t : Time) (limit : Nat) : List Plan :=
  ((slicesIn d 0).filter fun s => decide (limit < sliceKbps d s)).flatMap (shedOne d t limit)

/-- Is the migration engine out of service (14 R341)? -/
def engineDown (d : Dev) : Bool := d.aon.coll.fenced.contains 0x52

/-- The governor's moves replace those it decided before; a host's stay. -/
def setPlan (l : List Plan) (d : Dev) : Dev :=
  let host := d.fab.plan.filter (·.handle.isSome)
  d.onFab fun f => { f with plan := host ++ l.filter fun p => !host.any fun q => q.t == p.t }

/-! ### Retirement, spares and rotation (14 R339, R340, R355) -/

/-- IDLE slices that are past idle_hold retire, but for the spares, the least-worn IDLE ones. -/
def retireIdle (t : Time) (d : Dev) : Dev :=
  let idle := byWear d (slicesIn d 1)
  (idle.drop (spareSlices d)).foldl (fun d s =>
    if (d.slice s).since + sec (idleHold d) ≤ t then sliceTo s .retain t t d else d) d

/-- Wakes the least-worn RETAIN or OFF slices while fewer than the spares are IDLE or waking. -/
def wakeSpares (t : Time) : Nat → Dev → Dev
  | 0, d => d
  | n + 1, d =>
    let ready := (slicesIn d 1).length + ((List.range 32).filter fun s => (d.slice s).st == .waking).length
    if spareSlices d ≤ ready then d
    else match leastWorn d fun s => !d.aon.coll.fenced.contains s && ((d.slice s).st == .retain || (d.slice s).st == .off) with
      | some s => wakeSpares t n (wakeSlice s t d)
      | none => d

/-- The rotation check (14 R355): the ACTIVE slice of highest wear moves into the RETAIN or OFF slice of lowest wear. -/
def rotate (t : Time) (d : Dev) : Dev :=
  let p := rotPeriod d
  if !bitAt d.aon.pwr.policyIn 28 ∨ t < d.aon.gov.lastRot + sec (3600 * p) then d
  else
    let d := d.onGov fun g => { g with lastRot := t }
    let low := byWear d (slicesIn d 2 ++ (slicesIn d 3).filter fun s => (d.slice s).st != .waking)
    match (byWear d (slicesIn d 0)).getLast?, low.head? with
    | some a, some b =>
      if engineDown d ∨ sliceWear d a ≤ sliceWear d b + 256 * 3600 * p then d
      else
        let d := govEvent 0x08 a a b a t (wakeSlice b t d)
        let l := ((loads d).filter fun x => x.unit == a).map fun x => ({ t := x.t, dst := b } : Plan)
        setPlan ((d.fab.plan.filter fun q => q.handle.isNone && !l.any fun y => y.t == q.t) ++ l) d
    | _, _ => d

/-- PACKING_EVALUATION: at each SFN multiple of 8,000, with pack_en set. -/
def execPackingEvaluation (s : State) : Out :=
  s.run (gRun fun t d =>
    if !atSfn 8000 t ∨ !bitAt d.aon.pwr.policyIn 31 then d
    else
      let lost := if d.fab.boot.running then (d.fab.tribs.filter fun e => e.2.unit == 0xFF).map (·.1) else []
      let d := lost.foldl (fun d n => recreateTrib n t d) d
      let early := decide (d.aon.gov.step < 2)
      let hi := packHi d
      let moves := packMoves d t hi (spareSlices d)
      let srcs := (moves.filterMap fun p => (d.trib p.t).map (·.unit)).eraseDups
      let keeps := fun (p : Plan) => !srcs.contains p.dst && (match d.trib p.t with | some x => !srcs.contains x.unit | none => false)
      let shed := if early then (shedMoves d t hi).filter keeps else []
      let d := setPlan (if engineDown d then [] else moves ++ shed) d
      let d := retireIdle t d
      if early then rotate t (wakeSpares t 8 d) else d)

/-- SLICE_OFF: retain_hold × 10 s in RETAIN; 255 is never. -/
def execSliceOff (n : Nat) (s : State) : Out :=
  s.run (gRun fun t d =>
    let x := d.slice n
    if n < 32 ∧ x.st = .retain ∧ retainHold d ≠ 255 ∧ x.since + sec (10 * retainHold d) ≤ t then sliceTo n .off t t d else d)

/-! ### The cap ladder (14 R347, R348) -/

/-- A step is taken or released: PWR_LIVE.step and the event. -/
def setStep (sub k : Nat) (t : Time) (d : Dev) : Dev :=
  let o := d.aon.gov.step
  govEvent sub 0xFF 0 k o t (d.onGov fun g => { g with step := k })

/-- gov_scale changes at the boundary: every bucket is brought up to it first (12 R301). -/
def setScale (k : Nat) (t : Time) (d : Dev) : Dev :=
  let o := d.aon.gov.scale
  if k = o then d else govEvent 0x07 0xFF 0 k o t ((settleAll t d).onGov fun g => { g with scale := k })

/-- One step while the cap or the thermal target binds: the first that is not exhausted. -/
def takeStep (t : Time) (d : Dev) : Dev :=
  let g := d.aon.gov
  let moves := if bitAt d.aon.pwr.policyIn 31 && !engineDown d then packMoves d t 390000000 0 else []
  if !moves.isEmpty then setPlan moves (setStep 0x05 (max g.step 1) t d)
  else if bitAt d.aon.pwr.policyIn 30 && decide (avsFloor d < g.margin) && decide (g.holdUntil ≤ t) then
    setStep 0x05 (max g.step 2) t (d.onGov fun g => { g with margin := max (avsFloor d) (g.margin - 5) })
  else if 1 < g.scale then setStep 0x05 (max g.step 3) t (setScale (max 1 (g.scale - 32)) t d)
  else d

/-- One release, in reverse order. -/
def releaseStep (t : Time) (d : Dev) : Dev :=
  let g := d.aon.gov
  if g.scale < 256 then
    let k := min 256 (g.scale + 32)
    setStep 0x06 (if k < 256 then 3 else if g.margin < 30 then 2 else 1) t (setScale k t d)
  else if g.margin < 30 then
    let k := min 30 (g.margin + 5)
    setStep 0x06 (if k < 30 then 2 else 1) t (d.onGov fun g => { g with margin := k })
  else setStep 0x06 0 t d

/-- CAP_EVALUATION: at each SFN multiple of 800, on the window just ended. -/
def execCapEvaluation (s : State) : Out :=
  s.run (gRun fun t d =>
    if !atSfn 800 t then d
    else
      let p := d.aon.sense.power.toNat
      let tm := d.aon.sense.tmax.toInt
      let en := bitAt d.aon.pwr.capIn 31
      let capB := en && decide (capW d < p)
      let thB := decide ((thermTarget d : Int) * 8 < tm)
      let g := d.aon.gov
      let d := if capB && g.episode.isNone then
          pwrLatch 23 (d.onGov fun g => { g with episode := some t, unatt := false })
        else if capB then d else d.onGov fun g => { g with episode := none }
      let d := if thB && !g.thermBind then pwrLatch 22 d else d
      let low := (!en || decide (p + capHyst d ≤ capW d)) && decide (tm ≤ ((thermTarget d : Int) - 3) * 8)
      let d := d.onGov fun g => { g with thermBind := thB, goodRun := if low then min 300 (g.goodRun + 1) else 0 }
      if capB || thB then
        let due := match d.aon.gov.episode with | some b => capB && decide (b + sec 2 ≤ t) && !d.aon.gov.unatt | none => false
        if due then setStep 0x05 4 t (fault 0x16B 0 t (d.onGov fun g => { g with unatt := true })) else takeStep t d
      else if d.aon.gov.step ≠ 0 ∧ d.aon.gov.goodRun = 300 then releaseStep t d
      else d)

/-! ### Status (14 R353, R356) -/

/-- GOV_STATUS_GET. -/
def cmdGovStatusGet : Cmd := {
  code := 0x0902, n := 8, kind := .query, vf := true, i2c := true
  run := fun _ d =>
    let g := d.aon.gov
    let x := d.aon.sense
    let each := fun (k : Nat) (f : Nat → List Word) => (List.range 32).flatMap fun s => item k s (f s)
    { dev := d
      items := each 1 (fun s => [wd (sliceCode d s)]) ++ each 2 (fun s => [wd (sliceKbps d s)])
        ++ each 3 (fun s => words64 (sliceWear d s)) ++ each 4 (fun s => [wd (x.temps.getD s 0).toNat])
        ++ (d.fab.migs.mapIdx fun i m => item 5 i [wd m.t, wd m.src, wd m.dst]).flatten
        ++ item 6 0 [wd g.step] ++ item 7 0 [wd g.margin] ++ item 8 0 [wd g.scale] ++ item 9 0 [wd g.batch]
        ++ item 10 0 (wd x.power.toNat :: timeWords x.powerTime) ++ item 11 0 (wd x.tmax.toNat :: timeWords x.tmaxTime) } }

/-- GOV_LEDGER_GET: each entry, its share of the rated life in millionths, and its mean AF in 1/256. -/
def cmdGovLedgerGet : Cmd := {
  code := 0x0903, n := 8, kind := .query, vf := true, i2c := true
  run := fun x d =>
    let e := fun s => tgetD d.aon.wear s {}
    { dev := d
      items := (List.range 64).flatMap (fun s => item 1 s (words64 (e s).wear))
        ++ (List.range 64).flatMap (fun s => item 2 s [wd ((e s).wear * 1000000 / ratedLife)])
        ++ (List.range 64).flatMap (fun s => item 3 s [wd ((e s).meanAf x.t)]) } }

end Sys2Proof.Machine
end

