-- ==== Sys2Proof/Machine/MboxEvents.lean ====
section
/-!
DEFINITION. Firmware's own posts and the timers of channels (15 R376, R377; 16 R386-R392).
-/
namespace Sys2Proof.Machine

/-- May firmware post on a channel: it is free, and its sender is a running core (15 R377)? -/
def mayFwPost (d : Dev) (ch : Nat) : Bool :=
  let b := (d.chan ch).bind
  b.valid && decide (16 ≤ b.sender) && decide (b.sender ≤ 19) && !(d.chan ch).posted && (lowestRunning d).isSome

/-- Firmware writes a message and posts it. -/
def fwPost (ch : Nat) (ws : List Word) (t : Time) (d : Dev) : Dev :=
  post ch t (d.modChan ch fun x => { x with data := ws ++ x.data.drop ws.length })

/-- Posts the oldest outgoing message if it is of the kind named. -/
def postOut (ch : Nat) (k : OutKind) : Op := fun t d =>
  match (d.chan ch).outs with
  | o :: r =>
    if mayFwPost d ch && o.kind == k then fwPost ch o.ws t (d.modChan ch fun x => { x with outs := r }) else d
  | [] => d

/-- COMPLETION_POST (16 R386; 15 R377). -/
def execCompletionPost (ch : Nat) (s : State) : Out := s.run (gFw (postOut ch .completion))

/-- REPLY_FRAGMENT_POST (16 R387). -/
def execReplyFragmentPost (ch : Nat) (s : State) : Out := s.run (gFw (postOut ch .reply))

/-- NOTIFICATION_POST (16 R389): after any count of lost notifications. -/
def execNotificationPost (ch : Nat) (s : State) : Out :=
  s.run (gFw fun t d =>
    match (d.chan ch).notes with
    | o :: r =>
      if mayFwPost d ch && (d.chan ch).lostNotes == 0 then fwPost ch o.ws t (d.modChan ch fun x => { x with notes := r }) else d
    | [] => d)

/-- NOTIFY_LOST (15 R377; 16 R389): W1 holds the count. -/
def execNotifyLost (ch : Nat) (s : State) : Out :=
  s.run (gFw fun t d =>
    let n := (d.chan ch).lostNotes
    if mayFwPost d ch && n != 0 then
      fwPost ch (pad 16 [fwHeader 0x04 16, wd n]) t (d.modChan ch fun x => { x with lostNotes := 0 })
    else d)

/-- CROSSED_TIMEOUT (15 R376): 1 ms after the later post with neither channel acknowledged. -/
def execCrossedTimeout (ch : Nat) (s : State) : Out :=
  s.run (gRun fun t d =>
    match (d.chan ch).crossTimer with
    | some b =>
      if (d.chan ch).posted && (d.chan (d.chan ch).bind.pair).posted && decide (b + 262144 ≤ t) then cross ch d else d
    | none => d)

/-- FRAGMENT_TIMEOUT (16 R392): a gap of 1 s discards the fragments held. -/
def execFragmentTimeout (ch : Nat) (s : State) : Out :=
  s.run (gFw fun t d =>
    match (d.chan ch).frag with
    | some f => if f.last + sec 1 ≤ t then d.modChan ch fun x => { x with frag := none } else d
    | none => d)

/-- CS_TIMEOUT (16 R390): 10 s without a new member or a commit discards the set. -/
def execCsTimeout (cs : Nat) (s : State) : Out :=
  s.run (gFw fun t d => d.onFw fun f =>
    { f with sets := f.sets.filter fun x => !(x.num == cs && decide (x.last + sec 10 ≤ t)) })

end Sys2Proof.Machine
end

