-- ==== Sys2Proof/Machine/Migration.lean ====
section
/-!
DEFINITION. Migrations of contexts between slices (14 R341-R346; 11 R280). The model holds one context for both copies:
they see the same input, and only the owner changes (log entry 30).
-/
namespace Sys2Proof.Machine

/-- Can a slice take a context (14 R341)? -/
def canTake (d : Dev) (n dst : Nat) : Bool :=
  match d.trib n with
  | some x => decide (dst < 32) && sliceUp d dst && x.unit != dst
      && fitsLoad d dst (countedRate x + sumBy (·.kbps) (placesOf d n)) 400000000
      && fitsWords d dst (sramWords x + guardOf d n + sumBy (·.words) (placesOf d n))
  | none => false

/-- GOV_MIGRATE: completion at cut-over, or with the abort cause. -/
def cmdGovMigrate : Cmd := {
  code := 0x0901, n := 8, kind := .action, mask := [(4, tMask), (5, bitsMask 4 0)]
  chk := fun x d =>
    let n := fld (x.w 4) 16 0
    firstErr [
      need (match d.trib n with | some y => decide (y.unit < 32) | none => false) (badArg 4 0),
      need (!(d.fab.migs.any (·.t == n) || d.fab.plan.any fun p => p.t == n && p.handle.isSome)) ⟨rcConflict, n⟩,
      need (!engineDown d && canTake d n (fld (x.w 5) 4 0)) (noResource 1)]
  run := fun x d =>
    let h := nextHandle d
    let n := fld (x.w 4) 16 0
    let p : Plan := { t := n, dst := fld (x.w 5) 4 0
                      handle := some ((outChan d x.m).getD 32, h, BitVec.ofNat 8 (fld (x.w 0) 15 8)) }
    { dev := (d.onFab fun f => { f with plan := p :: f.plan.filter fun q => q.t != n }).onFw fun f => { f with nextHandle := (h + 1) % 65536 }
      code := rcDeferred, detail := h } }

/-- The migration of a context. -/
def migOf (d : Dev) (n : Nat) : Option Mig := d.fab.migs.find? (·.t == n)

def setMig (n : Nat) (f : Mig → Mig) (d : Dev) : Dev :=
  d.onFab fun b => { b with migs := b.migs.map fun m => if m.t = n then f m else m }

/-- Do the limits of R341 admit one more? -/
def engineFree (d : Dev) (src dst : Nat) : Bool :=
  let ms := d.fab.migs
  !engineDown d && decide (ms.length < 16) && decide ((ms.filter (·.src == src)).length < 4)
    && decide ((ms.filter (·.dst == dst)).length < 4) && !ms.any fun m => m.src == dst || m.dst == src

/-- MIGRATION_ARM: firmware reserves the destination and arms the engine for a move decided. -/
def execMigrationArm (n dst : Nat) (s : State) : Out :=
  s.run (gFw fun t d =>
    match d.trib n, d.fab.plan.find? fun p => p.t == n && p.dst == dst with
    | some x, some p =>
      if 32 ≤ x.unit ∨ x.migrating ∨ !canTake d n dst ∨ !engineFree d x.unit dst then d
      else
        let m : Mig := { t := n, src := x.unit, dst := dst, since := t, handle := p.handle, entry := freeEntry d dst }
        let d := d.onFab fun f => { f with plan := f.plan.filter fun q => q != p, migs := f.migs ++ [m] }
        let d := d.modTrib n fun y => { y with migrating := true, shadow := dst }
        settleSlice dst t (govEvent 0x02 x.unit n 0 dst t d)
    | _, _ => d)

/-- MIGRATION_SNAPSHOT: B0, a container frame boundary at least 2 DFE frames after arming. -/
def execMigrationSnapshot (n : Nat) (s : State) : Out :=
  s.run (gRun fun t d =>
    match migOf d n with
    | some m => if m.st = .armed ∧ m.since + 2 * frame ≤ t then setMig n (fun m => { m with st := .loaded, since := t }) d else d
    | none => d)

/-- 4 µs in phase units (14 R342). -/
def shadowWait : Nat := 1049

/-- Do the outputs of the two copies differ in a block that neither found indeterminate (09 R230; 14 R343)? -/
def shadowDiff (bs : List ShadowBlock) : Bool := bs.any fun b => b.src != b.dst && !b.srcIndet && !b.dstIndet

/-- MIGRATION_SHADOW_FRAME: B1, at least 4 µs after B0; a difference aborts with MISMATCH (14 R343). -/
def execMigrationShadowFrame (n : Nat) (bs : List ShadowBlock) (s : State) : Out :=
  s.run (gRun fun t d =>
    match migOf d n with
    | some m =>
      if m.st ≠ .loaded ∨ t < m.since + shadowWait then d
      else if shadowDiff bs then abortMig m .mismatch t d
      else setMig n (fun m => { m with st := .shadow, since := t }) d
    | none => d)

/-- MIGRATION_COMMIT: C, with no abort recorded. -/
def execMigrationCommit (n : Nat) (s : State) : Out :=
  s.run (gRun fun t d =>
    match migOf d n with
    | some m => if m.st = .shadow then setMig n (fun m => { m with st := .committed, since := t }) d else d
    | none => d)

/-- MIGRATION_CUTOVER: B2. The destination owns the context; one fenced since C leaves it without an owner. -/
def execMigrationCutover (n : Nat) (s : State) : Out :=
  s.run (gRun fun t d =>
    match migOf d n, d.trib n with
    | some m, some x =>
      if m.st ≠ .committed then d
      else
        let u := if d.aon.coll.fenced.contains m.dst then 0xFF else m.dst
        let rx := storeBase d m.dst x.esRx.size
        let d := d.modTrib n fun y => { y with unit := u, entry := m.entry, migrating := false, shadow := 0, gen := y.gen + 1, esRx := { y.esRx with base := rx } }
        let tx := storeBase d m.dst x.esTx.size
        let d := d.modTrib n fun y => { y with esTx := { y.esTx with base := tx } }
        let d := setMig n (fun m => { m with st := .cutOver, since := t }) d
        let d := d.onGov fun g => { g with mismatches := tdel g.mismatches n }
        let d := govEvent 0x03 m.src n m.dst m.src t d
        match m.handle with
        | some (ch, h, tag) => sendOut ch .completion (completionWords 0x0901 tag.toNat rcOk h 0xFF 3 t 0) d
        | none => d
    | _, _ => d)

/-- MIGRATION_SOURCE_FREE: one frame after B2 the source entry and its stores are freed. -/
def execMigrationSourceFree (n : Nat) (s : State) : Out :=
  s.run (gRun fun t d =>
    match migOf d n with
    | some m =>
      if m.st ≠ .cutOver then d
      else settleSlice m.src t (d.onFab fun f => { f with migs := f.migs.filter fun y => y.t != n })
    | none => d)

/-- MIGRATION_ABORT: an event of R344 before C. -/
def execMigrationAbort (n : Nat) (cause : AbortCause) (s : State) : Out :=
  s.run (gRun fun t d =>
    match migOf d n with
    | some m => if m.st = .committed ∨ m.st = .cutOver then d else abortMig m cause t d
    | none => d)

end Sys2Proof.Machine
end

