-- ==== Sys2Proof/Machine/Registers.lean ====
section
/-!
DEFINITION. The rows of register accesses (17; 15 R362-R368; 18 R420-R423, R430, R431, R435).
-/
namespace Sys2Proof.Machine

/-- MBX_DATA_WRITE (17 R401; 15 R365). -/
def execMbxDataWrite (a : Acc) (ch i : Nat) (s : State) : Out :=
  s.run (guardWrite a (0x10000 + ch % 64 * 0x100 + 4 * (i % 16)) (writeData (ch % 64) (i % 16) a))

/-- MBX_GO_WRITE (15 R366, R368). -/
def execMbxGoWrite (a : Acc) (ch : Nat) (s : State) : Out :=
  s.run (guardWrite a (0x10040 + ch % 64 * 0x100) (writeCtl (ch % 64) a))

/-- MBX_ACKW_WRITE (15 R367, R374). -/
def execMbxAckwWrite (a : Acc) (ch : Nat) (s : State) : Out :=
  s.run (guardWrite a (0x1004C + ch % 64 * 0x100) (writeAckw (ch % 64) a))

/-- MBX_DATA0_READ (15 R365): a read by the receiver sets taken. -/
def execMbxData0Read (a : Acc) (ch : Nat) (s : State) : Out :=
  s.run (guardRead a (0x10000 + ch % 64 * 0x100) fun _ d =>
    if isReceiver d a.master (ch % 64) && (d.chan (ch % 64)).posted then
      d.modChan (ch % 64) fun x => { x with taken := true }
    else d)

/-- MBX_STS_WRITE (17 R399). -/
def execMbxStsWrite (a : Acc) (ch : Nat) (s : State) : Out :=
  s.run (guardWrite a (0x10048 + ch % 64 * 0x100) (writeMbxSts (ch % 64) a))

/-- IRQ_STS_WRITE (17 R399, R403). -/
def execIrqStsWrite (a : Acc) (s : State) : Out := s.run (guardWrite a 0x20000 (writeIrqSts a))

/-- PWR_STS_WRITE (17 R399, R403). -/
def execPwrStsWrite (a : Acc) (s : State) : Out := s.run (guardWrite a 0x50010 (writePwrSts a))

/-- CLK_STS_WRITE (17 R399, R403). -/
def execClkStsWrite (a : Acc) (s : State) : Out := s.run (guardWrite a 0x60030 (writeClkSts a))

/-- FLT_STS_WRITE (17 R399; 18 R420). -/
def execFltStsWrite (a : Acc) (s : State) : Out := s.run (guardWrite a 0x30000 (writeFltSts a))

/-- REC_STS_WRITE (17 R399, R403). -/
def execRecStsWrite (a : Acc) (s : State) : Out := s.run (guardWrite a 0x70000 (writeRecSts a))

/-- REGISTER_WRITE (17 R398, R7): a write at an offset, an alias word included. -/
def execRegisterWrite (a : Acc) (offset : Nat) (s : State) : Out :=
  s.run (if 0x1000000 ≤ offset then guardAlias a offset (aliasWrite a offset) else guardWrite a offset (regWrite a offset))

/-- BIT_ALIAS_WRITE (17 R404). -/
def execBitAliasWrite (a : Acc) (offset : Nat) (s : State) : Out := s.run (guardAlias a offset (aliasWrite a offset))

/-- IDN_LOCK_WRITE (17 R402; 15 R476). -/
def execIdnLockWrite (a : Acc) (s : State) : Out := s.run (guardWrite a 0x1C (writeIdnLock a))

/-- REMAP_CLR_WRITE (15 R362): the issuing core writes its own LCB_CTL; writing 1 clears remap. -/
def execRemapClrWrite (core : Nat) (data : Word) (s : State) : Out :=
  s.run (gRun fun _ d =>
    if core < 4 && bitAt data 0 && coreRuns d core then d.modCore core fun x => { x with remap := false } else d)

/-- WV_SEL_WRITE (17 R401, R406). -/
def execWvSelWrite (a : Acc) (w : Nat) (s : State) : Out :=
  s.run (guardWrite a (0x40000 + w % 16 * 0x10) (writeWvSel (w % 16) a))

/-- WV_CAPTURE_COMPLETE (17 R406, R407): valid sets, busy clears, the whole value is taken at once. -/
def execWvCaptureComplete (w : Nat) (s : State) : Out :=
  s.run (gFab fun t d =>
    let x := tgetD d.fab.wv w {}
    if !x.busy then d
    else
      let v := wideValue d t x.index.toNat
      let y := { x with busy := false, valid := true, bad := v.isNone, value := BitVec.ofNat 64 (v.getD 0) }
      d.onFab fun f => { f with wv := tput f.wv w y })

/-- DECODE_MISS (15 R358, R359, R361): an access that the matrix admits is no miss, and a fenced core's is not accepted. -/
def execDecodeMiss (x : Miss) (s : State) : Out :=
  s.run (gFab fun t d =>
    if fencedMaster d x.master || busAdmits d x then d else missAt x.master x.addr x.write t d)

/-- FLT_ACK_WRITE (18 R421). -/
def execFltAckWrite (a : Acc) (s : State) : Out := s.run (guardWrite a 0x30014 (writeFltAck a))

/-- FLT_RETURN_WRITE (18 R423). -/
def execFltReturnWrite (a : Acc) (s : State) : Out := s.run (guardWrite a 0x3002C (writeReturn a))

/-- Returns every source of a unit to its initial class with its window closed (18 R423). -/
def returnSources (u : Nat) (d : Dev) : Dev :=
  d.onColl fun c => { c with src := tmap c.src fun n x =>
    if (match srcInfo n with | some i => i.unit == u | none => false)
    then { x with rise := 0, count := 0, winStart := none } else x }

/-- The unit is powered in its idle state (18 R423): a slice IDLE, a bank ON under the governor, a lane group on, with its
lanes in acquisition; an HBM channel rejoins at the next octet boundary. -/
def powerIdle (u : Nat) (t : Time) (d : Dev) : Dev :=
  if u < 0x20 then sliceTo u .idle t t d
  else if u < 0x30 then groupStart (u - 0x20) t d
  else if u < 0x38 then d.onPd fun p => { p with banks := tput p.banks (u - 0x30) ⟨.on, t⟩ }
  else if 0x40 ≤ u ∧ u < 0x50 then d.onColl fun c => { c with rejoin := sadd c.rejoin (u - 0x40) }
  else d

/-- How long a unit's self-test takes (18 R423). -/
def selfTestTime (u : Nat) : Time :=
  if 0x20 ≤ u ∧ u < 0x30 then 8 * frame
  else if u < 0x38 then 16 * frame
  else if u < 0x50 then sec 1
  else 262144

/-- SELF_TEST_COMPLETE (18 R423). -/
def execSelfTestComplete (pass : Bool) (s : State) : Out :=
  s.run (gRun fun t d =>
    let r := d.aon.coll.ret
    if !r.busy || decide (t < d.aon.coll.retSince + selfTestTime r.unit.toNat) then d
    else
      let u := r.unit.toNat
      let d := d.onColl fun c => { c with ret := ⟨r.unit, false, if pass then 1 else 2, r.unit⟩ }
      let d := if pass then
          returnSources u (powerIdle u t (d.onColl fun c => { c with fenced := sdel c.fenced u }))
        else d
      fltLatch 19 d)

/-- FLT_SRC_SEL_WRITE (18 R431). -/
def execFltSrcSelWrite (a : Acc) (s : State) : Out := s.run (guardWrite a 0x30034 (writeSrcSel a))

/-- FLT_SRC_CAPTURE_COMPLETE (18 R431). -/
def execFltSrcCaptureComplete (s : State) : Out :=
  s.run (gAon fun _ d =>
    let x := d.aon.coll.sel
    if !x.busy then d
    else
      let y := d.src x.source.toNat
      d.onColl fun c => { c with sel := { x with
        busy := false, valid := true, pending := y.pending, cls := BitVec.ofNat 2 (srcClass d x.source.toNat)
        inWindow := BitVec.ofNat 24 y.count, total := y.total } })

/-- FLT_INJ_WRITE (18 R430). -/
def execFltInjWrite (a : Acc) (s : State) : Out := s.run (guardWrite a 0x30100 (writeInj a))

/-- REC_SEL_WRITE (18 R435). -/
def execRecSelWrite (a : Acc) (s : State) : Out := s.run (guardWrite a 0x7000C (writeRecSel a))

/-- REC_DATA7_READ (18 R435): outside a capture it moves to the next older slot and starts its capture. -/
def execRecData7Read (a : Acc) (s : State) : Out :=
  s.run (guardRead a 0x7003C fun _ d =>
    if d.aon.fmn.busy then d else startCapture ((d.aon.fmn.slot.toNat + 65535) % 65536) d)

/-- REC_HEAD_HI_READ (18 R435): it captures REC_HEAD_LO. -/
def execRecHeadHiRead (a : Acc) (s : State) : Out :=
  s.run (guardRead a 0x70004 fun _ d => d.onFmn fun r => { r with headLo := wd (r.newest % 2 ^ 32) })

/-- The record in a ring slot: the newest record of number n ≡ slot that the ring holds (18 R433). -/
def ringRecord (d : Dev) (slot : Nat) : Option Rec :=
  (d.aon.fmn.log.take 65536).find? fun r => r.num % 65536 == slot

/-- REC_CAPTURE_COMPLETE (18 R435). A slot that holds no record reads 0. -/
def execRecCaptureComplete (s : State) : Out :=
  s.run (gAon fun _ d =>
    if !d.aon.fmn.busy then d
    else
      let e := ringRecord d d.aon.fmn.slot.toNat
      d.onFmn fun r => { r with
        busy := false, valid := true, bad := false
        numHi := BitVec.ofNat 8 (match e with | some x => x.num / 2 ^ 32 | none => 0)
        data := match e with | some x => x.ws | none => List.replicate 8 0 })

/-- MSIX_HOLD_END (17 R410): events in the hold make one message, which opens a new hold. The row is the hold's end (log
entry 93). -/
def execMsixHoldEnd (fn v : Nat) (s : State) : Out :=
  s.run (gFab fun _ d =>
    let m := tgetD d.fab.irq.msix fn {}
    match m.holds.find? (·.1 == v) with
    | none => d
    | some h =>
      let m := { m with holds := m.holds.filter (·.1 != v) }
      let d := d.onIrq fun q => { q with msix := tput q.msix fn m }
      if h.2 then msixEvent fn v d else d)

end Sys2Proof.Machine
end

