-- ==== Sys2Proof/Machine/SdhTx.lean ====
section
/-!
DEFINITION. Transmitted SDH frames and VCs: the overhead that each carries, pointer generation, the octets, and backward
indications (04 R89-R95, R98, R105-R110; 07 R193; 10 R239). The overhead of the last frame is kept by field code of R394;
0x20 is B1, 0x21 B2, 0x22 M0 and M1.
-/
namespace Sys2Proof.Machine

/-- The octet of a transmitted trace at a position; with no trace set it is open (log entry 8). -/
def traceOctet (tr : Trace) (i : Nat) (d : Dev) : Octet × Dev :=
  match tr.tx with
  | some os => (os.getD (i % max 1 os.length) 0, d)
  | none => (free 8 d, d.used)

/-! ### SDH -/

/-- Source and value of a field. -/
def ohSrc (oh : Tbl (Nat × Nat)) (f : Nat) : Nat × Nat := tgetD oh f (0, 0)

/-- The peer's last bytes of a field; zeros while the peer is out of frame (04 R94). -/
def peerBytes (d : Dev) (x : Port) (f len : Nat) : List Octet :=
  let zero := List.replicate len (0 : Octet)
  match x.sdh.peer with
  | none => zero
  | some q => match d.port q with
    | some y => if y.fr.st = .inFrame then ((y.sdh.last.find? (·.1 == f)).map (·.2)).getD zero else zero
    | none => zero

/-- Octets of a byte group. -/
def groupLen : Nat → Nat
  | 2 => 3
  | 3 => 9
  | _ => 1

/-- The octets that a word adds to a container's supply, under the octets that its frame has had, none before a frame. A
frame that lacks octets when the next one starts is filled up with 0x00 (log entry 67). -/
def supplyStep (len : Nat) (acc : Option Nat × List Octet) (w : LaneWord) : Option Nat × List Octet :=
  let os := octetsOf (lwPayload w)
  if lwTag w = tagFrame then
    (some 4, acc.2 ++ (match acc.1 with | some k => List.replicate (len - k) 0 | none => []) ++ os.take len)
  else match acc.1 with
    | none => acc
    | some k => (some (k + 4), acc.2 ++ os.take (len - k))

/-- The words that wait for a container's transmitter, as octets in hand. -/
def supply (n len : Nat) (d : Dev) : Dev :=
  match d.trib n with
  | none => d
  | some x =>
    let (got, os) := (txWaiting d n).foldl (supplyStep len) (x.txGot, tgetD d.fab.txOct n [])
    (setTxWaiting n [] (d.onFab fun f => { f with txOct := tput f.txOct n os })).modTrib n fun y => { y with txGot := got }

/-- The next octets of a container; what it lacks is sent as 0x00 (DESIGN CHOICE, log entry 67). -/
def takeOctets (n k : Nat) (d : Dev) : List Octet × Dev :=
  let os := tgetD d.fab.txOct n []
  (os.take k ++ List.replicate (k - os.length) 0, d.onFab fun f => { f with txOct := tput f.txOct n (os.drop k) })

/-- The octets of a byte group from the overhead tributary bound to it (04 R95; 05 R133); 0x00 while none is. -/
def boundBytes (ns : List Nat) (group k : Nat) (d : Dev) : List Octet × Dev :=
  match ns.find? fun n => match d.trib n with | some y => y.typ == 0x2D && fld y.pos 3 0 == group | none => false with
  | none => (List.replicate k 0, d)
  | some n =>
    let ws := txWaiting d n
    let poison := (ws.filter lwPoison).length
    let os := ws.flatMap fun w => if lwPoison w then [0xFF, 0xFF, 0xFF, 0xFF] else octetsOf (lwPayload w)
    let d := addCnt (pathKey n) 0x53 poison (d.modTrib n fun y => { y with poisonOut := min (y.poisonOut + poison) 65535 })
    takeOctets n k (setTxWaiting n [] (d.onFab fun f => { f with txOct := tmod f.txOct n [] (· ++ os) }))

/-- E1, F1, D1–D3, D4–D12, E2 and Z0 (04 R90). -/
def groupBytes (p : Nat) (x : Port) (f : Nat) (d : Dev) : List Octet × Dev :=
  let len := if f = 0x11 then 3 * stmN x.typ - 1 else groupLen f
  let (src, v) := ohSrc x.sdh.oh f
  match src with
  | 1 => (List.replicate len (BitVec.ofNat 8 v), d)
  | 2 => boundBytes (tribsOfPort d p) f len d
  | 3 => (peerBytes d x f len, d)
  | _ => (List.replicate len 0, d)

/-- Are K1 and K2 passed from the peer? -/
def kPasses (x : Port) : Bool := (ohSrc x.sdh.oh 0x12).1 == 3

/-- K1 and K2 before MS-RDI: from the protection engine, or passed; with the peer out of frame the last passed value. -/
def kWord (d : Dev) (p : Nat) (x : Port) : Nat :=
  if kPasses x then
    match x.sdh.peer with
    | none => x.sdh.kPass
    | some q => match d.port q with
      | some y =>
        if y.fr.st = .inFrame then
          (match (y.sdh.last.find? (·.1 == 0x12)).map (·.2) with
            | some [a, b] => a.toNat * 256 + b.toNat
            | _ => x.sdh.kPass)
        else x.sdh.kPass
      | none => x.sdh.kPass
  else match groupOfProt d (.port p) with
    | some g => (match d.pg g with | some y => (apsWord d y).toNat % 65536 | none => 0)
    | none => 0

/-! ### Pointer generators (04 R83, R105, R107) -/

/-- The SS bits of a transmitted pointer: by the mode of the port, and for a TU of a TUG-2 its size (log entry 64). -/
def ssBits (sonet : Bool) (x : Trib) : Nat :=
  match x.typ with | 0x13 => 0 | 0x14 => 2 | 0x15 => 3 | _ => if sonet then 0 else 2

/-- The port that a VC is carried on: its own, or its server's. -/
def vcPort (d : Dev) (x : Trib) : Option Port :=
  match x.port with
  | some p => d.port p
  | none => match d.trib x.parent with
    | some y => (match y.port with | some p => d.port p | none => none)
    | none => none

/-- One frame of a pointer generator (04 R105): NDF after a change of source, justification from the store's fill in
units of `unit` words, none within 3 frames of a pointer action. The word sent is kept. Answers 1 for a positive, 2 for a
negative justification. -/
def PtrTx.step (p : PtrTx) (maxV ss : Nat) (fill : Int) (unit : Nat) : PtrTx × Nat :=
  let word := fun (ndf v : Nat) => ndf * 4096 + ss * 1024 + v
  if p.ndf then ({ p with ndf := false, hold := 3, last := word 9 p.value }, 0)
  else if 0 < p.hold then ({ p with hold := p.hold - 1, last := word 6 p.value }, 0)
  else if 2 * (unit : Int) < fill then
    ({ p with value := if p.value = 0 then maxV else p.value - 1, hold := 3, last := word 6 (p.value ^^^ 0x155) }, 2)
  else if fill < -(2 * (unit : Int)) then
    ({ p with value := if p.value = maxV then 0 else p.value + 1, hold := 3, last := word 6 (p.value ^^^ 0x2AA) }, 1)
  else ({ p with last := word 6 p.value }, 0)

/-- What a VC sends in a pointer frame: its pointer word and the octets of the frame's positions. A change of source starts
the new VC at the pointer's value: what stood in hand goes, and 0x00 fills the positions before it. Under AIS all is ones
(04 R105, R110). -/
def vcFrameTx (n u pre mid post : Nat) (d : Dev) : (Nat × List Octet × List Octet × List Octet × List Octet) × Dev :=
  match d.trib n with
  | none => ((0, [], [], [], []), d)
  | some x0 =>
    let d := supply n (vcLen x0) (takeSig n (refreshBack n d))
    match d.trib n with
    | none => ((0, [], [], [], []), d)
    | some x =>
      let sonet := match vcPort d x with | some y => y.sdh.sonet | none => false
      let (p, j) := x.ptrTx.step (ptrMax x.typ x.port.isNone) (ssBits sonet x) (txFill d n x) (unitWords x)
      let ais := x.tx == .auAis || x.tx == .tuAis
      let d := if j = 0 || ais then d else addCnt (pathKey n) (0x23 + j) 1 d
      let ndf := x.ptrTx.ndf
      let (a, d) := takeOctets n (pre * u) d
      let d := if ndf then (d.onFab fun f => { f with txOct := tput f.txOct n (List.replicate (p.value * u) 0) }).modTrib n
          fun y => { y with txGot := none } else d
      let ((_, b, s, c), d) := ptrOctets u 0 mid post j (takeOctets n) d
      let ones := fun l : List Octet => if ais then l.map fun _ => (0xFF : Octet) else l
      let d := d.modTrib n fun y => { y with
        ptrTx := if ais then { y.ptrTx with last := 0xFFFF } else p, rdiTx := y.backward, jstHold := holdStep y.jstHold (j != 0) }
      ((if ais then 0xFFFF else p.last, ones a, ones b, ones s, ones c), d)

/-! ### Frames of an STM-N (04 R89-R93, R101, R102, R110) -/

/-- The octets of a pointer word, first H1. -/
def ptrPair (w : Nat) : Octet × Octet := (BitVec.ofNat 8 (w / 256), BitVec.ofNat 8 w)

/-- H1 and H2 of an AU at their places; those of an AU-4 have 1001SS11 and all ones in the places between. -/
def auPointer (n a : Nat) (au3 : Option Nat) (ss w : Nat) : List (Nat × Octet) :=
  let at_ := fun g => rowLen n * 3 + n * g + a
  let (h1, h2) := ptrPair w
  match au3 with
  | some k => [(at_ k, h1), (at_ (3 + k), h2)]
  | none =>
    let y : Octet := if w = 0xFFFF then 0xFF else BitVec.ofNat 8 (0b10010011 + ss * 4)
    [(at_ 0, h1), (at_ 1, y), (at_ 2, y), (at_ 3, h2), (at_ 4, 0xFF), (at_ 5, 0xFF)]

/-- The first-level VC that a port sends in an AU. -/
def sentOfAu (d : Dev) (p key : Nat) : Option Nat :=
  (tribsOfPort d p).find? fun n => match d.trib n with | some y => isVc y.typ && y.txOn && auKeyOf y == key | none => false

/-- Is AU-AIS sent in an AU? -/
def auAisAt (d : Dev) (p key : Nat) : Bool :=
  match (sentOfAu d p key).bind d.trib with | some z => z.tx == .auAis | none => false

/-- One AU of a transmitted frame: pointer bytes and payload at their places. A later AU-4 has the concatenation indication;
an AU of no tributary is unequipped, its payload 0x00 (DESIGN CHOICE, log entry 67). -/
def auTx (p : Nat) (x : Port) (acc : List (Nat × Octet) × Dev) (key : Nat) : List (Nat × Octet) × Dev :=
  let d := acc.2
  let y := { x.sdh with aug := x.sdh.augTx }
  let n := stmN x.typ
  let a := key / 3
  let ss := if x.sdh.sonet then 0 else 2
  let au3 := if augKind y a = 1 then some (key % 3) else none
  if augKind y a = 2 then
    (acc.1 ++ auPointer n a none ss (if auAisAt d p (3 * auHead y a) then 0xFFFF else 0x9000 + ss * 1024 + 1023), d)
  else match sentOfAu d p key with
    | none => (acc.1 ++ auPointer n a au3 ss (0x6000 + ss * 1024 + (if au3.isSome then 0 else 522)), d)
    | some k =>
      let w := auX y a
      let ((ptr, pre, _, neg, post), d) := vcFrameTx k (auUnit w au3) 261 0 522 d
      (acc.1 ++ auPointer n a au3 ss ptr ++ (auPayload n a w au3 [0, 1, 2]).zip pre ++ (auNeg n a w au3).zip neg
        ++ (auPayload n a w au3 [3, 4, 5, 6, 7, 8]).zip post, d)

/-- The working port whose transmitted signal a protection port copies (11 R262). -/
def bridgedPort (d : Dev) (p : Nat) : Option Port :=
  match groupOfProt d (.port p) with
  | none => none
  | some g => match d.pg g with
    | none => none
    | some y => match (if y.typ = 0 then y.ws.head? else if y.bridgeNow = 0 then none else y.ws[y.bridgeNow - 1]?) with
      | some m => (match m.o with | .port w => d.port w | _ => none)
      | none => none

/-- The octets of the AUs of a frame: those of the port's own VCs, or those of the last frame of the port that it copies. -/
def ausTx (p : Nat) (x : Port) (d : Dev) : List (Nat × Octet) × Dev :=
  let n := stmN x.typ
  match bridgedPort d p with
  | some w =>
    let os := sdhScramble n w.sdh.txLine
    ((os.zipIdx.filter fun e => decide (9 * n ≤ e.2 % rowLen n) || e.2 / rowLen n == 3).map fun e => (e.2, e.1), d)
  | none => (auKeys x.typ { x.sdh with aug := x.sdh.augTx }).foldl (auTx p x) ([], d)

/-- The transmitter `u` of a port or tributary reads the first waiting words of what it carries (01 R23, R24). -/
def readWaiting (u det : Nat) (carried : Trib → Nat → Bool) (hits : List (Nat × LaneWord)) (t : Time) (d : Dev) : Dev :=
  hits.foldl (fun d e => match d.trib e.1 with
    | some y =>
      if 0x30 ≤ u || !carried y e.1 then d
      else
        let (ws, bad) := firstRead (some e.2) (txWaiting d e.1)
        let d := if ws.isEmpty then d else setTxWaiting e.1 ws d
        if bad then lwParity u (wd det) t d else d
    | none => d) d

/-- The words that the port processor of a port of these types reads. -/
def portReads (types : Nat → Bool) (p : Nat) (hits : List (Nat × LaneWord)) (t : Time) (d : Dev) : Dev :=
  readWaiting (0x20 + lgOfPort d p) p (fun y _ => y.port == some p && (d.port p).any fun x => types x.typ) hits t d

/-- SDH_TX_FRAME: a frame is sent, from the first waiting words as read. B1 covers the line octets of the frame before, B2 those before scrambling (04 R91,
R92). -/
def execSdhTxFrame (port : Nat) (hits : List (Nat × LaneWord)) (s : State) : Out :=
  s.run (gRun fun t d =>
    let d := portReads isSdh port hits t d
    match d.port port with
    | none => d
    | some x =>
      if !isSdh x.typ then d
      else
        let n := stmN x.typ
        let wide := reiWide x.typ x.sdh.reiExt
        let j0 := ohSrc x.sdh.oh 0x10
        let (b, d) := if j0.1 = 3 then ((peerBytes d x 0x10 1).headD 0, d) else traceOctet x.sdh.j0 x.sdh.txJ0 d
        let len := match x.sdh.j0.tx with | some os => max 1 os.length | none => 1
        let back := portBack d port x
        let k := kWord d port x
        let k2 := if back then k / 8 * 8 + 6 else k
        let s1 := ohSrc x.sdh.oh 0x13
        let s1v : Octet := if s1.1 = 1 then BitVec.ofNat 8 s1.2 else BitVec.ofNat 8 (dpllQl d (groupDpll d (lgOfLane x.first))).toNat
        let rei := if (d.layer (lineKey port)).tsf then 0 else min x.sdh.rei (reiMax x.typ x.sdh.reiExt)
        let (groups, d) := [0, 1, 2, 3, 4, 0x11].foldl (fun (acc : Tbl (List Octet) × Dev) f =>
          let (os, d) := groupBytes port x f acc.2
          (acc.1 ++ [(f, os)], d)) ([], d)
        let oh : Tbl (List Octet) := groups ++ [(0x10, [b]), (0x12, natBe 2 k2), (0x13, [s1v]), (0x20, [x.sdh.txB1]),
            (0x21, x.sdh.txB2), (0x22, natBe (if wide then 2 else 1) rei)]
        let (aus, d) := ausTx port x d
        let os := sdhOctets n (x.tx == .msAis) wide oh aus
        let line := sdhScramble n os
        txFrame port t (d.modPort port fun y => { y with
          backward := back
          sdh := { y.sdh with
            txJ0 := (y.sdh.txJ0 + 1) % len, kPass := if kPasses x then k else y.sdh.kPass, txOh := oh, txLine := line
            txB1 := bip8 line, txB2 := bip24 n os } }))

/-! ### Frames of a VC (04 R106-R110; 07 R193; 10 R239) -/

/-- Enhanced RDI in three bits: server, connectivity or payload defect, or none (PRESUMED, log entry 68). -/
def erdiCode (d : Dev) (n : Nat) : Nat :=
  let l := d.layer (pathKey n)
  if l.ssf || hasDef d (pathKey n) .auAis || hasDef d (pathKey n) .auLop then 0b101
  else if hasDef d (pathKey n) .vcUneq || hasDef d (pathKey n) .vcTim then 0b110
  else if hasDef d (pathKey n) .vcPlm then 0b010 else 0b001

/-- The APS nibble of a VC that is the protection member of a group: K3 or K4 [7:4] (04 R109; 11 R259). -/
def vcAps (d : Dev) (n : Nat) : Nat :=
  match groupOfProt d (.trib n) with
  | some g => (match d.pg g with | some y => fld (apsWord d y) 3 0 | none => 0)
  | none => 0

/-- The path overhead of a transmitted frame at its places, first to last byte; the trace in place `i` of its message. -/
def vcPohTx (n : Nat) (x : Trib) (uneq : Bool) (d : Dev) : List Octet × Dev :=
  let ho := isHoVc x.typ
  let l := d.layer (pathKey n)
  let (j, d) := traceOctet (tgetD x.traces (if ho then 2 else 3) {}) x.txMfas.toNat d
  let own := fld (x.chk.getD 3 0) 31 24
  let label := if uneq then 0 else x.txLabel
  let rdi := b2n x.backward
  let code := if l.erdi then erdiCode d n else 0
  let oct := fun v : Nat => BitVec.ofNat 8 v
  if ho then
    let g1 := x.reiTx * 16 + (if l.erdi then code * 2 else rdi * 8)
    let h4 := if carriesTus d n then x.txMfas.toNat % 4 else 0
    ([j, oct own, oct label, oct g1, 0, oct h4, 0, oct (vcAps d n * 16), 0], d)
  else
    let rfi := if (ohSrc x.oh 0x17).1 = 1 then (ohSrc x.oh 0x17).2 % 2 else 0
    ([oct (own / 64 * 64 + x.reiTx % 2 * 32 + rfi * 16 + label % 8 * 2 + rdi), j, 0, oct (vcAps d n * 16 + code * 2)], d)

/-- The four frames of a TU of a TUG-2: V1 to V4 head them (04 R107). -/
def tuMultiframe (c : Nat) (x : Trib) (d : Dev) : Dev :=
  let k := pohStep x
  let ((ptr, a, b, neg, post), d) := vcFrameTx c 1 k k (2 * k) d
  let (h1, h2) := ptrPair ptr
  let v4 : Octet := if ptr = 0xFFFF then 0xFF else 0
  d.modTrib c fun y => { y with tuOut := [h1 :: a, h2 :: b, neg ++ post.take k, v4 :: post.drop k] }

/-- The octets of a TU in one frame of its VC. -/
def tuOctets (c : Nat) (phase : Nat) (d : Dev) : List Octet × Dev :=
  match d.trib c with
  | none => ([], d)
  | some x =>
    if x.typ = 0x12 then
      let ((ptr, a, _, neg, post), d) := vcFrameTx c 1 170 0 595 d
      let (h1, h2) := ptrPair ptr
      let stuff : Octet := if ptr = 0xFFFF then 0xFF else 0
      (h1 :: a.take 85 ++ h2 :: a.drop 85 ++ neg ++ post.take 85
        ++ (List.range 6).flatMap fun r => stuff :: (post.drop (85 * (r + 1))).take 85, d)
    else
      let d := if phase = 0 then tuMultiframe c x d else d
      match d.trib c with
      | none => ([], d)
      | some y => (y.tuOut.getD phase [], d)

/-- The payload of a terminated VC with its TUs, or what its mappers have made, at the places that the path overhead
leaves. -/
def vcBody (n : Nat) (x : Trib) (d : Dev) : List (Nat × Octet) × Dev :=
  let kids := tuKids d n
  if kids.isEmpty then
    let places := (List.range (vcLen x)).filter fun i => i % pohStep x != 0
    let os := tgetD d.fab.payload n []
    (places.zip os, d.onFab fun f => { f with payload := tput f.payload n (os.drop places.length) })
  else kids.foldl (fun (acc : List (Nat × Octet) × Dev) c =>
    match acc.2.trib c with
    | none => acc
    | some y =>
      let (os, d) := tuOctets c (x.txMfas.toNat % 4) acc.2
      (acc.1 ++ (tuPlaces x y).zip os, d)) ([], d)

/-- A frame of a VC that its owner builds: a terminated one from its children, an unequipped one with payload 0x00
(04 R109, R110). Its words go to its carrier. -/
def vcBuild (n : Nat) (d : Dev) : Dev :=
  let d := takeSig n (refreshBack n d)
  match d.trib n with
  | none => d
  | some x =>
    let uneq := x.tx == .uneq
    if !(isTerminated d n || uneq) then d
    else
      let (body, d) := if uneq then ([], d) else vcBody n x d
      let (poh, d) := vcPohTx n x uneq d
      let all := (poh.zipIdx.map fun e => (e.2 * pohStep x, e.1)) ++ body
      let os := (List.range (vcLen x)).map fun i => ((all.find? fun e => e.1 == i).map (·.2)).getD 0
      toCarrier n (frameWords os) (d.modTrib n fun y => { y with
        txMfas := y.txMfas + 1, chk := lset (lset y.chk 2 0) 3 (wd ((vcBip x os).toNat * 2 ^ 24)) })

end Sys2Proof.Machine
end

