-- ==== Sys2Proof/Machine/Partner.lean ====
section
/-!
DEFINITION. PORT_PARTNER_GET: the partner record of a port (03 R80, R477).
-/
namespace Sys2Proof.Machine

/-- Words of a partner value (03 R477). -/
def partnerItem (y : Partner) : List Word :=
  item y.item y.inst (wd (b2n y.valid * 2 ^ 31) :: (if y.valid then y.ws else y.ws.map fun _ => 0) ++ timeWords y.chg)

/-- Words of a trace of a format, 4 octets to a word (04 R98; 16 R388). -/
def fmtWords (fmt : Nat) : Nat := if fmt = 0 then 1 else if fmt = 1 then 4 else 16

/-- How many words the value of an item has that has not become valid (03 R477; 16 R388): 16 for a TTI, 8 for a PHY map
and for a SAPI and DAPI, those of the MSI octets, and those of its format for J0 or J1 (DEDUCED, log entry 97). -/
def partnerLen (d : Dev) (p : Nat) (x : Port) (item inst : Nat) : Nat :=
  match item with
  | 4 => if inst = 9 then 8 else 1
  | 5 => if inst = 9 ∨ (0x100 ≤ inst ∧ inst < 0x200) then 8 else 1
  | 6 => if inst ≤ 1 then 16
    else if inst = 3 then (match topOdu d p with
      | some n => (match d.trib n with
        | some y => ((if y.typ = 0x0A then 2 else 1) * serverSlots d y + 3) / 4
        | none => 0)
      | none => 0)
    else 1
  | 7 =>
    if inst = 0 then fmtWords (j0Fmt x.sdh)
    else if 0x200 ≤ inst then 1
    else fmtWords (match (tribsOfPort d p).find? fun n => (match d.trib n with
        | some y => isVc y.typ && fld y.pos 7 0 == inst - 0x100 | none => false) with
      | some n => (match d.trib n with | some y => jFmt d y | none => 1)
      | none => 1)
  | _ => 1

/-- The values a port has (03 R477), by item and instance. -/
def partnerSlots (d : Dev) (p : Nat) (x : Port) : List (Nat × Nat) :=
  let kids := (tribsOfPort d p).filterMap fun n => d.trib n
  if isEth x.typ && x.lanes != 0 then
    [(1, 0), (1, 1), (1, 2)] ++ (List.range x.lanes).map fun i => (2, i)
  else
    (if x.lanes = 0 then [(3, 0)] else [])
      ++ (if x.typ = 0x18 then [(4, 0)] ++ ((List.range x.phys).map fun i => (4, 1 + i)) ++ [(4, 9)] else [])
      ++ (if x.typ = 0x19 then [(5, 0)] ++ ((List.range x.phys).map fun i => (5, 1 + i)) ++ [(5, 9)] else [])
      ++ (if isOtn x.typ then [(6, 0), (6, 1), (6, 2), (6, 3)] else [])
      ++ (if x.typ = 0x19 then (List.range (kids.filter (·.typ == 0x2B)).length).map fun c => (5, 0x100 + c) else [])
      ++ ((kids.filter fun y => isFlexeClient y.typ).zipIdx.filterMap fun e =>
        if isCarrier e.1 then some (if e.1.typ = 0x2B then 5 else 4, 0x200 + e.2) else none)
      ++ (if isSdh x.typ then
          let as := ((kids.filter fun y => isVc y.typ).map fun y => fld y.pos 7 0).eraseDups
          [(7, 0)] ++ as.flatMap fun a => [(7, 0x100 + a), (7, 0x200 + a)]
        else [])

def cmdPortPartnerGet : Cmd := {
  code := 0x0206, n := 8, kind := .query, vf := true, i2c := true, mask := [(4, portMask)]
  perm := ownsPort, chk := portExists
  run := fun x d =>
    match d.port x.port with
    | none => { dev := d }
    | some p =>
      { dev := d
        items := (partnerSlots d x.port p).flatMap fun k =>
          partnerItem ((partnerOf p k.1 k.2).getD ⟨k.1, k.2, false, List.replicate (partnerLen d x.port p k.1 k.2) 0, 0⟩) } }

end Sys2Proof.Machine
end

