-- ==== Sys2Proof/Machine/Transmit.lean ====
section
/-!
DEFINITION. Transmitted frames of OTN ports and of ODUs: overhead, maintenance signals, FEC, scrambling and FlexO overhead,
and the backward indications (05 R115, R120, R123-R135, R140; 10 R239). `txOh` holds the overhead of the last frame by the
field codes of `oduPlace`.
-/
namespace Sys2Proof.Machine

/-! ### Fields (05 R129-R132) -/

/-- SM, PM or a TCM field by OTUC slice: the TTI octet in slice 1 only, the BIP-8 of the frame before last, and byte 3 with
BEI or BIAE above its lower four bits; during aTSF the BEI is 0 (05 R130, R131; 10 R239). -/
def fieldTx (n : Nat) (tti : Octet) (bips : List (List Octet)) (f : OhField) (tsf : Bool) (low : Nat) : List (List Octet) :=
  (List.range n).map fun k =>
    let bei := if tsf then 0 else if f.biae then 0xB else min (f.bei.getD k 0) 8
    [if k = 0 then tti else 0, (bips.getD 1 []).getD k 0, BitVec.ofNat 8 (bei * 16 + low)]

/-- BEI and BIAE are sent once (05 R131). -/
def OhField.spent (f : OhField) : OhField := { f with bei := [], biae := false }

/-- Octets of a field in slice 1, with 0x00 in the others. -/
def inFirst (n : Nat) (os : List Octet) : List (List Octet) := os :: List.replicate (n - 1) (os.map fun _ => 0)

/-- The octets to put in the slices of a frame: a place, and what each slice has there. -/
abbrev Puts := List (Nat × List (List Octet))

def putSlices (ss : List (List Octet)) (ps : Puts) : List (List Octet) :=
  ss.zipIdx.map fun e => patch e.1 (ps.map fun p => (p.1, p.2.getD e.2 []))

/-- The STAT of an inserted TCM field: 0b001, or 0b010 while IAE is sent. -/
def statOf (x : Trib) : Nat := if 0 < x.iaeLeft then 2 else 1

/-- TCM level `lvl` of a frame: computed, removed, or as it is (05 R132). A maintenance signal is overwritten by INSERT only; a
terminated ODU treats PASS as REMOVE. -/
def tcmPuts (n lvl sl mf : Nat) (x : Trib) (term : Bool) (d : Dev) : Puts × Dev :=
  let f := tgetD x.tcm lvl {}
  let l := d.layer (tcmKey lvl n)
  let at_ := (oduPlace (0x30 + lvl)).1
  if f.source = 1 then
    let (b, d) := traceOctet (tgetD x.traces (5 + lvl) {}) (mf % 64) d
    let bdi := f.sink == 2 && (l.tsf || l.ssf)
    ([(at_, fieldTx sl b x.txBips f l.tsf (b2n bdi * 8 + statOf x))],
      d.modTrib n fun y => { y with tcm := tput y.tcm lvl f.spent })
  else if x.tx == .normal && (f.source == 2 || term) then ([(at_, List.replicate sl [0, 0, 0])], d)
  else ([], d)

/-- APS/PCC: the level of a group's protection member in its frames, else zeros, or passed (05 R129, R134; 11 R259). -/
def apsTx (d : Dev) (n mf : Nat) (term : Bool) : List Octet :=
  match groupOfProt d (.trib n) with
  | none => if term || (groupOf d (.trib n)).isSome then [0, 0, 0, 0] else []
  | some g => match d.pg g with
    | none => [0, 0, 0, 0]
    | some y =>
      let lvl := if y.point = 2 then y.tcm else 7
      if mf % 8 = lvl then octetsOf (apsWord d y) else [0, 0, 0, 0]

/-- The PSI octet of a frame in each slice: PT in slice 1, and the MSI of the slots of the slice from PSI [2] on (05 R135). -/
def psiTx (d : Dev) (n sl mf : Nat) (x : Trib) : List Octet :=
  let msi := msiExpected d n x
  (List.range sl).map fun k =>
    if mf = 0 then (if k = 0 then BitVec.ofNat 8 ((ownPt d n x).getD 0) else 0)
    else if mf = 1 then 0
    else ((if x.typ = 0x0A then (msi.drop (20 * k)).take 20 else msi).flatten).getD (mf - 2) 0

/-- The fields of a terminated ODU besides TCM: PM, FTFL, PSI, GCC1 and GCC2. -/
def termPuts (n sl mf : Nat) (x : Trib) (d : Dev) : Puts × Dev :=
  let l := d.layer (pathKey n)
  let (b, d) := traceOctet (tgetD x.traces 5 {}) (mf % 64) d
  let (f, d) := traceOctet (tgetD x.traces 0x10 {}) mf d
  let gcc := fun (k : Nat) (d : Dev) => if (ohSrc x.oh k).1 = 2 then boundBytes (kidsOf d n) k 2 d else ([0, 0], d)
  let (g1, d) := gcc 6 d
  let (g2, d) := gcc 7 d
  let at_ := fun k => (oduPlace k).1
  ([(at_ 0x30, fieldTx sl b x.txBips x.pm l.tsf (b2n x.backward * 8 + 1)), (at_ 0x39, inFirst sl [f]),
    (at_ 0x3A, (psiTx d n sl mf x).map fun o => [o]), (at_ 0x06, inFirst sl g1), (at_ 0x07, inFirst sl g2)],
    d.modTrib n fun y => { y with pm := y.pm.spent })

/-- What an ODU's owner or port puts in a frame of it (05 R129, R132, R140). -/
def oduPuts (n sl mf : Nat) (x : Trib) (term : Bool) (d : Dev) : Puts × Dev :=
  let normal := x.tx == .normal
  let (own, d) := if term && normal then termPuts n sl mf x d else ([], d)
  let aps := if normal then apsTx d n mf term else []
  let (tcm, d) := (List.range 6).foldl (fun (acc : Puts × Dev) i =>
    let (p, d) := tcmPuts n (i + 1) sl mf x term acc.2
    (acc.1 ++ p, d)) ([], d)
  (own ++ (if aps.isEmpty then [] else [((oduPlace 0x38).1, inFirst sl aps)]) ++ tcm, d)

/-! ### Frames of an ODU -/

/-- The octet that a maintenance signal repeats (05 R140). -/
def sigOctet : TxSig → Option Octet
  | .oduAis => some 0xFF
  | .oduOci => some 0x66
  | .oduLck => some 0x55
  | _ => none

/-- The JC octets of the client whose turn a frame is, in columns 15 and 16: a client of slots in the frame of its last slot
in the multiframe, JC1 to JC3 in column 16 and JC4 to JC6 in column 15 of rows 1 to 3 (log entry 70). -/
def jcPuts (d : Dev) (n mf : Nat) (x : Trib) : List (Nat × List Octet) :=
  let slots := max 1 (serverSlots d x)
  let turn := (kidsOf d n).find? fun c => match d.trib c with
    | some y => y.typ != 0x2D && (!isOdu y.typ || (tsSlots y.tsMap).getLast? == some (mf % slots))
    | none => false
  match turn.bind d.trib with
  | some y => (List.range 3).flatMap fun r =>
      [(3824 * r + 15, [y.mapJc.getD r 0]), (3824 * r + 14, [y.mapJc.getD (3 + r) 0])]
  | none => []

/-- The frame of an ODU that is terminated here: 0x00 in overhead that nothing fills, and the payload its mappers have made,
15,200 octets of an ODU4 whose last 8 columns are stuff, else 15,232 of each slice (05 R129; 07 R178). -/
def termFrame (n sl mf : Nat) (x : Trib) (d : Dev) : List (List Octet) × Dev :=
  let row := if x.typ = 0x06 then 3800 else 3808
  let os := tgetD d.fab.payload n []
  let slice := fun k => (List.range 4).flatMap fun r =>
    let pay := (os.drop (row * (4 * k + r))).take row
    List.replicate 16 (0 : Octet) ++ pay ++ List.replicate (3808 - pay.length) 0
  let ss := (List.range sl).map slice
  (ss.zipIdx.map fun e => if e.2 = 0 then patch e.1 (jcPuts d n mf x) else e.1,
    d.onFab fun f => { f with payload := tput f.payload n (os.drop (4 * row * sl)) })

/-- The frame of an ODU before its own fields: a maintenance signal, the frame of the terminated working ODU that it copies,
its own, or none where it passes one. -/
def baseFrame (n sl mf : Nat) (x : Trib) (d : Dev) : Option (List (List Octet)) × Dev :=
  match sigOctet x.tx with
  | some o => (some (List.replicate sl (List.replicate 15296 o)), d)
  | none =>
    match (bridgedTrib d n).bind d.trib with
    | some w => if isTerminated d ((bridgedTrib d n).getD 0) then (some w.txFrames, d) else (none, d)
    | none => if isTerminated d n then (let (f, d) := termFrame n sl mf x d; (some f, d)) else (none, d)

/-- The overhead that a frame has, by field. -/
def ohSeen (os : List Octet) : Tbl (List Octet) :=
  ([0x05, 0x06, 0x07] ++ (List.range 7).map (0x30 + ·) ++ [0x38, 0x39, 0x3A, 0x3F]).map fun f => (f, oduField os f)

/-- FAS and MFAS in each slice. -/
def fasPuts (sl : Nat) (mf : Octet) : Puts := [(0, List.replicate sl (fasOctets ++ [mf]))]

/-- A frame of an ODU with its fields, of which its memory is taken up: BIP-8 as transmitted, MFAS, IAE, the checks of its
context (05 R131; 09 R226). -/
def oduSend (n sl : Nat) (mf : Octet) (ss : List (List Octet)) (term : Bool) (d : Dev) : List (List Octet) × Dev :=
  match d.trib n with
  | none => (ss, d)
  | some x =>
    let (ps, d) := oduPuts n sl mf.toNat x term d
    let out := putSlices ss (fasPuts sl mf ++ ps)
    let bips := out.map opuBip
    let b1 := ((x.txBips.headD []).headD 0).toNat
    (out, d.modTrib n fun y => { y with
      txMfas := mf + 1, txBips := (bips :: y.txBips).take 2, iaeLeft := y.iaeLeft - 1, txFrames := out
      txOh := ohSeen (out.headD []), chk := lset (lset y.chk 2 0) 3 (wd ((bips.headD 0).toNat * 2 ^ 24 + b1 * 2 ^ 16)) })

/-- A frame of a lower-order ODU: one that is built here goes to the mapper of its server; one that passes is sent word by
word as it comes. Signals start and stop here (05 R140). -/
def lowOduTx (n : Nat) (t : Time) (d : Dev) : Dev :=
  let d := txCont n t (takeSig n (refreshBack n d))
  match d.trib n with
  | none => d
  | some x =>
    let (base, d) := baseFrame n 1 x.txMfas.toNat x d
    match base with
    | none => d
    | some ss =>
      let (out, d) := oduSend n 1 x.txMfas ss (isTerminated d n) d
      setTxWaiting n (txWaiting d n ++ frameWords (out.headD [])) (d.modTrib n fun y => { y with cn := y.cn + 15296 })

/-- The frame of the ODU of a port, by slice, and its MFAS: that of the port, or of the frame that passes (DEDUCED, log entry
79). Where no whole frame is in hand the ODU is sent as 0x00; a port without an ODU sends ODU-OCI (log entry 67). -/
def topOduTx (p sl : Nat) (x : Port) (t : Time) (d : Dev) : Octet × List (List Octet) × Dev :=
  match topOdu d p with
  | none => (x.otn.txMfas, List.replicate sl (List.replicate 15296 0x66), d)
  | some n =>
    let d := takeSig n (refreshBack n d)
    let d := if x.typ = 0x0D then txCont n t d else d
    let d := if x.tx == .oduAis then d.modTrib n fun y => { y with tx := .oduAis } else d
    match d.trib n with
    | none => (x.otn.txMfas, [], d)
    | some y =>
      let (base, d) := baseFrame n sl x.otn.txMfas.toNat y d
      match base with
      | some ss =>
        let (out, d) := oduSend n sl x.otn.txMfas ss (isTerminated d n) d
        (x.otn.txMfas, out, d)
      | none =>
        let d := supply n (15296 * sl) d
        let whole := decide (15296 * sl ≤ (tgetD d.fab.txOct n []).length)
        let (os, d) := if whole then takeOctets n (15296 * sl) d else (List.replicate (15296 * sl) 0, d)
        let mf := if whole then os.getD 6 0 else x.otn.txMfas
        let (out, d) := oduSend n sl mf (chunks 15296 sl os) false d
        (mf, out, d)

/-! ### FlexO (05 R115, R123) -/

/-- The overhead of a FlexO frame of lane `i`. -/
def flexoOh (x : Port) (i : Nat) (mf : Octet) : FlexoTx :=
  let o := x.otn
  let pids := o.txPids.take x.lanes
  let rpf := x.fr.st != .inFrame || (List.range x.lanes).any fun k => (tgetD o.lanes k {}).lof
  let pid := pids.getD i 0
  { marker := Config.flexoMarker i, mfas := mf, gid := o.txGid, pid := pid, map := pids, rpf := rpf, rest := 0
    crc := Config.flexoCrc ([mf] ++ natBe 3 o.txGid.toNat ++ [pid] ++ pids ++ [BitVec.ofNat 8 (b2n rpf)]) }

/-- The FlexO frames of an OTUCn port that are due: its port frames, which it times by itself (02 R43). -/
def flexoSend (p : Nat) (t : Time) (d : Dev) : Dev :=
  d.modPort p fun x =>
    let q := flexoPeriod
    let k := (t - x.txF.anchor) * q.2 / q.1
    let start := x.txF.anchor + k * q.1 / q.2
    if start ≤ x.txF.start then x
    else
      let f := x.txF.flyTo q k start
      { x with txF := f, otn := { x.otn with
          lanes := (List.range x.lanes).foldl (fun ls i => tmod ls i {} fun l => { l with
            tx := some (flexoOh x i (BitVec.ofNat 8 f.count.toNat)) }) x.otn.lanes } }

/-! ### Frames of a port (05 R115, R120, R125, R129) -/

/-- An OTN port's frame: FAS, MFAS, SM and GCC0 around the ODU, FEC and scrambling. A squelched FlexO lane sends nothing
(05 R140); FlexO framing of an OTUCn is left out (log entry 77). -/
def otnPortTx (p : Nat) (x : Port) (t : Time) (d : Dev) : Dev :=
  let sl := if x.typ = 0x0D then max 1 (portN d x) else 1
  let (mf, ss, d) := topOduTx p sl x t d
  let o := x.otn
  let tsf := (d.layer (secKey p)).tsf
  let back := portBack d p x
  let (b, d) := traceOctet o.tti (mf.toNat % 64) d
  let (gcc, d) := if (ohSrc o.oh 5).1 = 2 then boundBytes (tribsOfPort d p) 5 2 d else ([0, 0], d)
  let sm := fieldTx sl b o.txBips o.sm tsf (b2n back * 8 + b2n (decide (0 < o.iaeLeft)) * 4)
  let out := putSlices ss (fasPuts sl mf ++ [(7, sm), (10, inFirst sl gcc), (12, List.replicate sl [0, 0])])
  let line := if x.tx == .squelch then []
    else if x.typ = 0x0D then out.flatten
    else otuScramble ((rowsOf 3824 (out.headD [])).flatMap (rowEncode (o.fec == 2)))
  let d := d.modPort p fun y => { y with
    backward := back
    otn := { y.otn with
      txMfas := mf + 1, txBips := (out.map opuBip :: o.txBips).take 2, iaeLeft := o.iaeLeft - 1, sm := y.otn.sm.spent
      txOh := ohSeen (out.headD []), txLine := line } }
  if x.typ = 0x0D then flexoSend p t d else txFrame p t d

/-- OTN_TX_FRAME: a transmitted OTU frame of a port, with the ODU it carries, or a lower-order ODU frame, from the first
waiting words as read. -/
def execOtnTxFrame (o : Obj) (hits : List (Nat × LaneWord)) (s : State) : Out :=
  s.run (gRun fun t d =>
    match o with
    | .port p =>
      let d := portReads isOtn p hits t d
      (match d.port p with
      | some x => if isOtn x.typ then otnPortTx p x t d else d
      | none => d)
    | .trib n => (match d.trib n with
      | some x =>
        if isOdu x.typ && x.port.isNone && x.txOn then
          lowOduTx n t (readWaiting x.unit n (fun y m => m != n && y.port.isNone && y.parent == n) hits t d)
        else d
      | none => d)
    | _ => d)

/-! ### Passing ODUs (05 R129, R132; 07 R168; 09 R225, R226) -/

/-- An octet as a switched ODU sends it. -/
def patchedAt (ps : List (Nat × List Octet)) (i : Nat) (o : Octet) : Octet :=
  match ps.find? fun p => decide (p.1 ≤ i) && decide (i < p.1 + p.2.length) with
  | some p => p.2.getD (i - p.1) o
  | none => o

/-- A word of a switched lower-order ODU on its way to the transmit store: the fields that it sets are known once the MFAS has
come, in the second word of a frame. -/
def oduToTx (n : Nat) (w : LaneWord) (t : Time) (d : Dev) : Dev :=
  let first := lwTag w == tagFrame
  let d := if !first then d
    else d.modTrib n fun x => { x with
      txBips := if x.txGot.isSome then ([x.swBip] :: x.txBips).take 2 else x.txBips
      iaeLeft := if x.txGot.isSome then x.iaeLeft - 1 else x.iaeLeft
      txGot := some 0, swBip := 0, txPatch := []
      chk := lset (lset x.chk 2 0) 3 (wd (x.swBip.toNat * 2 ^ 24 + ((x.txBips.headD []).headD 0).toNat * 2 ^ 16)) }
  match d.trib n with
  | none => d
  | some x =>
    match x.txGot with
    | none => d
    | some i =>
      let os := octetsOf (lwPayload w)
      let (ps, d) := if i = 1 then (let (ps, d) := oduPuts n 1 (os.getD 2 0).toNat x false d
                                    (ps.map fun p => (p.1, p.2.headD []), d)) else (x.txPatch, d)
      let sent := os.zipIdx.map fun e => patchedAt ps (4 * i + e.2) e.1
      let bip := sent.zipIdx.foldl (fun b e => if (4 * i + e.2) % 3824 < 14 then b else b ^^^ e.1) x.swBip
      let v := (packWords sent).headD 0
      storeWord ⟨.esTx, n⟩ (lw (lwTag w) v (lwPoison w)) t (d.modTrib n fun y => { y with
        txGot := some (i + 1), swBip := bip, txPatch := ps, chk := lset y.chk 2 (y.chk.getD 2 0 ^^^ v) })

end Sys2Proof.Machine
end

