-- ==== Sys2Proof/Machine/Serve.lean ====
section
/-!
DEFINITION. Every command of R395 by its class and code, the rows of the device, PM, recorder and firmware classes, the
commit of a change set, and the boundaries at which accepted changes apply (02 R40, R46-R53; 15 R374; 16 R390, R391).
-/
namespace Sys2Proof.Machine

/-- The commands of R395 that may be members of a change set or stand alone, but for CS_COMMIT and FW_IMAGE_LOAD. -/
def cmdOf : Nat → Option Cmd
  | 0x0101 => some cmdDeviceInfoGet
  | 0x0103 => some cmdCsAbort
  | 0x0104 => some cmdLastErrorGet
  | 0x0105 => some cmdOwnerSet
  | 0x0106 => some cmdCfgLock
  | 0x0107 => some cmdDeviceConfig
  | 0x0108 => some cmdDeviceStandby
  | 0x0109 => some cmdEcho
  | 0x0201 => some cmdLaneConfig
  | 0x0202 => some cmdPortCreate
  | 0x0203 => some cmdPortDelete
  | 0x0204 => some cmdLaneStatusGet
  | 0x0205 => some cmdPortStatusGet
  | 0x0206 => some cmdPortPartnerGet
  | 0x0207 => some cmdOtnPortStatusGet
  | 0x0208 => some cmdFlexeStatusGet
  | 0x0209 => some cmdTraceSet
  | 0x0210 => some cmdSdhPortConfig
  | 0x0211 => some cmdSdhStructSet
  | 0x0212 => some cmdSdhOhConfig
  | 0x0213 => some cmdOtnPortConfig
  | 0x0214 => some cmdOtnStructSet
  | 0x0215 => some cmdOtnOhConfig
  | 0x0216 => some cmdOduTcmConfig
  | 0x0220 => some cmdEthPortConfig
  | 0x0221 => some cmdFlexeGroupConfig
  | 0x0222 => some cmdFlexeClientSet
  | 0x0223 => some cmdMtnPathConfig
  | 0x0224 => some cmdFgChanCreate
  | 0x0225 => some cmdFgChanResize
  | 0x0226 => some cmdFgChanDelete
  | 0x0227 => some cmdFcGroupConfig
  | 0x0301 => some cmdTribCreate
  | 0x0302 => some cmdTribModify
  | 0x0303 => some cmdTribEnable
  | 0x0304 => some cmdTribDisable
  | 0x0305 => some cmdTribDelete
  | 0x0306 => some cmdOduflexResize
  | 0x0307 => some cmdTribStatusGet
  | 0x0401 => some cmdXcConnect
  | 0x0402 => some cmdXcDisconnect
  | 0x0403 => some cmdXcGet
  | 0x0501 => some cmdPgCreate
  | 0x0502 => some cmdPgModify
  | 0x0503 => some cmdPgDelete
  | 0x0504 => some cmdPgCommand
  | 0x0505 => some cmdPgStatusGet
  | 0x0601 => some cmdSchedConfig
  | 0x0602 => some cmdQueueConfig
  | 0x0603 => some cmdClassMapSet
  | 0x0604 => some cmdPolicerSet
  | 0x0605 => some cmdGateListSet
  | 0x0606 => some cmdQueueStatsGet
  | 0x0607 => some cmdQueueHwmGet
  | 0x0701 => some cmdPmEpochSet
  | 0x0702 => some cmdPmBinGet
  | 0x0703 => some cmdPmTcaSet
  | 0x0704 => some cmdPmLedgerGet
  | 0x0705 => some cmdDefectConfig
  | 0x0801 => some cmdClkSlotConfig
  | 0x0802 => some cmdClkDpllConfig
  | 0x0803 => some cmdClkOutConfig
  | 0x0804 => some cmdClkHistoryReset
  | 0x0805 => some cmdClkDeviceConfig
  | 0x0806 => some cmdClkStatusGet
  | 0x0901 => some cmdGovMigrate
  | 0x0902 => some cmdGovStatusGet
  | 0x0903 => some cmdGovLedgerGet
  | 0x0A01 => some cmdRecRead
  | 0x0A02 => some cmdRecMark
  | 0x0A03 => some cmdRecDumpRead
  | 0x0A04 => some cmdRecDumpClear
  | 0x0B01 => some cmdFwInfoGet
  | 0x0B03 => some cmdFwActivate
  | 0x0B04 => some cmdCertGet
  | 0x0B05 => some cmdAttestQuote
  | 0x0B06 => some cmdCfgDigestGet
  | 0x0B07 => some cmdDebugUnlock
  | _ => none

/-! ### Accepted changes not yet applied (16 R380 items 6 and 7) -/

/-- Commands whose change gives something up. -/
def releases (code : Nat) : Bool := [0x0203, 0x0226, 0x0304, 0x0305, 0x0402, 0x0503].contains code

/-- The device as it stands once the accepted changes of a kind have applied, in the order of acceptance. A change
leaves with what it holds (`place`). -/
def aheadOf (keep : Nat → Bool) (d : Dev) : Dev :=
  d.fab.fw.changes.foldl (fun d c =>
    match cmdOf c.code.toNat with
    | some cmd =>
      if keep c.code.toNat then
        (applyAll cmd c c.trig d).onFw fun f => { f with changes := f.changes.filter fun e => !(e.handle == c.handle && e.mem == c.mem) }
      else d
    | none => d) d

/-- A command whose checks look at what accepted changes will use and release. -/
def Cmd.ahead (c : Cmd) : Cmd :=
  { c with grown := aheadOf fun k => !releases k, settled := aheadOf fun _ => true }

/-- The command of a class and code, with its view of the accepted changes. -/
def cmdFor (c : Nat) : Option Cmd := (cmdOf c).map Cmd.ahead

/-- Every command as firmware finds it by W0: the image of FW_IMAGE_LOAD is read from host memory (log entry 7). -/
def anyCmd (ws : List Word) : Option Cmd :=
  match fld (ws.headD 0) 31 16 with
  | 0x0102 => some (cmdCsCommit cmdFor)
  | 0x0B02 =>
    some (cmdFwImageLoad (Config.hostImage ((ws.getD 4 0).toNat * 2 ^ 32 + (ws.getD 5 0).toNat) (ws.getD 6 0).toNat))
  | c => cmdFor c

def execCsCommit (m : Msg) (s : State) : Out := s.run (etlumRow (cmdCsCommit cmdFor) m)
def execDeviceInfoGet (m : Msg) (s : State) : Out := s.run (etlumRow cmdDeviceInfoGet.ahead m)
def execCsAbort (m : Msg) (s : State) : Out := s.run (etlumRow cmdCsAbort.ahead m)
def execLastErrorGet (m : Msg) (s : State) : Out := s.run (etlumRow cmdLastErrorGet.ahead m)
def execOwnerSet (m : Msg) (s : State) : Out := s.run (etlumRow cmdOwnerSet.ahead m)
def execCfgLock (m : Msg) (s : State) : Out := s.run (etlumRow cmdCfgLock.ahead m)
def execDeviceConfig (m : Msg) (s : State) : Out := s.run (etlumRow cmdDeviceConfig.ahead m)
def execDeviceStandby (m : Msg) (s : State) : Out := s.run (etlumRow cmdDeviceStandby.ahead m)
def execEcho (m : Msg) (s : State) : Out := s.run (etlumRow cmdEcho.ahead m)
def execLaneConfig (m : Msg) (s : State) : Out := s.run (etlumRow cmdLaneConfig.ahead m)
def execPortCreate (m : Msg) (s : State) : Out := s.run (etlumRow cmdPortCreate.ahead m)
def execPortDelete (m : Msg) (s : State) : Out := s.run (etlumRow cmdPortDelete.ahead m)
def execLaneStatusGet (m : Msg) (s : State) : Out := s.run (etlumRow cmdLaneStatusGet.ahead m)
def execPortStatusGet (m : Msg) (s : State) : Out := s.run (etlumRow cmdPortStatusGet.ahead m)
def execPortPartnerGet (m : Msg) (s : State) : Out := s.run (etlumRow cmdPortPartnerGet.ahead m)
def execOtnPortStatusGet (m : Msg) (s : State) : Out := s.run (etlumRow cmdOtnPortStatusGet.ahead m)
def execFlexeStatusGet (m : Msg) (s : State) : Out := s.run (etlumRow cmdFlexeStatusGet.ahead m)
def execTraceSet (m : Msg) (s : State) : Out := s.run (etlumRow cmdTraceSet.ahead m)
def execSdhPortConfig (m : Msg) (s : State) : Out := s.run (etlumRow cmdSdhPortConfig.ahead m)
def execSdhStructSet (m : Msg) (s : State) : Out := s.run (etlumRow cmdSdhStructSet.ahead m)
def execSdhOhConfig (m : Msg) (s : State) : Out := s.run (etlumRow cmdSdhOhConfig.ahead m)
def execOtnPortConfig (m : Msg) (s : State) : Out := s.run (etlumRow cmdOtnPortConfig.ahead m)
def execOtnStructSet (m : Msg) (s : State) : Out := s.run (etlumRow cmdOtnStructSet.ahead m)
def execOtnOhConfig (m : Msg) (s : State) : Out := s.run (etlumRow cmdOtnOhConfig.ahead m)
def execOduTcmConfig (m : Msg) (s : State) : Out := s.run (etlumRow cmdOduTcmConfig.ahead m)
def execEthPortConfig (m : Msg) (s : State) : Out := s.run (etlumRow cmdEthPortConfig.ahead m)
def execFlexeGroupConfig (m : Msg) (s : State) : Out := s.run (etlumRow cmdFlexeGroupConfig.ahead m)
def execFlexeClientSet (m : Msg) (s : State) : Out := s.run (etlumRow cmdFlexeClientSet.ahead m)
def execMtnPathConfig (m : Msg) (s : State) : Out := s.run (etlumRow cmdMtnPathConfig.ahead m)
def execFgChanCreate (m : Msg) (s : State) : Out := s.run (etlumRow cmdFgChanCreate.ahead m)
def execFgChanResize (m : Msg) (s : State) : Out := s.run (etlumRow cmdFgChanResize.ahead m)
def execFgChanDelete (m : Msg) (s : State) : Out := s.run (etlumRow cmdFgChanDelete.ahead m)
def execFcGroupConfig (m : Msg) (s : State) : Out := s.run (etlumRow cmdFcGroupConfig.ahead m)
def execTribCreate (m : Msg) (s : State) : Out := s.run (etlumRow cmdTribCreate.ahead m)
def execTribModify (m : Msg) (s : State) : Out := s.run (etlumRow cmdTribModify.ahead m)
def execTribEnable (m : Msg) (s : State) : Out := s.run (etlumRow cmdTribEnable.ahead m)
def execTribDisable (m : Msg) (s : State) : Out := s.run (etlumRow cmdTribDisable.ahead m)
def execTribDelete (m : Msg) (s : State) : Out := s.run (etlumRow cmdTribDelete.ahead m)
def execOduflexResize (m : Msg) (s : State) : Out := s.run (etlumRow cmdOduflexResize.ahead m)
def execTribStatusGet (m : Msg) (s : State) : Out := s.run (etlumRow cmdTribStatusGet.ahead m)
def execXcConnect (m : Msg) (s : State) : Out := s.run (etlumRow cmdXcConnect.ahead m)
def execXcDisconnect (m : Msg) (s : State) : Out := s.run (etlumRow cmdXcDisconnect.ahead m)
def execXcGet (m : Msg) (s : State) : Out := s.run (etlumRow cmdXcGet.ahead m)
def execPgCreate (m : Msg) (s : State) : Out := s.run (etlumRow cmdPgCreate.ahead m)
def execPgModify (m : Msg) (s : State) : Out := s.run (etlumRow cmdPgModify.ahead m)
def execPgDelete (m : Msg) (s : State) : Out := s.run (etlumRow cmdPgDelete.ahead m)
def execPgCommand (m : Msg) (s : State) : Out := s.run (etlumRow cmdPgCommand.ahead m)
def execPgStatusGet (m : Msg) (s : State) : Out := s.run (etlumRow cmdPgStatusGet.ahead m)
def execSchedConfig (m : Msg) (s : State) : Out := s.run (etlumRow cmdSchedConfig.ahead m)
def execQueueConfig (m : Msg) (s : State) : Out := s.run (etlumRow cmdQueueConfig.ahead m)
def execClassMapSet (m : Msg) (s : State) : Out := s.run (etlumRow cmdClassMapSet.ahead m)
def execPolicerSet (m : Msg) (s : State) : Out := s.run (etlumRow cmdPolicerSet.ahead m)
def execGateListSet (m : Msg) (s : State) : Out := s.run (etlumRow cmdGateListSet.ahead m)
def execQueueStatsGet (m : Msg) (s : State) : Out := s.run (etlumRow cmdQueueStatsGet.ahead m)
def execQueueHwmGet (m : Msg) (s : State) : Out := s.run (etlumRow cmdQueueHwmGet.ahead m)
def execPmEpochSet (m : Msg) (s : State) : Out := s.run (etlumRow cmdPmEpochSet.ahead m)
def execPmBinGet (m : Msg) (s : State) : Out := s.run (etlumRow cmdPmBinGet.ahead m)
def execPmTcaSet (m : Msg) (s : State) : Out := s.run (etlumRow cmdPmTcaSet.ahead m)
def execPmLedgerGet (m : Msg) (s : State) : Out := s.run (etlumRow cmdPmLedgerGet.ahead m)
def execDefectConfig (m : Msg) (s : State) : Out := s.run (etlumRow cmdDefectConfig.ahead m)
def execClkSlotConfig (m : Msg) (s : State) : Out := s.run (etlumRow cmdClkSlotConfig.ahead m)
def execClkDpllConfig (m : Msg) (s : State) : Out := s.run (etlumRow cmdClkDpllConfig.ahead m)
def execClkOutConfig (m : Msg) (s : State) : Out := s.run (etlumRow cmdClkOutConfig.ahead m)
def execClkHistoryReset (m : Msg) (s : State) : Out := s.run (etlumRow cmdClkHistoryReset.ahead m)
def execClkDeviceConfig (m : Msg) (s : State) : Out := s.run (etlumRow cmdClkDeviceConfig.ahead m)
def execClkStatusGet (m : Msg) (s : State) : Out := s.run (etlumRow cmdClkStatusGet.ahead m)
def execGovMigrate (m : Msg) (s : State) : Out := s.run (etlumRow cmdGovMigrate.ahead m)
def execGovStatusGet (m : Msg) (s : State) : Out := s.run (etlumRow cmdGovStatusGet.ahead m)
def execGovLedgerGet (m : Msg) (s : State) : Out := s.run (etlumRow cmdGovLedgerGet.ahead m)
def execRecRead (m : Msg) (s : State) : Out := s.run (etlumRow cmdRecRead.ahead m)
def execRecMark (m : Msg) (s : State) : Out := s.run (etlumRow cmdRecMark.ahead m)
def execRecDumpRead (m : Msg) (s : State) : Out := s.run (etlumRow cmdRecDumpRead.ahead m)
def execRecDumpClear (m : Msg) (s : State) : Out := s.run (etlumRow cmdRecDumpClear.ahead m)
def execFwInfoGet (m : Msg) (s : State) : Out := s.run (etlumRow cmdFwInfoGet.ahead m)
def execFwActivate (m : Msg) (s : State) : Out := s.run (etlumRow cmdFwActivate.ahead m)
def execCertGet (m : Msg) (s : State) : Out := s.run (etlumRow cmdCertGet.ahead m)
def execAttestQuote (m : Msg) (s : State) : Out := s.run (etlumRow cmdAttestQuote.ahead m)
def execCfgDigestGet (m : Msg) (s : State) : Out := s.run (etlumRow cmdCfgDigestGet.ahead m)
def execDebugUnlock (m : Msg) (s : State) : Out := s.run (etlumRow cmdDebugUnlock.ahead m)
def execFwImageLoad (m : Msg) (image : List Octet) (s : State) : Out := s.run (etlumRow (cmdFwImageLoad image) m)

/-- ORPHAN_DONE (15 R374): firmware serves a message whose sender was reset; its result goes to the recorder and in a
notification. An unknown command is answered BAD_OPCODE. -/
def execOrphanDone (ch : Nat) (s : State) : Out :=
  s.run (gFw fun t d =>
    let x := d.chan ch
    if !(decide (ch < 64) && x.posted && x.orphan && (servingCore d ch).isSome) then d
    else match anyCmd x.data with
      | some cmd => serveAs cmd ch t d
      | none => finish ⟨t, ch, x.bind.sender, [x.data]⟩ ⟨d, rcBadOpcode, 0, none⟩)

/-! ### Boundaries -/

/-- Tries one change at a boundary: it applies once its trigger time has come, its bank is armed or shared with a change
of its object that applies here, it is ready, and nothing holds it back (02 R46, R51, R52). `shared` lists the objects
whose banks swap at this boundary. -/
def tryChange (p : Part) (t : Time) (a : Dev × List Obj) (c : Change) : Dev × List Obj :=
  match a.1.fab.fw.changes.find? fun e => e.handle == c.handle && e.mem == c.mem, cmdOf c.code.toNat with
  | some c, some cmd =>
    if c.parts.contains p && decide (c.trig ≤ t) && (c.armed || a.2.contains c.obj) && cmd.ready c a.1
        && !heldBack a.1.fab.fw.changes c p then
      (applyPart cmd c p t a.1, c.obj :: a.2)
    else a
  | _, _ => a

def isPortObj : Obj → Bool
  | .port _ => true
  | _ => false

/-- Every change that applies with a part: port changes before those of containers, each in the order of acceptance
(02 R50). -/
def applyAt (p : Part) (t : Time) (d : Dev) : Dev :=
  let cs := d.fab.fw.changes
  ((cs.filter fun c => isPortObj c.obj) ++ cs.filter fun c => !isPortObj c.obj).foldl (tryChange p t) (d, []) |>.1

/-- The changes that an octet boundary applies, in the order of acceptance (02 R50). -/
def octetChanges (t : Time) (d : Dev) : Dev :=
  if isOctet t then d.fab.fw.changes.foldl (tryChange .octet t) (d, []) |>.1 else d

/-- The 1 ms blocks of Ethernet ports and packet streams end (10 R242). -/
def endBlocks (d : Dev) : Dev :=
  let ks := (d.fab.ports.filter fun e => isEth e.2.typ).map (fun e => secKey e.1)
    ++ (d.fab.tribs.filter fun e => e.2.typ == 0x29).map fun e => pathKey e.1
  ks.foldl (fun d k => (blockPlain k (d.layer k).badFrame d).modLayer k fun l => { l with badFrame := false }) d

/-- OCTET_BOUNDARY: phase 0 of every frame whose SFN is a multiple of 8. Returned HBM channels rejoin their regions,
changes apply in the order of acceptance, and the policy registers take effect (02 R40, R50; 14 R337; 18 R423). -/
def execOctetBoundary (s : State) : Out :=
  s.run (gRun fun t d =>
    if !isOctet t then d
    else
      let d := settleAll t d
      let d := d.onColl fun c => { c with rejoin := [] }
      endBlocks ((octetChanges t d).onPwr fun p => { p with capIn := p.cap, policyIn := p.policy, packIn := p.pack }))

/-- Tributaries whose container frame has its boundaries at an object's frames. -/
def framedBy (d : Dev) (o : Obj) : List Nat := (d.fab.tribs.filter fun e => contSrc d e.1 == o).map (·.1)

/-- Accepted deletions whose disable boundary has come start their drain (07 R191); a fine-grain channel leaves by the
handshake of its carrier. -/
def startDeletes (o : Obj) (t : Time) (d : Dev) : Dev :=
  d.fab.fw.changes.foldl (fun d c =>
    match c.obj with
    | .trib n =>
      if c.code == 0x0305#16 && decide (c.trig ≤ t) && tribSrc d n == o && !heldBack d.fab.fw.changes c .own then
        (match d.trib n with
          | some x => if x.typ = 0x2C || x.drain.any (·.delete.isSome) then d else stopTrib n (some c.handle) t d
          | none => d)
      else d
    | _ => d) d

/-- CONFIG_BANK_SWAP: a frame boundary of an object in one direction, its own or its flywheel's (02 R42-R46, R52).
Octet-boundary changes of the same phase unit apply first (02 R50); boundaries of different objects in one phase unit
come in the order of the queue (log entry 57). -/
def execConfigBankSwap (o : Obj) (dir : Dir) (s : State) : Out :=
  s.run (gRun fun t d =>
    match boundaryAt o dir t d with
    | none => d
    | some d =>
      let d := octetChanges t d
      let ns := framedBy d o
      let d := if dir = .rx then ns.foldl (fun d n => reinitWords n t d) d else d
      let d := applyAt (.frame o dir) t d
      if dir = .rx then startDeletes o t d else d)

/-- CHANGE_ARM: firmware arms a later change once the banks of the earlier ones have swapped (02 R52). -/
def execChangeArm (handle mem : Nat) (s : State) : Out :=
  s.run (gFw fun _ d =>
    let cs := d.fab.fw.changes
    match cs.find? fun c => c.handle == handle && c.mem == mem with
    | some c =>
      if (cs.takeWhile fun e => !(e.handle == handle && e.mem == mem)).any fun e => e.obj == c.obj then d
      else d.onFw fun f => { f with changes := f.changes.map fun e =>
        if e.handle == handle && e.mem == mem then { e with armed := true } else e }
    | none => d)

end Sys2Proof.Machine
end

