-- ==== Sys2Proof/Machine/Stages.lean ====
section
/-!
DEFINITION. The way of lane words through the stages: what a slice does with the words it takes from its stores, the
cross-connect, and the end of a drain (01 R16-R18, R23-R25; 07 R168, R175, R185, R189-R193; 08 R195-R209; 09 R226).
-/
namespace Sys2Proof.Machine

/-! ### Received words at their owner (01 R17; 07 R168) -/

/-- A received word of a switched ODU: the running XOR takes it in, and each destination sends it. -/
def oduWord (n : Nat) (w : LaneWord) (t : Time) (d : Dev) : Dev :=
  let d := d.modTrib n fun x => { x with
    chk := lset x.chk 0 ((if lwTag w = tagFrame then 0 else x.chk.getD 0 0) ^^^ lwPayload w) }
  (rxDests d n).foldl (fun d c => match d.trib c with
    | some y => if y.port.isNone then oduToTx c w t d else storeWord ⟨.esTx, c⟩ w t d
    | none => d) d

/-- A word that a slice takes from a receive store; words under a context that fails its check are poisoned (07 R175). -/
def rxWord (n : Nat) (w : LaneWord) (t : Time) (d : Dev) : Dev :=
  match d.trib n with
  | none => d
  | some x =>
    let w := if x.poisoned then lwPoisoned w else w
    if isVc x.typ then vcWord n w t d
    else if isOdu x.typ then oduWord n w t d
    else (rxDests d n).foldl (fun d c => storeWord ⟨.esTx, c⟩ w t d) d

/-- A read of a receive store: stream segments play out when 4 are held, and 0xFF is sent where none is there (07 R185). -/
def takeRx (n : Nat) (hit : Option LaneWord) (t : Time) (d : Dev) : Dev :=
  let f : FifoId := ⟨.esRx, n⟩
  let ones := lw tagData 0xFFFFFFFF
  match d.trib n with
  | none => d
  | some x =>
    let (w, d) :=
      if !isSegment x then takeFifo f hit t d
      else if (tgetD x.segs (fld x.pos 3 0) {}).held < 4 then (some ones, d)
      else
        let empty := (fifoOf d f).committed == 0
        let (w, d) := takeFifo f hit t d
        (if empty then some ones else w, d)
    match w with | some w => rxWord n w t d | none => d

/-! ### Words for a container (01 R17; 07 R193) -/

/-- A block that a 66B stream sends in place of its own: Local Fault or idle blocks (07 R190; 10 R237). -/
def sentBlock (x : Trib) (a b : LaneWord) : Block66 :=
  match x.tx with
  | .localFault => lfBlock
  | .idle => idleBlock
  | _ => blockOfWords a b

/-- A word of a 66B stream: every second one completes a block. -/
def blockWord (n : Nat) (x : Trib) (w : LaneWord) (d : Dev) : Dev :=
  match x.txAcc with
  | [] => d.modTrib n fun y => { y with txAcc := [w] }
  | a :: _ =>
    let d := d.modTrib n fun y => { y with txAcc := [] }
    let b := sentBlock x a w
    let d := countPoison n (b2n (x.tx == .normal && (lwPoison a || lwPoison w))) d
    if x.method = 2 ∨ x.method = 3 then d.modTrib n fun y => { y with txRes := y.txRes ++ blockBits b }
    else toCarrier n (blockWords b) d

/-- A word that is read from a transmit store: a switched VC's frame, a block, the bits of a mapper, or a word as it is. -/
def txWord (n : Nat) (w : LaneWord) (d : Dev) : Dev :=
  let d := refreshTx n d
  match d.trib n with
  | none => d
  | some x =>
    if isVc x.typ then vcTxWord n w d
    else if x.typ = 0x28 then blockWord n x w d
    else if x.method = 0 then toCarrier n [w] (if isOdu x.typ then countPoison n (b2n (lwPoison w)) d else d)
    else if isOdu x.typ && builtOdu d n x then d
    else
      let v := if lwPoison w && !isOdu x.typ then 0xFFFFFFFF else (lwPayload w).toNat
      countPoison n (b2n (lwPoison w)) (d.modTrib n fun y => { y with txRes := y.txRes ++ natBits 32 v })

/-- A packet of a stream on its way out: as blocks of its container, or as words to its port (07 R186, R193). -/
def sendPacket (n : Nat) (ws : List LaneWord) (d : Dev) : Dev :=
  let d := refreshTx n d
  match d.trib n with
  | none => d
  | some x =>
    let bad := ws.any lwPoison
    if x.method = 7 then
      if x.tx != .normal then toCarrier n (blockWords (if x.tx == .localFault then lfBlock else idleBlock)) d
      else
        let os := packetOctets ws
        toCarrier n (impSend x os bad)
          (countPoison n (b2n bad) (addCnt (pathKey n) 0x42 1 (addCnt (pathKey n) 0x43 os.length d)))
    else toCarrier n ws d

/-! ### Containers of blocks (06 R152-R158) -/

/-- The OAM that a terminated MTN path is to send: BAS with the BIP-8 of the blocks since the last one, REI, RDI and CS, and
the APS of the protection engine (06 R155). -/
def oamOut (d : Dev) (c : Nat) (y : Trib) : Trib :=
  { y with
    swBip := 0
    blk := { y.blk with
      bas := some ⟨y.swBip, y.swBip, BitVec.ofNat 8 y.reiTx, y.backward, y.tx == .localFault⟩, since := 0
      aps := wd (beNat (apsTx d c 7 true)) } }

/-- A block that a FlexE client, an MTN path or a fine-grain channel puts on its slots or positions. A channel's block that is
OG-shaped is replaced and counted (06 R158); after 16,384 blocks an idle block of a terminated path gives way to a BAS
(06 R155). -/
def containerBlock (c : Nat) (b : Block66) (d : Dev) : Dev :=
  match d.trib c with
  | none => d
  | some y =>
    let conflict := y.typ == 0x2C && b.sync == 0b10 && ogShaped b.payload
    let b := if conflict then errorBlock else b
    let y := { y with
      blk := { y.blk with
        out := some b, ocodes := y.blk.ocodes + BitVec.ofNat 40 (b2n conflict), since := y.blk.since + 1 }
      swBip := (blockOctets b).foldl (· ^^^ ·) y.swBip }
    d.modTrib c fun _ => if hasOam y && !y.connected && decide (16384 ≤ y.blk.since) && b == idleBlock then oamOut d c y else y

/-- A word for a container of blocks: every second one completes a block. -/
def containerWord (c : Nat) (w : LaneWord) (d : Dev) : Dev :=
  match d.trib c with
  | none => d
  | some y =>
    match y.txAcc with
    | [] => d.modTrib c fun z => { z with txAcc := [w] }
    | a :: _ => containerBlock c (blockOfWords a w) (d.modTrib c fun z => { z with txAcc := [] })

/-- MTN_CV_TX: a terminated path sends its CV once a second; with no CV set, what it sends is open (log entry 8). -/
def execMtnCvTx (n : Nat) (s : State) : Out :=
  s.run (gFab fun _ d =>
    match d.trib n with
    | none => d
    | some x =>
      if !hasOam x || x.connected then d
      else match (tgetD x.traces 0x11 {}).tx with
        | some os => d.modTrib n fun y => { y with cvOut := os }
        | none => (d.modTrib n fun y => { y with cvOut := natBe 32 (free 256 d).toNat }).used)

/-- A word of a packet FIFO that its reader has taken: a gap marker goes on, the words of a packet are gathered. PKT_OUT hands
its packets on; those of PKT_IN, and of a container in GFP-F, wait for their own rows. -/
def pktWord (f : FifoId) (w : LaneWord) (d : Dev) : Dev :=
  let q := fifoOf d f
  if lwTag w = tagGap then
    (if f.cls == .pktOut then sendGap f.inst w d
     else d.onFab fun b => { b with maps := tmod b.maps f.inst {} fun m => { m with gapIn := satGap (m.gapIn + (lwPayload w).toNat) } })
  else if lwTag w != tagStart && q.out.isEmpty then d
  else
    let ws := (if lwTag w = tagStart then [] else q.out) ++ [w]
    let gfp := match d.trib f.inst with | some x => x.method == 6 | none => true
    if lwTag w = tagEnd && f.cls == .pktOut && !gfp then sendPacket f.inst ws (setFifo f { q with out := [] } d)
    else setFifo f { q with out := ws } d
where
  sendGap (n : Nat) (w : LaneWord) (d : Dev) : Dev :=
    match d.trib n with | some x => if x.port.isSome then toCarrier n [w] d else d | none => d

/-- The preamble and the start frame delimiter (06 R147; log entry 70). -/
def preamble : List Octet := List.replicate 7 0x55 ++ [0xD5]

/-- ETH_TX_PACKET (06 R147): the next packet that waits at the port is sent whole, from its first word as read `hit` where
that differs; a poisoned word of it makes its terminate block an Error control block; gap markers before it are counted and
otherwise ignored. -/
def execEthTxPacket (port : Nat) (hit : Option LaneWord) (s : State) : Out :=
  s.run (gRun fun t d =>
    match d.port port, portStream d port with
    | some x, some n =>
      if !packetMode x then d
      else
        let d := refreshTx n d
        match d.trib n with
        | none => d
        | some y =>
          let q := txWaiting d n
          let res := (match hit, q with | some v, _ :: r => v :: r | _, _ => q).map stageRead
          match res.findIdx? fun r => lwTag r.1 == tagEnd with
          | none => d
          | some i =>
            let d := setTxWaiting n (q.drop (i + 1)) d
            let d := (res.take (i + 1)).foldl (fun d r => if r.2 then lwParity (0x20 + lgOfLane x.first) (wd port) t d else d) d
            let gaps := (res.take (i + 1)).filter fun r => lwTag r.1 == tagGap
            let ws := ((res.take (i + 1)).map (·.1)).filter fun w => lwTag w == tagData || lwTag w == tagStart || lwTag w == tagEnd
            let d := addCnt (pathKey n) 0x55 (sumBy (fun r => (lwPayload r.1).toNat) gaps) d
            if y.tx != .normal then d
            else
              let os := packetOctets ws
              let bad := ws.any lwPoison
              let d := addCnt (secKey port) 0x42 1 (addCnt (secKey port) 0x43 os.length d)
              let d := countPoison n (b2n bad) d
              d.modPort port fun z => { z with eth := { z.eth with sent := preamble ++ os, txBad := bad } }
    | _, _ => d)

/-! ### The cross-connect (01 R16, R23-R25) -/

/-- XC_WORD: the next word on its way to an attachment crosses, as read `hit` where that differs, into the FIFO there. A
poisoned context-boundary word has the words after it discarded up to the next valid one. -/
def execXcWord (inst : Nat) (hit : Option LaneWord) (s : State) : Out :=
  s.run (gFab fun t d =>
    match tgetD d.fab.xcOut inst [] with
    | [] => d
    | w :: rest =>
      let (v, bad) := stageRead (hit.getD w)
      let d := d.onFab fun f => { f with xcOut := tput f.xcOut inst rest }
      let d := if bad then lwParity 0x38 (wd inst) t d else d
      let pass := fun (skip : List Nat) =>
        writeFifo ⟨.xc, inst⟩ v (d.onFab fun f => { f with xcSkip := skip, xcLast := tput f.xcLast inst v })
      if lwTag v = tagIdle then d
      else if lwTag v = tagCtx then pass (if lwPoison v then sadd d.fab.xcSkip inst else sdel d.fab.xcSkip inst)
      else if d.fab.xcSkip.contains inst then
        d.onFab fun f => { f with xcDiscard := tput f.xcDiscard inst (tgetD f.xcDiscard inst 0 + 1) }
      else pass d.fab.xcSkip)

/-- Is a tributary a FlexE client, an MTN path or a fine-grain channel: a container of blocks? -/
def blockContainer (d : Dev) (c : Nat) : Bool := match d.trib c with | some y => decide (0x2A ≤ y.typ) && decide (y.typ ≤ 0x2C) | none => false

/-- A word that leaves the FIFO of an attachment: a context-boundary word names the tributary of those that follow (01 R16).
Received words enter its store, words to be sent await its container's transmitter. -/
def xcDeliver (inst : Nat) (v : LaneWord) (t : Time) (d : Dev) : Dev :=
  if lwTag v = tagCtx then
    d.onFab fun f => { f with xcCtx := tput f.xcCtx inst (if lwPoison v then none else some (fld (lwPayload v) 16 0)) }
  else match tgetD d.fab.xcCtx inst none with
    | none => d.onFab fun f => { f with xcDiscard := tput f.xcDiscard inst (tgetD f.xcDiscard inst 0 + 1) }
    | some n => match d.trib n with
      | none => d
      | some x =>
        if inst % 2 = 1 then
          if x.port.isNone && blockContainer d x.parent then containerWord x.parent v d else setTxWaiting n (txWaiting d n ++ [v]) d
        else if !x.rxOn then d
        else storeWord (rxStore x n) v t d

/-! ### The FIFO rows (08 R198-R204) -/

/-- A read of any FIFO, and what its reader does with the word. -/
def readFifo (f : FifoId) (hit : Option LaneWord) (t : Time) (d : Dev) : Dev :=
  match f.cls with
  | .esRx => takeRx f.inst hit t d
  | _ =>
    let (w, d) := takeFifo f hit t d
    match w, f.cls with
    | some w, .esTx => txWord f.inst w d
    | some w, .xc => xcDeliver f.inst w t d
    | some w, .pktIn => pktWord f w d
    | some w, .pktOut => pktWord f w d
    | _, _ => d

/-- FIFO_WRITE: a write, and a read in the same cycle, which sees the depth at the start of the cycle (08 R201). -/
def execFifoWrite (f : FifoId) (w : LaneWord) (rd : Bool) (s : State) : Out :=
  s.run (gFab fun t d =>
    if !fifoExists d f then d else storeWord f w t (if rd then readFifo f none t d else d))

/-- FIFO_READ. -/
def execFifoRead (f : FifoId) (hit : Option LaneWord) (s : State) : Out :=
  s.run (gFab fun t d => if fifoExists d f then readFifo f hit t d else d)

/-! ### SLICE_CONTEXT_VISIT (07 R175; 09 R226, R228) -/

/-- SLICE_CONTEXT_VISIT: the words of the context are read and checked, words of the receive store are taken, a frame of a
VC that is built here may be sent, and the state words are written back. -/
def execSliceContextVisit (n : Nat) (v : Visit) (s : State) : Out :=
  s.run (gFab fun t d =>
    match d.trib n with
    | none => d
    | some x =>
      if stoppedTrib x then d
      else
        let bad := (v.reads.filter fun r => decide (r.1 < 32) && ctxFails r.1 r.2).map (·.1)
        let d := bad.foldl (fun d w => badWord n x.unit w t d) d
        let d := if x.typ = 0x29 then d else (List.range v.rx).foldl (fun d _ => takeRx n none t d) d
        let d := if v.tx && isVc x.typ then vcBuild n d else d
        d.modTrib n fun y => { y with filt := filtState y })

/-! ### The end of a drain (07 R189-R191; 08 R209) -/

/-- The packet of which a reader has sent words when the drain ends: those words, and what is still in the FIFO. -/
def cutPacket (q : Fifo) : List LaneWord × List LaneWord :=
  let rest := q.entries.take q.committed
  (q.out, rest.take (((rest.findIdx? fun w => lwTag w == tagEnd).getD 0) + 1))

/-- A packet whose end falls outside the drain window (07 R189): in GFP-F the octets that remain are 0x00 and the FCS is
inverted, in IMP an Error control block ends it. -/
def endPacket (n : Nat) (d : Dev) : Dev :=
  match d.trib n with
  | none => d
  | some x =>
    let f : FifoId := ⟨.pktOut, n⟩
    let q := fifoOf d f
    let (out, rest) := cutPacket q
    if x.typ ≠ 0x29 ∨ out.isEmpty then d
    else
      let d := setFifo f { q with out := [] } d
      if x.method = 7 then toCarrier n (impSend x (packetOctets out) true) d
      else if x.method = 6 then
        let left := packetOctets rest
        let os := packetOctets out ++ List.replicate (left.length - 4) 0 ++ left.drop (left.length - 4)
        let (fr, s) := gfpPacket x.gfpTx x os true
        mapInto n [] fr (d.modTrib n fun y => { y with gfpTx := s })
      else toCarrier n (poisonEnd out) d

/-- Has a drain run its 2 container frames, or nothing left to send (07 R189)? -/
def drainOver (d : Dev) (n left : Nat) (r : Drain) (t : Time) : Bool :=
  left == 0 || (match framePeriod d (contSrc d n) with
    | some p => decide (r.since + 2 * p.up ≤ t)
    | none => true)

/-- DRAIN_END (07 R189-R191): what is left is discarded and counted; each destination then carries the indication, and
a deletion frees the tributary and completes. -/
def execDrainEnd (n : Nat) (s : State) : Out :=
  s.run (gFab fun t d =>
    match d.trib n with
    | none => d
    | some x =>
      match x.drain with
      | none => d
      | some r =>
        let ids : List FifoId := if x.typ = 0x29 then [⟨.pktIn, n⟩, ⟨.pktOut, n⟩] else [⟨.esRx, n⟩, ⟨.esTx, n⟩]
        let queued := if x.typ = 0x29 then sumBy (fun e => e.2.pkts.length) (d.sched n).queues else 0
        let left := sumBy (fun f => (d.fifo f).entries.length) ids + queued
        if !drainOver d n left r t then d
        else
          let d := endPacket n d
          let d := if queued = 0 then d
            else d.modSched n fun s => { s with queues := tmap s.queues fun _ q => { q with pkts := [] } }
          let d := ids.foldl (fun d f => d.modFifo f fun q => { q with entries := [], committed := 0, mark := none, lenIn := none }) d
          let d := addCnt (pathKey n) 0x54 left (d.modTrib n fun y => { y with drain := none, discard := min (y.discard + left) 65535 })
          let d := (n :: fedBy d n).foldl (fun d k => refreshTx k d) d
          match r.delete with
          | none => d
          | some h =>
            match d.fab.fw.changes.find? fun c =>
                c.handle == h && (c.code == 0x0305#16 || c.code == 0x0226#16) && c.obj == .trib n with
            | some c => applyPart cmdTribDelete c .own t d
            | none => freeTrib n t d)

end Sys2Proof.Machine
end

