-- ==== Sys2Proof/Machine/Timebase.lean ====
section
/-!
DEFINITION. Device time: the tick of an idle block and the row DFE_FRAME (02 R35, R41-R43; log entry 1).
-/
namespace Sys2Proof.Machine

/-- The overhead that every instance of a group sends (06 R151, R153); SC and time-stamp fields are 0 and the management
channels idle control blocks. -/
def flexeOh (x : Port) : FlexeOh :=
  let y := x.flx
  let phys := y.txPhys.take x.phys
  { c := y.bankB, rpf := x.backward, group := y.txGroup, phys := phys, map := phyMap phys, calA := y.calA, calB := y.calB
    cr := y.cr, ca := y.caOut }

/-- The transmit port frames of a FlexE group up to a time: the port times them by itself (02 R42, R43). -/
def flexeSend (t : Time) (x : Port) : Port :=
  let q := portPeriod x.typ
  let start := x.txF.anchor + (t - x.txF.anchor) * q.2 / q.1 * q.1 / q.2
  if start ≤ x.txF.start then x
  else { x with
    txF := x.txF.flyTo q ((t - x.txF.anchor) * q.2 / q.1) start, flx := { x.flx with sent := some (flexeOh x) } }

/-- A new DFE frame starts: E advances and the phase is 0; it is the port frame of Ethernet ports without FlexE
(02 R43), and FlexE groups have sent the overhead frames that have started since. -/
def nextFrame (s : State) : State :=
  let c : Clock := { e := s.clock.e + 1, phase := 0 }
  let t := c.now
  let start := fun (_ : Nat) (x : Port) =>
    if isEth x.typ then { x with rxF := x.rxF.next t, txF := x.txF.next t } else if isFlexe x.typ then flexeSend t x else x
  { s with clock := c, dev := s.dev.onFab fun f => { f with ports := tmap f.ports start } }

/-- One phase unit passes: the phase counts 0 to 32,767, then a frame starts (02 R35). -/
def tick (s : State) : State :=
  if s.clock.phase = 32767#15 then nextFrame s else { s with clock := { s.clock with phase := s.clock.phase + 1 } }

/-- DFE_FRAME: the rest of the frame passes. -/
def execDfeFrame (s : State) : Out := .next (nextFrame s)

end Sys2Proof.Machine
end

