-- ==== Sys2Proof/Machine/Dispatch.lean ====
section
/-!
DEFINITION. The meaning of every command: one arm per row of the opcode table, one direct call each.
-/
namespace Sys2Proof.Machine

def exec (i : Instr) (s : State) : Host.Outcome State Fault Refusal :=
  match i with
  | .deviceInfoGet m => Sys2Proof.Machine.execDeviceInfoGet m s
  | .csCommit m => Sys2Proof.Machine.execCsCommit m s
  | .csAbort m => Sys2Proof.Machine.execCsAbort m s
  | .lastErrorGet m => Sys2Proof.Machine.execLastErrorGet m s
  | .ownerSet m => Sys2Proof.Machine.execOwnerSet m s
  | .cfgLock m => Sys2Proof.Machine.execCfgLock m s
  | .deviceConfig m => Sys2Proof.Machine.execDeviceConfig m s
  | .deviceStandby m => Sys2Proof.Machine.execDeviceStandby m s
  | .echo m => Sys2Proof.Machine.execEcho m s
  | .laneConfig m => Sys2Proof.Machine.execLaneConfig m s
  | .portCreate m => Sys2Proof.Machine.execPortCreate m s
  | .portDelete m => Sys2Proof.Machine.execPortDelete m s
  | .laneStatusGet m => Sys2Proof.Machine.execLaneStatusGet m s
  | .portStatusGet m => Sys2Proof.Machine.execPortStatusGet m s
  | .portPartnerGet m => Sys2Proof.Machine.execPortPartnerGet m s
  | .otnPortStatusGet m => Sys2Proof.Machine.execOtnPortStatusGet m s
  | .flexeStatusGet m => Sys2Proof.Machine.execFlexeStatusGet m s
  | .traceSet m => Sys2Proof.Machine.execTraceSet m s
  | .sdhPortConfig m => Sys2Proof.Machine.execSdhPortConfig m s
  | .sdhStructSet m => Sys2Proof.Machine.execSdhStructSet m s
  | .sdhOhConfig m => Sys2Proof.Machine.execSdhOhConfig m s
  | .otnPortConfig m => Sys2Proof.Machine.execOtnPortConfig m s
  | .otnStructSet m => Sys2Proof.Machine.execOtnStructSet m s
  | .otnOhConfig m => Sys2Proof.Machine.execOtnOhConfig m s
  | .oduTcmConfig m => Sys2Proof.Machine.execOduTcmConfig m s
  | .ethPortConfig m => Sys2Proof.Machine.execEthPortConfig m s
  | .flexeGroupConfig m => Sys2Proof.Machine.execFlexeGroupConfig m s
  | .flexeClientSet m => Sys2Proof.Machine.execFlexeClientSet m s
  | .mtnPathConfig m => Sys2Proof.Machine.execMtnPathConfig m s
  | .fgChanCreate m => Sys2Proof.Machine.execFgChanCreate m s
  | .fgChanResize m => Sys2Proof.Machine.execFgChanResize m s
  | .fgChanDelete m => Sys2Proof.Machine.execFgChanDelete m s
  | .fcGroupConfig m => Sys2Proof.Machine.execFcGroupConfig m s
  | .tribCreate m => Sys2Proof.Machine.execTribCreate m s
  | .tribModify m => Sys2Proof.Machine.execTribModify m s
  | .tribEnable m => Sys2Proof.Machine.execTribEnable m s
  | .tribDisable m => Sys2Proof.Machine.execTribDisable m s
  | .tribDelete m => Sys2Proof.Machine.execTribDelete m s
  | .oduflexResize m => Sys2Proof.Machine.execOduflexResize m s
  | .tribStatusGet m => Sys2Proof.Machine.execTribStatusGet m s
  | .xcConnect m => Sys2Proof.Machine.execXcConnect m s
  | .xcDisconnect m => Sys2Proof.Machine.execXcDisconnect m s
  | .xcGet m => Sys2Proof.Machine.execXcGet m s
  | .pgCreate m => Sys2Proof.Machine.execPgCreate m s
  | .pgModify m => Sys2Proof.Machine.execPgModify m s
  | .pgDelete m => Sys2Proof.Machine.execPgDelete m s
  | .pgCommand m => Sys2Proof.Machine.execPgCommand m s
  | .pgStatusGet m => Sys2Proof.Machine.execPgStatusGet m s
  | .schedConfig m => Sys2Proof.Machine.execSchedConfig m s
  | .queueConfig m => Sys2Proof.Machine.execQueueConfig m s
  | .classMapSet m => Sys2Proof.Machine.execClassMapSet m s
  | .policerSet m => Sys2Proof.Machine.execPolicerSet m s
  | .gateListSet m => Sys2Proof.Machine.execGateListSet m s
  | .queueStatsGet m => Sys2Proof.Machine.execQueueStatsGet m s
  | .queueHwmGet m => Sys2Proof.Machine.execQueueHwmGet m s
  | .pmEpochSet m => Sys2Proof.Machine.execPmEpochSet m s
  | .pmBinGet m => Sys2Proof.Machine.execPmBinGet m s
  | .pmTcaSet m => Sys2Proof.Machine.execPmTcaSet m s
  | .pmLedgerGet m => Sys2Proof.Machine.execPmLedgerGet m s
  | .defectConfig m => Sys2Proof.Machine.execDefectConfig m s
  | .clkSlotConfig m => Sys2Proof.Machine.execClkSlotConfig m s
  | .clkDpllConfig m => Sys2Proof.Machine.execClkDpllConfig m s
  | .clkOutConfig m => Sys2Proof.Machine.execClkOutConfig m s
  | .clkHistoryReset m => Sys2Proof.Machine.execClkHistoryReset m s
  | .clkDeviceConfig m => Sys2Proof.Machine.execClkDeviceConfig m s
  | .clkStatusGet m => Sys2Proof.Machine.execClkStatusGet m s
  | .govMigrate m => Sys2Proof.Machine.execGovMigrate m s
  | .govStatusGet m => Sys2Proof.Machine.execGovStatusGet m s
  | .govLedgerGet m => Sys2Proof.Machine.execGovLedgerGet m s
  | .recRead m => Sys2Proof.Machine.execRecRead m s
  | .recMark m => Sys2Proof.Machine.execRecMark m s
  | .recDumpRead m => Sys2Proof.Machine.execRecDumpRead m s
  | .recDumpClear m => Sys2Proof.Machine.execRecDumpClear m s
  | .fwInfoGet m => Sys2Proof.Machine.execFwInfoGet m s
  | .fwImageLoad m image => Sys2Proof.Machine.execFwImageLoad m image s
  | .fwActivate m => Sys2Proof.Machine.execFwActivate m s
  | .certGet m => Sys2Proof.Machine.execCertGet m s
  | .attestQuote m => Sys2Proof.Machine.execAttestQuote m s
  | .cfgDigestGet m => Sys2Proof.Machine.execCfgDigestGet m s
  | .debugUnlock m => Sys2Proof.Machine.execDebugUnlock m s
  | .mbxDataWrite a ch k => Sys2Proof.Machine.execMbxDataWrite a ch k s
  | .mbxGoWrite a ch => Sys2Proof.Machine.execMbxGoWrite a ch s
  | .mbxAckwWrite a ch => Sys2Proof.Machine.execMbxAckwWrite a ch s
  | .mbxData0Read a ch => Sys2Proof.Machine.execMbxData0Read a ch s
  | .mbxStsWrite a ch => Sys2Proof.Machine.execMbxStsWrite a ch s
  | .irqStsWrite a => Sys2Proof.Machine.execIrqStsWrite a s
  | .pwrStsWrite a => Sys2Proof.Machine.execPwrStsWrite a s
  | .clkStsWrite a => Sys2Proof.Machine.execClkStsWrite a s
  | .fltStsWrite a => Sys2Proof.Machine.execFltStsWrite a s
  | .recStsWrite a => Sys2Proof.Machine.execRecStsWrite a s
  | .registerWrite a offset => Sys2Proof.Machine.execRegisterWrite a offset s
  | .bitAliasWrite a offset => Sys2Proof.Machine.execBitAliasWrite a offset s
  | .idnLockWrite a => Sys2Proof.Machine.execIdnLockWrite a s
  | .remapClrWrite core data => Sys2Proof.Machine.execRemapClrWrite core data s
  | .wvSelWrite a w => Sys2Proof.Machine.execWvSelWrite a w s
  | .wvCaptureComplete w => Sys2Proof.Machine.execWvCaptureComplete w s
  | .decodeMiss x => Sys2Proof.Machine.execDecodeMiss x s
  | .fltAckWrite a => Sys2Proof.Machine.execFltAckWrite a s
  | .fltReturnWrite a => Sys2Proof.Machine.execFltReturnWrite a s
  | .selfTestComplete pass => Sys2Proof.Machine.execSelfTestComplete pass s
  | .fltSrcSelWrite a => Sys2Proof.Machine.execFltSrcSelWrite a s
  | .fltInjWrite a => Sys2Proof.Machine.execFltInjWrite a s
  | .recSelWrite a => Sys2Proof.Machine.execRecSelWrite a s
  | .recData7Read a => Sys2Proof.Machine.execRecData7Read a s
  | .recHeadHiRead a => Sys2Proof.Machine.execRecHeadHiRead a s
  | .recCaptureComplete => Sys2Proof.Machine.execRecCaptureComplete s
  | .aonPowerOnReset cause pins => Sys2Proof.Machine.execAonPowerOnReset cause pins s
  | .systemReset bootsel => Sys2Proof.Machine.execSystemReset bootsel s
  | .pcieReset kind => Sys2Proof.Machine.execPcieReset kind s
  | .vfFlr vf => Sys2Proof.Machine.execVfFlr vf s
  | .wakeN bootsel => Sys2Proof.Machine.execWakeN bootsel s
  | .i2cWakeCommand bootsel => Sys2Proof.Machine.execI2cWakeCommand bootsel s
  | .i2cPortReset => Sys2Proof.Machine.execI2cPortReset s
  | .refselChange v => Sys2Proof.Machine.execRefselChange v s
  | .refselDebounced => Sys2Proof.Machine.execRefselDebounced s
  | .oscLoss => Sys2Proof.Machine.execOscLoss s
  | .thermalSample t => Sys2Proof.Machine.execThermalSample t s
  | .railSample r => Sys2Proof.Machine.execRailSample r s
  | .powerWindowEnd => Sys2Proof.Machine.execPowerWindowEnd s
  | .droop pd => Sys2Proof.Machine.execDroop pd s
  | .droopHoldEnd => Sys2Proof.Machine.execDroopHoldEnd s
  | .mpsenseSample sl => Sys2Proof.Machine.execMpsenseSample sl s
  | .modulePresenceChange input => Sys2Proof.Machine.execModulePresenceChange input s
  | .testPin => Sys2Proof.Machine.execTestPin s
  | .dfeFrame => Sys2Proof.Machine.execDfeFrame s
  | .octetBoundary => Sys2Proof.Machine.execOctetBoundary s
  | .configScrub found => Sys2Proof.Machine.execConfigScrub found s
  | .configBankSwap o dir => Sys2Proof.Machine.execConfigBankSwap o dir s
  | .changeArm handle mem => Sys2Proof.Machine.execChangeArm handle mem s
  | .completionPost ch => Sys2Proof.Machine.execCompletionPost ch s
  | .notificationPost ch => Sys2Proof.Machine.execNotificationPost ch s
  | .notifyLost ch => Sys2Proof.Machine.execNotifyLost ch s
  | .replyFragmentPost ch => Sys2Proof.Machine.execReplyFragmentPost ch s
  | .orphanDone ch => Sys2Proof.Machine.execOrphanDone ch s
  | .crossedTimeout ch => Sys2Proof.Machine.execCrossedTimeout ch s
  | .fragmentTimeout ch => Sys2Proof.Machine.execFragmentTimeout ch s
  | .csTimeout cs => Sys2Proof.Machine.execCsTimeout cs s
  | .coreWakeComplete core => Sys2Proof.Machine.execCoreWakeComplete core s
  | .corePowerDown core => Sys2Proof.Machine.execCorePowerDown core s
  | .cryptoPowerDown => Sys2Proof.Machine.execCryptoPowerDown s
  | .coreWdog core => Sys2Proof.Machine.execCoreWdog core s
  | .coreExc core => Sys2Proof.Machine.execCoreExc core s
  | .coreRestartComplete core => Sys2Proof.Machine.execCoreRestartComplete core s
  | .faultEvent source detail => Sys2Proof.Machine.execFaultEvent source detail s
  | .faultWindowEnd source => Sys2Proof.Machine.execFaultWindowEnd source s
  | .faultClassDecay source => Sys2Proof.Machine.execFaultClassDecay source s
  | .heartbeatTimeout => Sys2Proof.Machine.execHeartbeatTimeout s
  | .snowdropLineSignals port => Sys2Proof.Machine.execSnowdropLineSignals port s
  | .dumpComplete => Sys2Proof.Machine.execDumpComplete s
  | .contextRecreate t => Sys2Proof.Machine.execContextRecreate t s
  | .recordWrite => Sys2Proof.Machine.execRecordWrite s
  | .bootStage x => Sys2Proof.Machine.execBootStage x s
  | .fwImageLoadComplete ok => Sys2Proof.Machine.execFwImageLoadComplete ok s
  | .fwActivateBoundary => Sys2Proof.Machine.execFwActivateBoundary s
  | .activationFallback => Sys2Proof.Machine.execActivationFallback s
  | .arbBurn => Sys2Proof.Machine.execArbBurn s
  | .cdrLock lane => Sys2Proof.Machine.execCdrLock lane s
  | .cdrRetry lane => Sys2Proof.Machine.execCdrRetry lane s
  | .anComplete lane r => Sys2Proof.Machine.execAnComplete lane r s
  | .anRestart lane => Sys2Proof.Machine.execAnRestart lane s
  | .trainingComplete lane r => Sys2Proof.Machine.execTrainingComplete lane r s
  | .trainFail lane => Sys2Proof.Machine.execTrainFail lane s
  | .laneSignalLoss lane => Sys2Proof.Machine.execLaneSignalLoss lane s
  | .laneGroupPowerDown g => Sys2Proof.Machine.execLaneGroupPowerDown g s
  | .ilEstimateRefresh il => Sys2Proof.Machine.execIlEstimateRefresh il s
  | .ilfAlignmentFound lane => Sys2Proof.Machine.execIlfAlignmentFound lane s
  | .ilfMarkerPeriod lane mk => Sys2Proof.Machine.execIlfMarkerPeriod lane mk s
  | .ilfControlBlock b => Sys2Proof.Machine.execIlfControlBlock b s
  | .ilfTxMarker lane bits => Sys2Proof.Machine.execIlfTxMarker lane bits s
  | .sdhPatternFound x => Sys2Proof.Machine.execSdhPatternFound x s
  | .sdhRxFrame port f => Sys2Proof.Machine.execSdhRxFrame port f s
  | .sdhLofChange port => Sys2Proof.Machine.execSdhLofChange port s
  | .sdhTxFrame port hits => Sys2Proof.Machine.execSdhTxFrame port hits s
  | .sdhLomChange t => Sys2Proof.Machine.execSdhLomChange t s
  | .otnPatternFound x => Sys2Proof.Machine.execOtnPatternFound x s
  | .otnRxFrame port f => Sys2Proof.Machine.execOtnRxFrame port f s
  | .otnLofChange o => Sys2Proof.Machine.execOtnLofChange o s
  | .otnLomChange o => Sys2Proof.Machine.execOtnLomChange o s
  | .otnTxFrame o hits => Sys2Proof.Machine.execOtnTxFrame o hits s
  | .oduRxFrame t f => Sys2Proof.Machine.execOduRxFrame t f s
  | .flexoFrame port lane f => Sys2Proof.Machine.execFlexoFrame port lane f s
  | .flexoLof port lane => Sys2Proof.Machine.execFlexoLof port lane s
  | .fecSdIntervalEnd port => Sys2Proof.Machine.execFecSdIntervalEnd port s
  | .pcsStateChange port v => Sys2Proof.Machine.execPcsStateChange port v s
  | .ethRxBlock port b => Sys2Proof.Machine.execEthRxBlock port b s
  | .ethRxFrame port f => Sys2Proof.Machine.execEthRxFrame port f s
  | .ethTxPacket port hit => Sys2Proof.Machine.execEthTxPacket port hit s
  | .esmcPduRx port e => Sys2Proof.Machine.execEsmcPduRx port e s
  | .esmcPduTx port => Sys2Proof.Machine.execEsmcPduTx port s
  | .esmcQlTimeout slot => Sys2Proof.Machine.execEsmcQlTimeout slot s
  | .pfcFrameRx port f => Sys2Proof.Machine.execPfcFrameRx port f s
  | .pauseFrameRx port quanta => Sys2Proof.Machine.execPauseFrameRx port quanta s
  | .pauseExpiry port cls => Sys2Proof.Machine.execPauseExpiry port cls s
  | .pfcRepeat g => Sys2Proof.Machine.execPfcRepeat g s
  | .flexeOhFrame port inst f => Sys2Proof.Machine.execFlexeOhFrame port inst f s
  | .flexeLofChange port mf => Sys2Proof.Machine.execFlexeLofChange port mf s
  | .flexeCalStart port => Sys2Proof.Machine.execFlexeCalStart port s
  | .flexeCalSwitch port => Sys2Proof.Machine.execFlexeCalSwitch port s
  | .flexeCalTimeout port => Sys2Proof.Machine.execFlexeCalTimeout port s
  | .mtnBasRx t b => Sys2Proof.Machine.execMtnBasRx t b s
  | .mtnCvRx t cv => Sys2Proof.Machine.execMtnCvRx t cv s
  | .mtnApsRx t v => Sys2Proof.Machine.execMtnApsRx t v s
  | .mtnCvTx t => Sys2Proof.Machine.execMtnCvTx t s
  | .fgOverheadGrain t g => Sys2Proof.Machine.execFgOverheadGrain t g s
  | .fgResizeStart t => Sys2Proof.Machine.execFgResizeStart t s
  | .fgBankSwitch t => Sys2Proof.Machine.execFgBankSwitch t s
  | .fgResizeTimeout t => Sys2Proof.Machine.execFgResizeTimeout t s
  | .gmpTxPeriod t hit => Sys2Proof.Machine.execGmpTxPeriod t hit s
  | .gmpRxPeriod t j => Sys2Proof.Machine.execGmpRxPeriod t j s
  | .ampJustification e => Sys2Proof.Machine.execAmpJustification e s
  | .pdhJustification e => Sys2Proof.Machine.execPdhJustification e s
  | .gfpFrameTx t hit => Sys2Proof.Machine.execGfpFrameTx t hit s
  | .gfpFrameRx t f => Sys2Proof.Machine.execGfpFrameRx t f s
  | .gfpCsfTx t => Sys2Proof.Machine.execGfpCsfTx t s
  | .gfpCsfClear t => Sys2Proof.Machine.execGfpCsfClear t s
  | .segmentRx t stream seq => Sys2Proof.Machine.execSegmentRx t stream seq s
  | .impBlockRx t b => Sys2Proof.Machine.execImpBlockRx t b s
  | .oduflexResizeStep t => Sys2Proof.Machine.execOduflexResizeStep t s
  | .oduflexResizeTimeout t => Sys2Proof.Machine.execOduflexResizeTimeout t s
  | .drainEnd t => Sys2Proof.Machine.execDrainEnd t s
  | .contextRewrite t w => Sys2Proof.Machine.execContextRewrite t w s
  | .sliceContextVisit t v => Sys2Proof.Machine.execSliceContextVisit t v s
  | .xcWord inst hit => Sys2Proof.Machine.execXcWord inst hit s
  | .fifoWrite f w rd => Sys2Proof.Machine.execFifoWrite f w rd s
  | .fifoRead f hit => Sys2Proof.Machine.execFifoRead f hit s
  | .packetStartWrite f w => Sys2Proof.Machine.execPacketStartWrite f w s
  | .packetEndWrite f w => Sys2Proof.Machine.execPacketEndWrite f w s
  | .fifoStallLong f => Sys2Proof.Machine.execFifoStallLong f s
  | .pbEntryRead bank e => Sys2Proof.Machine.execPbEntryRead bank e s
  | .watermarkEvaluation g => Sys2Proof.Machine.execWatermarkEvaluation g s
  | .defectFastPath o => Sys2Proof.Machine.execDefectFastPath o s
  | .failureDeclare x => Sys2Proof.Machine.execFailureDeclare x s
  | .failureClear x => Sys2Proof.Machine.execFailureClear x s
  | .pmSecondEnd => Sys2Proof.Machine.execPmSecondEnd s
  | .pmSecondCommit => Sys2Proof.Machine.execPmSecondCommit s
  | .degradeIntervalEnd => Sys2Proof.Machine.execDegradeIntervalEnd s
  | .pmBinBoundary => Sys2Proof.Machine.execPmBinBoundary s
  | .ledgerRecordBuild => Sys2Proof.Machine.execLedgerRecordBuild s
  | .pgEvaluation => Sys2Proof.Machine.execPgEvaluation s
  | .pgFastEvaluation g => Sys2Proof.Machine.execPgFastEvaluation g s
  | .holdOffExpiry g mem => Sys2Proof.Machine.execHoldOffExpiry g mem s
  | .wtrExpiry g => Sys2Proof.Machine.execWtrExpiry g s
  | .selectorSwitch g => Sys2Proof.Machine.execSelectorSwitch g s
  | .bridgeSwitch g => Sys2Proof.Machine.execBridgeSwitch g s
  | .pgFopNrTimeout g => Sys2Proof.Machine.execPgFopNrTimeout g s
  | .errorlessFrame g f => Sys2Proof.Machine.execErrorlessFrame g f s
  | .errorlessSwitch g => Sys2Proof.Machine.execErrorlessSwitch g s
  | .pgBuildOut g => Sys2Proof.Machine.execPgBuildOut g s
  | .alignBufferReplace => Sys2Proof.Machine.execAlignBufferReplace s
  | .pgStateParity g => Sys2Proof.Machine.execPgStateParity g s
  | .packetEnqueue src => Sys2Proof.Machine.execPacketEnqueue src s
  | .schedulerSelect t => Sys2Proof.Machine.execSchedulerSelect t s
  | .gateEntryChange t => Sys2Proof.Machine.execGateEntryChange t s
  | .gateListStart t => Sys2Proof.Machine.execGateListStart t s
  | .batchInstant => Sys2Proof.Machine.execBatchInstant s
  | .bankQueueRedistribute bank => Sys2Proof.Machine.execBankQueueRedistribute bank s
  | .bankRetain bank => Sys2Proof.Machine.execBankRetain bank s
  | .bankWake bank => Sys2Proof.Machine.execBankWake bank s
  | .clkActivityWindowEnd slot edge => Sys2Proof.Machine.execClkActivityWindowEnd slot edge s
  | .frequencyGateEnd m outOff => Sys2Proof.Machine.execFrequencyGateEnd m outOff s
  | .dpllEvaluation d m => Sys2Proof.Machine.execDpllEvaluation d m s
  | .dpllLock d => Sys2Proof.Machine.execDpllLock d s
  | .dpllLostExit d => Sys2Proof.Machine.execDpllLostExit d s
  | .freezeEnd => Sys2Proof.Machine.execFreezeEnd s
  | .packingEvaluation => Sys2Proof.Machine.execPackingEvaluation s
  | .sliceOff sl => Sys2Proof.Machine.execSliceOff sl s
  | .sliceWakeComplete sl => Sys2Proof.Machine.execSliceWakeComplete sl s
  | .capEvaluation => Sys2Proof.Machine.execCapEvaluation s
  | .batchFramesUpdate => Sys2Proof.Machine.execBatchFramesUpdate s
  | .migrationArm t dst => Sys2Proof.Machine.execMigrationArm t dst s
  | .migrationSnapshot t => Sys2Proof.Machine.execMigrationSnapshot t s
  | .migrationShadowFrame t blocks => Sys2Proof.Machine.execMigrationShadowFrame t blocks s
  | .migrationCommit t => Sys2Proof.Machine.execMigrationCommit t s
  | .migrationCutover t => Sys2Proof.Machine.execMigrationCutover t s
  | .migrationSourceFree t => Sys2Proof.Machine.execMigrationSourceFree t s
  | .migrationAbort t cause => Sys2Proof.Machine.execMigrationAbort t cause s
  | .wearAccrual => Sys2Proof.Machine.execWearAccrual s
  | .wearLedgerFlashWrite => Sys2Proof.Machine.execWearLedgerFlashWrite s
  | .msixHoldEnd fn v => Sys2Proof.Machine.execMsixHoldEnd fn v s
  | .fltSrcCaptureComplete => Sys2Proof.Machine.execFltSrcCaptureComplete s
  | .activationComplete => Sys2Proof.Machine.execActivationComplete s
  | .laneGroupPowerUp g => Sys2Proof.Machine.execLaneGroupPowerUp g s

end Sys2Proof.Machine
end

