-- ==== Sys2Proof/WellFormed.lean ====
section
/-!
DEFINITION. Well-formed commands: every number an operand carries names something the SVT-1280 has (its channels, lanes,
ports, tributaries, groups, slots, domains, sources), and a sample has one value for each sensor.
-/
namespace Sys2Proof

/-- W0 holds count and the message W1 to W15 of one channel of 64 (15 R365; 16 R378). -/
def Msg.wf (m : Msg) : Bool := decide (m.ch < 64) && decide (m.ws.length < 16)

/-- Masters of the matrix: the functions 0 to 15, the control cores 16 to 19, the I2C port, the DMA and migration engine and debug (15 R364). -/
def masterOk (n : Nat) : Bool := decide (n < 23)

/-- Objects by their numbers (02 R51; 03 R54, R59; 07 R163; 11 R258). -/
def Obj.wf : Obj → Bool
  | .dev => true
  | .lane n => decide (n < 128)
  | .port n => decide (n < 1280)
  | .trib t => decide (t < 131072)
  | .group g => decide (g < 4096)
  | .stream t => decide (t < 131072)

/-- FIFO instances are below 2^20 (08 R195). -/
def FifoId.wf (f : FifoId) : Bool := decide (f.inst < 2 ^ 20)

/-- Well-formedness of a command, by constructor. -/
def Instr.wf : Instr → Bool
  | .deviceInfoGet m => m.wf
  | .csCommit m => m.wf
  | .csAbort m => m.wf
  | .lastErrorGet m => m.wf
  | .ownerSet m => m.wf
  | .cfgLock m => m.wf
  | .deviceConfig m => m.wf
  | .deviceStandby m => m.wf
  | .echo m => m.wf
  | .laneConfig m => m.wf
  | .portCreate m => m.wf
  | .portDelete m => m.wf
  | .laneStatusGet m => m.wf
  | .portStatusGet m => m.wf
  | .portPartnerGet m => m.wf
  | .otnPortStatusGet m => m.wf
  | .flexeStatusGet m => m.wf
  | .traceSet m => m.wf
  | .sdhPortConfig m => m.wf
  | .sdhStructSet m => m.wf
  | .sdhOhConfig m => m.wf
  | .otnPortConfig m => m.wf
  | .otnStructSet m => m.wf
  | .otnOhConfig m => m.wf
  | .oduTcmConfig m => m.wf
  | .ethPortConfig m => m.wf
  | .flexeGroupConfig m => m.wf
  | .flexeClientSet m => m.wf
  | .mtnPathConfig m => m.wf
  | .fgChanCreate m => m.wf
  | .fgChanResize m => m.wf
  | .fgChanDelete m => m.wf
  | .fcGroupConfig m => m.wf
  | .tribCreate m => m.wf
  | .tribModify m => m.wf
  | .tribEnable m => m.wf
  | .tribDisable m => m.wf
  | .tribDelete m => m.wf
  | .oduflexResize m => m.wf
  | .tribStatusGet m => m.wf
  | .xcConnect m => m.wf
  | .xcDisconnect m => m.wf
  | .xcGet m => m.wf
  | .pgCreate m => m.wf
  | .pgModify m => m.wf
  | .pgDelete m => m.wf
  | .pgCommand m => m.wf
  | .pgStatusGet m => m.wf
  | .schedConfig m => m.wf
  | .queueConfig m => m.wf
  | .classMapSet m => m.wf
  | .policerSet m => m.wf
  | .gateListSet m => m.wf
  | .queueStatsGet m => m.wf
  | .queueHwmGet m => m.wf
  | .pmEpochSet m => m.wf
  | .pmBinGet m => m.wf
  | .pmTcaSet m => m.wf
  | .pmLedgerGet m => m.wf
  | .defectConfig m => m.wf
  | .clkSlotConfig m => m.wf
  | .clkDpllConfig m => m.wf
  | .clkOutConfig m => m.wf
  | .clkHistoryReset m => m.wf
  | .clkDeviceConfig m => m.wf
  | .clkStatusGet m => m.wf
  | .govMigrate m => m.wf
  | .govStatusGet m => m.wf
  | .govLedgerGet m => m.wf
  | .recRead m => m.wf
  | .recMark m => m.wf
  | .recDumpRead m => m.wf
  | .recDumpClear m => m.wf
  | .fwInfoGet m => m.wf
  | .fwImageLoad m _ => m.wf
  | .fwActivate m => m.wf
  | .certGet m => m.wf
  | .attestQuote m => m.wf
  | .cfgDigestGet m => m.wf
  | .debugUnlock m => m.wf
  | .mbxDataWrite a ch i => masterOk a.master && decide (ch < 64) && decide (i < 16)
  | .mbxGoWrite a ch => masterOk a.master && decide (ch < 64)
  | .mbxAckwWrite a ch => masterOk a.master && decide (ch < 64)
  | .mbxData0Read a ch => masterOk a.master && decide (ch < 64)
  | .mbxStsWrite a ch => masterOk a.master && decide (ch < 64)
  | .irqStsWrite a => masterOk a.master
  | .pwrStsWrite a => masterOk a.master
  | .clkStsWrite a => masterOk a.master
  | .fltStsWrite a => masterOk a.master
  | .recStsWrite a => masterOk a.master
  | .registerWrite a offset => masterOk a.master && decide (offset < 67108864)
  | .bitAliasWrite a offset => masterOk a.master && decide (offset < 67108864)
  | .idnLockWrite a => masterOk a.master
  | .remapClrWrite core _ => decide (core < 4)
  | .wvSelWrite a w => masterOk a.master && decide (w < 16)
  | .wvCaptureComplete w => decide (w < 16)
  | .decodeMiss x => masterOk x.master && decide (x.addr < 2 ^ 40)
    && (decide (16 ≤ x.master) || decide (0x30000000 ≤ x.addr) && decide (x.addr < 0x34000000))
  | .fltAckWrite a => masterOk a.master
  | .fltReturnWrite a => masterOk a.master
  | .selfTestComplete _ => true
  | .fltSrcSelWrite a => masterOk a.master
  | .fltInjWrite a => masterOk a.master
  | .recSelWrite a => masterOk a.master
  | .recData7Read a => masterOk a.master
  | .recHeadHiRead a => masterOk a.master
  | .recCaptureComplete => true
  | .aonPowerOnReset _ _ => true
  | .systemReset _ => true
  | .pcieReset _ => true
  | .vfFlr vf => decide (vf < 16)
  | .wakeN _ => true
  | .i2cWakeCommand _ => true
  | .i2cPortReset => true
  | .refselChange _ => true
  | .refselDebounced => true
  | .oscLoss => true
  | .thermalSample t => decide (t.length = 64)
  | .railSample r => decide (r.length = 16)
  | .powerWindowEnd => true
  | .droop pd => decide (pd < 97)
  | .droopHoldEnd => true
  | .mpsenseSample s => decide (s.length = 32)
  | .modulePresenceChange input => decide (input < 32)
  | .testPin => true
  | .dfeFrame => true
  | .octetBoundary => true
  | .configScrub x => x.ctx.all fun e => decide (e.1 < 131072) && decide (e.2 < 32)
  | .configBankSwap o _ => o.wf
  | .changeArm handle mem => decide (handle < 65536) && decide (mem < 256)
  | .completionPost ch => decide (ch < 64)
  | .notificationPost ch => decide (ch < 64)
  | .notifyLost ch => decide (ch < 64)
  | .replyFragmentPost ch => decide (ch < 64)
  | .orphanDone ch => decide (ch < 64)
  | .crossedTimeout ch => decide (ch < 64)
  | .fragmentTimeout ch => decide (ch < 64)
  | .csTimeout cs => decide (cs < 256)
  | .coreWakeComplete core => decide (core < 4)
  | .corePowerDown core => decide (core < 4)
  | .cryptoPowerDown => true
  | .coreWdog core => decide (core < 4)
  | .coreExc core => decide (core < 4)
  | .coreRestartComplete core => decide (core < 4)
  | .faultEvent source _ => decide (source < 512)
  | .faultWindowEnd source => decide (source < 512)
  | .faultClassDecay source => decide (source < 512)
  | .heartbeatTimeout => true
  | .snowdropLineSignals port => decide (port < 1280)
  | .dumpComplete => true
  | .contextRecreate t => decide (t < 131072)
  | .recordWrite => true
  | .bootStage x => x.hbmFailed.all fun c => decide (c < 16)
  | .fwImageLoadComplete _ => true
  | .fwActivateBoundary => true
  | .activationFallback => true
  | .arbBurn => true
  | .cdrLock lane => decide (lane < 128)
  | .cdrRetry lane => decide (lane < 128)
  | .anComplete lane _ => decide (lane < 128)
  | .anRestart lane => decide (lane < 128)
  | .trainingComplete lane _ => decide (lane < 128)
  | .trainFail lane => decide (lane < 128)
  | .laneSignalLoss lane => decide (lane < 128)
  | .laneGroupPowerDown g => decide (g < 16)
  | .ilEstimateRefresh l => l.all fun x => decide (x.lane < 128)
  | .ilfAlignmentFound lane => decide (lane < 128)
  | .ilfMarkerPeriod lane mk => decide (lane < 128) && decide (mk.words.length = 16)
  | .ilfControlBlock b => decide (b.lane < 128) && decide (b.blk < 8192)
  | .ilfTxMarker lane _ => decide (lane < 128)
  | .sdhPatternFound x => decide (x.port < 1280) && decide (x.bits.length = 48)
  | .sdhRxFrame port _ => decide (port < 1280)
  | .sdhLofChange port => decide (port < 1280)
  | .sdhTxFrame port hits => decide (port < 1280) && hits.all fun e => decide (e.1 < 131072)
  | .sdhLomChange t => decide (t < 131072)
  | .otnPatternFound x => decide (x.port < 1280) && decide (x.bits.length = 32)
  | .otnRxFrame port _ => decide (port < 1280)
  | .otnLofChange o => o.wf
  | .otnLomChange o => o.wf
  | .otnTxFrame o hits => o.wf && hits.all fun e => decide (e.1 < 131072)
  | .oduRxFrame t _ => decide (t < 131072)
  | .flexoFrame port lane _ => decide (port < 1280) && decide (lane < 16)
  | .flexoLof port lane => decide (port < 1280) && decide (lane < 16)
  | .fecSdIntervalEnd port => decide (port < 1280)
  | .pcsStateChange port v => decide (port < 1280) && decide (v.phy < 8)
  | .ethRxBlock port _ => decide (port < 1280)
  | .ethRxFrame port _ => decide (port < 1280)
  | .ethTxPacket port _ => decide (port < 1280)
  | .esmcPduRx port _ => decide (port < 1280)
  | .esmcPduTx port => decide (port < 1280)
  | .esmcQlTimeout slot => decide (slot < 12)
  | .pfcFrameRx port _ => decide (port < 1280)
  | .pauseFrameRx port quanta => decide (port < 1280) && decide (quanta < 65536)
  | .pauseExpiry port cls => decide (port < 1280) && decide (cls < 8)
  | .pfcRepeat g => decide (g < 16)
  | .flexeOhFrame port inst _ => decide (port < 1280) && decide (inst < 16)
  | .flexeLofChange port _ => decide (port < 1280)
  | .flexeCalStart port => decide (port < 1280)
  | .flexeCalSwitch port => decide (port < 1280)
  | .flexeCalTimeout port => decide (port < 1280)
  | .mtnBasRx t _ => decide (t < 131072)
  | .mtnCvRx t _ => decide (t < 131072)
  | .mtnApsRx t _ => decide (t < 131072)
  | .mtnCvTx t => decide (t < 131072)
  | .fgOverheadGrain t _ => decide (t < 131072)
  | .fgResizeStart t => decide (t < 131072)
  | .fgBankSwitch t => decide (t < 131072)
  | .fgResizeTimeout t => decide (t < 131072)
  | .gmpTxPeriod t _ => decide (t < 131072)
  | .gmpRxPeriod t _ => decide (t < 131072)
  | .ampJustification e => decide (e.t < 131072)
  | .pdhJustification e => decide (e.t < 131072)
  | .gfpFrameTx t _ => decide (t < 131072)
  | .gfpFrameRx t _ => decide (t < 131072)
  | .gfpCsfTx t => decide (t < 131072)
  | .gfpCsfClear t => decide (t < 131072)
  | .segmentRx t stream seq => decide (t < 131072) && decide (stream < 16) && decide (seq < 65536)
  | .impBlockRx t _ => decide (t < 131072)
  | .oduflexResizeStep t => decide (t < 131072)
  | .oduflexResizeTimeout t => decide (t < 131072)
  | .drainEnd t => decide (t < 131072)
  | .contextRewrite t w => decide (t < 131072) && decide (w < 32)
  | .sliceContextVisit t v => decide (t < 131072) && v.reads.all fun r => decide (r.1 < 32)
  | .xcWord inst _ => decide (inst < 96)
  | .fifoWrite f _ _ => f.wf
  | .fifoRead f _ => f.wf
  | .packetStartWrite f _ => f.wf
  | .packetEndWrite f _ => f.wf
  | .fifoStallLong f => f.wf
  | .pbEntryRead bank _ => decide (bank < 8)
  | .watermarkEvaluation g => decide (g < 16)
  | .defectFastPath o => o.wf
  | .failureDeclare x => decide (x.bit < 32)
  | .failureClear x => decide (x.bit < 32)
  | .pmSecondEnd => true
  | .pmSecondCommit => true
  | .degradeIntervalEnd => true
  | .pmBinBoundary => true
  | .ledgerRecordBuild => true
  | .pgEvaluation => true
  | .pgFastEvaluation g => decide (g < 4096)
  | .holdOffExpiry g mem => decide (g < 4096) && decide (mem < 15)
  | .wtrExpiry g => decide (g < 4096)
  | .selectorSwitch g => decide (g < 4096)
  | .bridgeSwitch g => decide (g < 4096)
  | .pgFopNrTimeout g => decide (g < 4096)
  | .errorlessFrame g f => decide (g < 4096) && decide (f.words.length ≤ 2 ^ 17)
  | .errorlessSwitch g => decide (g < 4096)
  | .pgBuildOut g => decide (g < 4096)
  | .alignBufferReplace => true
  | .pgStateParity g => decide (g < 4096)
  | .packetEnqueue src => decide (src < 131072)
  | .schedulerSelect t => decide (t < 131072)
  | .gateEntryChange t => decide (t < 131072)
  | .gateListStart t => decide (t < 131072)
  | .batchInstant => true
  | .bankQueueRedistribute bank => decide (bank < 8)
  | .bankRetain bank => decide (bank < 8)
  | .bankWake bank => decide (bank < 8)
  | .clkActivityWindowEnd slot _ => decide (slot < 12)
  | .frequencyGateEnd _ _ => true
  | .dpllEvaluation d _ => decide (d < 4)
  | .dpllLock d => decide (d < 4)
  | .dpllLostExit d => decide (d < 4)
  | .freezeEnd => true
  | .packingEvaluation => true
  | .sliceOff s => decide (s < 32)
  | .sliceWakeComplete s => decide (s < 32)
  | .capEvaluation => true
  | .batchFramesUpdate => true
  | .migrationArm t dst => decide (t < 131072) && decide (dst < 32)
  | .migrationSnapshot t => decide (t < 131072)
  | .migrationShadowFrame t _ => decide (t < 131072)
  | .migrationCommit t => decide (t < 131072)
  | .migrationCutover t => decide (t < 131072)
  | .migrationSourceFree t => decide (t < 131072)
  | .migrationAbort t _ => decide (t < 131072)
  | .wearAccrual => true
  | .wearLedgerFlashWrite => true
  | .msixHoldEnd fn v => decide (fn < 16) && decide (v < 49)
  | .fltSrcCaptureComplete => true
  | .activationComplete => true
  | .laneGroupPowerUp g => decide (g < 16)

end Sys2Proof
end

