-- ==== Sys2Proof/Safety.lean ====
section
/-!
DEFINITION. The terms in which claims are made: the states in which hardware, the running fabric and firmware act, a
message that firmware serves, and the Etlum commands by their kind.
-/
namespace Sys2Proof.Safety
open Machine

/-- The state with another device: time and queue stay. -/
def withDev (s : State) (d : Dev) : State := { s with dev := d }

/-- Out of standby: the fixed domain is powered (14 R331). -/
abbrev FabOn (s : State) : Prop := s.dev.aon.standby = false

/-- Out of standby and out of Snowdrop (18 R427). -/
abbrev Runs (s : State) : Prop := FabOn s ∧ s.dev.aon.snowdrop = false

/-- Firmware runs (19 R438, R450). -/
abbrev FwRuns (s : State) : Prop := Runs s ∧ s.dev.fab.boot.running = true ∧ s.dev.fab.fw.activating = none

/-- A message to which firmware answers at once: its channel is bound, free and served by a running core, and its tag is
not the tag acknowledged last (15 R366, R369). -/
abbrev Serves (m : Msg) (s : State) : Prop :=
  FwRuns s ∧ s.dev.aon.coll.clusterLost = false ∧ mayPost s.dev m.ch = true
    ∧ (s.dev.chan m.ch).posted = false ∧ (s.dev.chan m.ch).orphan = false
    ∧ (servingCore s.dev m.ch).isSome = true
    ∧ (s.dev.chan m.ch).lastAck.all (fun a => a.1 != m.tag) = true

/-- The device right after a client's post of a message (15 R366). -/
def afterPost (c : Cmd) (m : Msg) (s : State) : Dev := clientPost m.ch (messageWords c.code m) s.clock.now s.dev

/-- The device in which firmware serves a message: the message stands in its channel, and no fragment is held
(15 R366; 16 R392). -/
def posted (c : Cmd) (m : Msg) (s : State) : Dev := (afterPost c m s).modChan m.ch fun y => { y with frag := none }

/-- The fragments held on a message's channel that it goes on from: none where it opens its object (16 R392). -/
def heldMsgs (c : Cmd) (m : Msg) (s : State) : List (List Word) :=
  match c.frag with
  | none => []
  | some f =>
    if (f (messageWords c.code m)).opening then []
    else match (s.dev.chan m.ch).frag with
      | some h => h.msgs
      | none => []

/-- What firmware acts on: the message after the fragments held, its channel and its sender. -/
def ctxOf (c : Cmd) (m : Msg) (s : State) : Ctx :=
  ⟨s.clock.now, m.ch, (s.dev.chan m.ch).bind.sender, heldMsgs c m s ++ [messageWords c.code m]⟩

/-- A message may follow what its channel holds: it opens its object, or the fragments held are of its command and object
(16 R392). -/
def follows (c : Cmd) (m : Msg) (s : State) : Bool :=
  match c.frag with
  | none => true
  | some f =>
    let p := f (messageWords c.code m)
    p.opening || (match (s.dev.chan m.ch).frag with
      | some h => h.code == BitVec.ofNat 16 c.code && (f (h.msgs.headD [])).obj == p.obj
      | none => false)

/-- A message that completes its object: no fragment, or the last one of an object whose fragments cover it without gap or
overlap (16 R392). -/
def whole (c : Cmd) (m : Msg) (s : State) : Bool :=
  follows c m s && (match c.frag with
    | none => true
    | some f =>
      let p := f (messageWords c.code m)
      p.last && ((heldMsgs c m s).map f).foldl (fun a q => match a with
        | some n => if q.first = n then some (n + q.len) else none
        | none => none) (some 0) == some p.first)

/-- Items 1 to 3 of R380: version, layout and permission. -/
abbrev LayoutOk (c : Cmd) (m : Msg) (s : State) : Prop :=
  m.ver = 1 ∧ whole c m s = true ∧ layoutErr c (messageWords c.code m) = none
    ∧ permitted c (ctxOf c m s) (posted c m s) = true ∧ modeErr c (ctxOf c m s) (posted c m s) = none

/-- The conditions under which a configuration command outside a change set is accepted, with its trigger time: it is
served, its layout and sender are right, nothing locks the configuration, and items 5 to 8 of R380 pass (16 R380, R383). -/
abbrev Passes (c : Cmd) (m : Msg) (s : State) (trig : Time) : Prop :=
  Serves m s ∧ LayoutOk c m s ∧ isMember (ctxOf c m s) = false ∧ lockErr (posted c m s) = none
    ∧ (c.trigger (ctxOf c m s) (posted c m s)).or (triggerOf (ctxOf c m s)) = some trig
    ∧ changeErr c (ctxOf c m s) (some trig) (posted c m s) = none

/-- MBX_ACK after a message is answered: its code, tag and detail, with ack_valid set and the channel free (15 R365). -/
abbrev Acked (d : Dev) (m : Msg) (code detail : Nat) : Prop :=
  (d.chan m.ch).posted = false ∧ (d.chan m.ch).ackValid = true
    ∧ (d.chan m.ch).ack = ackWord code m.tag.toNat detail

/-- The change that an accepted configuration command leaves pending: its messages, tag, sender, trigger time, object and
boundaries (16 R381, R383; 02 R46). -/
abbrev Pending (c : Cmd) (m : Msg) (s : State) (trig : Time) (e : Change) : Prop :=
  e.handle = nextHandle (posted c m s) ∧ e.msgs = (ctxOf c m s).msgs ∧ e.code = BitVec.ofNat 16 c.code ∧ e.tag = m.tag
    ∧ e.ch = m.ch ∧ e.sender = (s.dev.chan m.ch).bind.sender ∧ e.trig = trig ∧ e.accepted = s.clock.now
    ∧ e.obj = c.obj (ctxOf c m s) (posted c m s) ∧ e.parts = c.parts (ctxOf c m s) (posted c m s)

/-- A configuration command completes: the row answers ACCEPTED_DEFERRED with the change's handle, the change is pending,
and at its boundaries it has the effect `P` (16 R383; 02 R46, R53). -/
def Carries (row : Msg → Instr) (c : Cmd) (P : Change → Prop) : Prop :=
  ∀ (m : Msg) (s : State) (trig : Time), Passes c m s trig →
    ∃ d e, exec (row m) s = .next (withDev s d) ∧ Acked d m rcDeferred (nextHandle (posted c m s))
      ∧ e ∈ d.fab.fw.changes ∧ Pending c m s trig e ∧ P e

/-- A creation has made the tributary that its request describes, in the unit that holds its place (07 R165-R167). -/
abbrev Made (c : Change) (r : TribReq) (d : Dev) (t : Time) (rx tx : Bool) : Prop :=
  ∃ y, d.trib r.n = some y ∧ y.typ = r.typ ∧ y.method = r.method ∧ y.port = (if r.onPort then some r.p else none)
    ∧ y.parent = (if r.onPort then r.n else r.parent) ∧ y.owner = c.sender ∧ y.created = t ∧ y.rxOn = rx ∧ y.txOn = tx
    ∧ ∀ pl, c.place = some pl → y.unit = pl.unit

/-- Only a mailbox, the interrupts and the recorder may differ: the traffic of answering (15 R367; 17 R409; 18 R432). -/
def OnlyTalk (d d' : Dev) : Prop :=
  d'.fab = { d.fab with mbx := d'.fab.mbx, irq := d'.fab.irq } ∧ d'.aon = { d.aon with fmn := d'.aon.fmn }

/-- The fragments of a reply on the paired channel (16 R387). -/
def replies (c : Cmd) (m : Msg) (s : State) (items : List Word) : List OutMsg :=
  let fs := chunks13 (items.length / 13 + 1) items
  let w0 := (ctxOf c m s).w 0
  (List.range fs.length).map fun i =>
    ⟨.reply, pad 16 ([fwHeader 0x02 16, wd (w0.toNat / 65536 * 65536 + m.tag.toNat * 256), wd (i * 65536 + fs.length)]
      ++ fs.getD i [])⟩

/-- The configuration commands of R395 but CS_COMMIT. -/
def configRows : List ((Msg → Instr) × Cmd) :=
  [(.ownerSet, cmdOwnerSet.ahead), (.laneConfig, cmdLaneConfig.ahead), (.portCreate, cmdPortCreate.ahead), (.portDelete, cmdPortDelete.ahead),
   (.sdhPortConfig, cmdSdhPortConfig.ahead), (.sdhOhConfig, cmdSdhOhConfig.ahead), (.otnPortConfig, cmdOtnPortConfig.ahead),
   (.otnStructSet, cmdOtnStructSet.ahead), (.otnOhConfig, cmdOtnOhConfig.ahead), (.oduTcmConfig, cmdOduTcmConfig.ahead),
   (.ethPortConfig, cmdEthPortConfig.ahead), (.flexeGroupConfig, cmdFlexeGroupConfig.ahead), (.flexeClientSet, cmdFlexeClientSet.ahead),
   (.mtnPathConfig, cmdMtnPathConfig.ahead), (.fgChanCreate, cmdFgChanCreate.ahead), (.fgChanResize, cmdFgChanResize.ahead),
   (.fgChanDelete, cmdFgChanDelete.ahead), (.tribCreate, cmdTribCreate.ahead), (.tribModify, cmdTribModify.ahead),
   (.tribEnable, cmdTribEnable.ahead), (.tribDisable, cmdTribDisable.ahead), (.tribDelete, cmdTribDelete.ahead),
   (.oduflexResize, cmdOduflexResize.ahead), (.xcConnect, cmdXcConnect.ahead), (.xcDisconnect, cmdXcDisconnect.ahead),
   (.pgModify, cmdPgModify.ahead), (.pgDelete, cmdPgDelete.ahead), (.pgCommand, cmdPgCommand.ahead), (.schedConfig, cmdSchedConfig.ahead),
   (.queueConfig, cmdQueueConfig.ahead), (.classMapSet, cmdClassMapSet.ahead), (.policerSet, cmdPolicerSet.ahead),
   (.pmEpochSet, cmdPmEpochSet.ahead), (.pmTcaSet, cmdPmTcaSet.ahead), (.defectConfig, cmdDefectConfig.ahead),
   (.clkSlotConfig, cmdClkSlotConfig.ahead), (.clkDpllConfig, cmdClkDpllConfig.ahead), (.clkOutConfig, cmdClkOutConfig.ahead),
   (.clkHistoryReset, cmdClkHistoryReset.ahead), (.clkDeviceConfig, cmdClkDeviceConfig.ahead), (.fwActivate, cmdFwActivate.ahead),
   (.traceSet, cmdTraceSet.ahead), (.sdhStructSet, cmdSdhStructSet.ahead), (.fcGroupConfig, cmdFcGroupConfig.ahead),
   (.pgCreate, cmdPgCreate.ahead), (.gateListSet, cmdGateListSet.ahead)]

/-- The queries of R395. -/
def queryRows : List ((Msg → Instr) × Cmd) :=
  [(.deviceInfoGet, cmdDeviceInfoGet.ahead), (.lastErrorGet, cmdLastErrorGet.ahead), (.laneStatusGet, cmdLaneStatusGet.ahead),
   (.portStatusGet, cmdPortStatusGet.ahead), (.portPartnerGet, cmdPortPartnerGet.ahead),
   (.otnPortStatusGet, cmdOtnPortStatusGet.ahead), (.flexeStatusGet, cmdFlexeStatusGet.ahead),
   (.tribStatusGet, cmdTribStatusGet.ahead), (.xcGet, cmdXcGet.ahead), (.pgStatusGet, cmdPgStatusGet.ahead),
   (.queueStatsGet, cmdQueueStatsGet.ahead), (.queueHwmGet, cmdQueueHwmGet.ahead), (.pmBinGet, cmdPmBinGet.ahead),
   (.pmLedgerGet, cmdPmLedgerGet.ahead), (.clkStatusGet, cmdClkStatusGet.ahead), (.govStatusGet, cmdGovStatusGet.ahead),
   (.govLedgerGet, cmdGovLedgerGet.ahead), (.recRead, cmdRecRead.ahead), (.recDumpRead, cmdRecDumpRead.ahead),
   (.fwInfoGet, cmdFwInfoGet.ahead), (.certGet, cmdCertGet.ahead), (.attestQuote, cmdAttestQuote.ahead),
   (.cfgDigestGet, cmdCfgDigestGet.ahead)]

/-- The actions of R395 but FW_IMAGE_LOAD. -/
def actionRows : List ((Msg → Instr) × Cmd) :=
  [(.csAbort, cmdCsAbort.ahead), (.cfgLock, cmdCfgLock.ahead), (.deviceConfig, cmdDeviceConfig.ahead),
   (.deviceStandby, cmdDeviceStandby.ahead), (.echo, cmdEcho.ahead), (.govMigrate, cmdGovMigrate.ahead), (.recMark, cmdRecMark.ahead),
   (.recDumpClear, cmdRecDumpClear.ahead), (.debugUnlock, cmdDebugUnlock.ahead)]

/-- The rows that act in standby: what AON holds, the clocks, the resets and wakes, and device time (14 R331; 19 R436). -/
def aonActs : Instr → Bool
  | .recCaptureComplete .. | .oscLoss .. | .thermalSample .. | .railSample .. | .powerWindowEnd .. | .faultEvent ..
  | .faultWindowEnd .. | .faultClassDecay .. | .heartbeatTimeout .. | .dumpComplete .. | .recordWrite ..
  | .wearAccrual .. | .wearLedgerFlashWrite .. | .fltSrcCaptureComplete .. | .aonPowerOnReset .. | .systemReset ..
  | .wakeN .. | .i2cWakeCommand .. | .refselChange .. | .refselDebounced .. | .dfeFrame .. | .esmcQlTimeout ..
  | .clkActivityWindowEnd .. | .frequencyGateEnd .. | .dpllEvaluation .. | .dpllLock .. | .dpllLostExit ..
  | .freezeEnd .. => true
  | _ => false

/-- The rows that end standby, if they act (14 R331; 19 R436). -/
def leavesStandby : Instr → Bool
  | .aonPowerOnReset .. | .systemReset .. | .wakeN .. | .i2cWakeCommand .. => true
  | _ => false

/-- The rows that Snowdrop stops: firmware's and the governed fabric's (18 R427). -/
def stopsInSnowdrop : Instr → Bool
  | .remapClrWrite .. | .selfTestComplete .. | .pcieReset .. | .vfFlr .. | .i2cPortReset .. | .octetBoundary ..
  | .configBankSwap .. | .crossedTimeout .. | .coreWakeComplete .. | .coreRestartComplete .. | .bootStage ..
  | .activationFallback .. | .sdhPatternFound .. | .sdhRxFrame .. | .sdhLofChange .. | .sdhTxFrame ..
  | .sdhLomChange .. | .otnPatternFound .. | .otnRxFrame .. | .otnLofChange .. | .otnLomChange .. | .otnTxFrame ..
  | .oduRxFrame .. | .flexoFrame .. | .flexoLof .. | .fecSdIntervalEnd .. | .pcsStateChange .. | .ethRxBlock ..
  | .ethRxFrame .. | .ethTxPacket .. | .esmcPduRx .. | .esmcPduTx .. | .pfcFrameRx .. | .pauseFrameRx ..
  | .pauseExpiry .. | .pfcRepeat .. | .flexeOhFrame .. | .flexeLofChange .. | .flexeCalStart .. | .flexeCalSwitch ..
  | .flexeCalTimeout .. | .mtnBasRx .. | .mtnCvRx .. | .mtnApsRx .. | .fgOverheadGrain .. | .fgResizeStart ..
  | .fgBankSwitch .. | .fgResizeTimeout .. | .oduflexResizeStep .. | .oduflexResizeTimeout ..
  | .watermarkEvaluation .. | .defectFastPath .. | .pmSecondEnd .. | .pmSecondCommit .. | .degradeIntervalEnd ..
  | .pmBinBoundary .. | .pgEvaluation .. | .pgFastEvaluation .. | .holdOffExpiry .. | .wtrExpiry ..
  | .selectorSwitch .. | .bridgeSwitch .. | .pgFopNrTimeout .. | .errorlessFrame .. | .errorlessSwitch ..
  | .pgBuildOut .. | .pgStateParity .. | .packetEnqueue .. | .schedulerSelect .. | .gateEntryChange ..
  | .gateListStart .. | .batchInstant .. | .bankQueueRedistribute .. | .bankRetain .. | .bankWake ..
  | .packingEvaluation .. | .sliceOff .. | .sliceWakeComplete .. | .capEvaluation .. | .batchFramesUpdate ..
  | .migrationSnapshot .. | .migrationShadowFrame .. | .migrationCommit .. | .migrationCutover ..
  | .migrationSourceFree .. | .migrationAbort .. | .activationComplete .. | .testPin .. | .changeArm ..
  | .completionPost .. | .notificationPost .. | .notifyLost .. | .replyFragmentPost .. | .orphanDone ..
  | .fragmentTimeout .. | .csTimeout .. | .corePowerDown .. | .cryptoPowerDown .. | .contextRecreate ..
  | .fwImageLoadComplete .. | .fwActivateBoundary .. | .arbBurn .. | .laneGroupPowerDown .. | .contextRewrite ..
  | .failureDeclare .. | .failureClear .. | .ledgerRecordBuild .. | .alignBufferReplace .. | .migrationArm .. => true
  | _ => false

end Sys2Proof.Safety
end

