-- ==== Sys2Proof/Certificates/Slice0/Obligations.lean ====
section
/-!
DEFINITION. The statements for the provers.
-/
open Sys2Proof Sys2Proof.Machine Sys2Proof.Safety

/-! ### Etlum messages (15 R366, R367; 16 R380-R390) -/

/-- A configuration command that passes items 1 to 8 of R380 is acknowledged ACCEPTED_DEFERRED with its handle, and waits
with its trigger time and boundaries; nothing else of the fabric that the command names changes yet (16 R383; 02 R46). -/
def Obligations.ConfigCommandAccepted : Prop :=
  ∀ e ∈ configRows, ∀ (m : Msg) (s : State) (trig : Time), Passes e.2 m s trig →
    ∃ d, exec (e.1 m) s = .next (withDev s d) ∧ Acked d m rcDeferred (nextHandle (posted e.2 m s))
      ∧ (∃ c ∈ d.fab.fw.changes, Pending e.2 m s trig c)
      ∧ d.fab.tribs = s.dev.fab.tribs ∧ d.fab.lanes = s.dev.fab.lanes ∧ d.fab.ports = s.dev.fab.ports
      ∧ d.fab.xc = s.dev.fab.xc ∧ d.fab.pgs = s.dev.fab.pgs
      ∧ d.fab.clk = s.dev.fab.clk ∧ d.fab.fw.db = s.dev.fab.fw.db ∧ d.aon.flash = s.dev.aon.flash

/-- A configuration command with cs_member joins the change set it names: the first member opens the set, with detail 0,
a further one of the same master takes the next number (16 R390). Nothing is accepted until CS_COMMIT.

CS_COMMIT of a set that the sender holds: if every member passes its checks, each taken as if the earlier ones had
applied, all are accepted with one handle and one trigger time; otherwise the set is discarded and the detail names the
member that failed (16 R390; 02 R49).

A fragment that is not its object's last is held on its channel behind the fragments that it follows, and answered OK
(16 R392). -/
def Obligations.ChangeSets : Prop :=
  (∀ e ∈ configRows, ∀ (m : Msg) (s : State), Serves m s → LayoutOk e.2 m s →
      isMember (ctxOf e.2 m s) = true → lockErr (posted e.2 m s) = none →
      (s.dev.fab.fw.sets.find? (·.num == fld ((ctxOf e.2 m s).w 1) 23 16) = none → s.dev.fab.fw.sets.length < 256 →
        ∃ d, exec (e.1 m) s = .next (withDev s d) ∧ Acked d m rcOk 0
          ∧ d.fab.fw = { s.dev.fab.fw with sets := s.dev.fab.fw.sets ++
              [⟨fld ((ctxOf e.2 m s).w 1) 23 16, (s.dev.chan m.ch).bind.sender,
                [⟨m.ch, BitVec.ofNat 16 e.2.code, m.tag, (ctxOf e.2 m s).msgs⟩], s.clock.now⟩] })
      ∧ (∀ y, s.dev.fab.fw.sets.find? (·.num == fld ((ctxOf e.2 m s).w 1) 23 16) = some y →
          y.owner = (s.dev.chan m.ch).bind.sender → y.members.length < 256 →
        ∃ d, exec (e.1 m) s = .next (withDev s d) ∧ Acked d m rcOk y.members.length
          ∧ d.fab.fw.changes = s.dev.fab.fw.changes))
  ∧ (∀ (m : Msg) (s : State) (y : CSet),
      let c := cmdCsCommit cmdFor
      let x := ctxOf c m s
      let d0 := (posted c m s).onFw fun f => { f with sets := f.sets.filter fun z => z.num != fld (x.w 1) 23 16 }
      Serves m s → LayoutOk c m s → lockErr (posted c m s) = none →
      s.dev.fab.fw.sets.find? (·.num == fld (x.w 1) 23 16) = some y → y.owner = (s.dev.chan m.ch).bind.sender →
      (∀ l, checkMembers cmdFor x (triggerOf x) 0 y.members d0 = .ok l →
        ∃ d, exec (.csCommit m) s = .next (withDev s d) ∧ Acked d m rcDeferred (nextHandle d0)
          ∧ OnlyTalk (acceptMembers cmdFor x ((triggerOf x).getD x.t) (nextHandle d0) 0 y.members l d0) d
          ∧ (∀ e ∈ d.fab.fw.sets, e.num ≠ fld (x.w 1) 23 16)
          ∧ ∀ i z p, y.members[i]? = some z → l[i]? = some p → ∃ e ∈ d.fab.fw.changes, e.handle = nextHandle d0 ∧ e.mem = i
              ∧ e.code = z.code ∧ e.msgs = z.msgs ∧ e.trig = (triggerOf x).getD x.t ∧ e.obj = p.1 ∧ e.parts = p.2.1)
      ∧ (∀ i r, checkMembers cmdFor x (triggerOf x) 0 y.members d0 = .error (i, r) →
        ∃ d, exec (.csCommit m) s = .next (withDev s d) ∧ Acked d m r.code i ∧ OnlyTalk d0 d))
  ∧ (∀ e ∈ configRows, ∀ (m : Msg) (s : State) (f : List Word → FragPos),
      let ws := messageWords e.2.code m
      Serves m s → m.ver = 1 → e.2.frag = some f → (f ws).last = false → follows e.2 m s = true →
      layoutErr e.2 ws = none → lockErr s.dev = none →
      permitted e.2 ⟨s.clock.now, m.ch, (s.dev.chan m.ch).bind.sender, [ws]⟩ (afterPost e.2 m s) = true →
      ∃ d, exec (e.1 m) s = .next (withDev s d) ∧ Acked d m rcOk 0 ∧ OnlyTalk s.dev d
        ∧ (d.chan m.ch).frag = some ⟨BitVec.ofNat 16 e.2.code, ws.getD 4 0, (ctxOf e.2 m s).msgs, s.clock.now⟩)

/-- A query in mailbox mode that passes its checks is answered OK with the number of fragments, its result queued on the
paired channel in fragments of 13 words (16 R383, R387).

A query in host-memory mode whose result fits the units the sender gives writes its length and words at the address
of W2 and W3, and answers OK with the units used (16 R387). -/
def Obligations.QueriesAnswered : Prop :=
  (∀ e ∈ queryRows, ∀ (m : Msg) (s : State), Serves m s → LayoutOk e.2 m s →
      e.2.chk (ctxOf e.2 m s) (posted e.2 m s) = none → (e.2.run (ctxOf e.2 m s) (posted e.2 m s)).code = 0 →
      fld ((ctxOf e.2 m s).w 1) 31 30 = 0 →
      ∃ d, exec (e.1 m) s = .next (withDev s d)
        ∧ Acked d m rcOk (fragCount (e.2.run (ctxOf e.2 m s) (posted e.2 m s)).items)
        ∧ (d.chan (s.dev.chan m.ch).bind.pair).outs = (s.dev.chan (s.dev.chan m.ch).bind.pair).outs
            ++ replies e.2 m s (e.2.run (ctxOf e.2 m s) (posted e.2 m s)).items
        ∧ d.fab.tribs = s.dev.fab.tribs ∧ d.fab.ports = s.dev.fab.ports ∧ d.fab.lanes = s.dev.fab.lanes
        ∧ d.fab.fw = s.dev.fab.fw ∧ d.fab.hostMem = s.dev.fab.hostMem ∧ d.aon.flash = s.dev.aon.flash)
  ∧ (∀ e ∈ queryRows, ∀ (m : Msg) (s : State), Serves m s → LayoutOk e.2 m s →
      e.2.chk (ctxOf e.2 m s) (posted e.2 m s) = none → (e.2.run (ctxOf e.2 m s) (posted e.2 m s)).code = 0 →
      fld ((ctxOf e.2 m s).w 1) 31 30 = 1 →
      hostUnits (e.2.run (ctxOf e.2 m s) (posted e.2 m s)).items ≤ fld ((ctxOf e.2 m s).w 1) 15 0 →
      ∃ d, exec (e.1 m) s = .next (withDev s d)
        ∧ Acked d m rcOk (hostUnits (e.2.run (ctxOf e.2 m s) (posted e.2 m s)).items)
        ∧ d.fab.hostMem = (((ctxOf e.2 m s).w 2).toNat * 2 ^ 32 + ((ctxOf e.2 m s).w 3).toNat,
            wd (e.2.run (ctxOf e.2 m s) (posted e.2 m s)).items.length
              :: (e.2.run (ctxOf e.2 m s) (posted e.2 m s)).items) :: s.dev.fab.hostMem)

/-- An action that passes its checks is carried out in the row and acknowledged; beside its own effect only the answer's
traffic differs (16 R383).

What each action does: CFG_LOCK sets or clears the lock, CS_ABORT discards the set, DEVICE_STANDBY enters standby,
REC_MARK writes a mark, DEVICE_CONFIG rewrites the boot configuration block, DEBUG_UNLOCK powers the debug domain, GOV_MIGRATE plans the move, ECHO replies the words after
the header (14 R331, R341; 15 R476; 16 R385, R390, R395; 18 R432). -/
def Obligations.Actions : Prop :=
  (∀ e ∈ actionRows, ∀ (m : Msg) (s : State), Serves m s → LayoutOk e.2 m s →
      e.2.chk (ctxOf e.2 m s) (posted e.2 m s) = none →
      ∃ d, exec (e.1 m) s = .next (withDev s d)
        ∧ Acked d m (e.2.run (ctxOf e.2 m s) (posted e.2 m s)).code (e.2.run (ctxOf e.2 m s) (posted e.2 m s)).detail
        ∧ OnlyTalk (e.2.run (ctxOf e.2 m s) (posted e.2 m s)).dev d ∧ OnlyTalk s.dev (posted e.2 m s))
  ∧ (∀ (x : Ctx) (d : Dev),
      (cmdCfgLock.run x d).dev = d.onFw (fun f => { f with cfgLock := bitAt (x.w 4) 0 })
      ∧ (∀ y ∈ (cmdCsAbort.run x d).dev.fab.fw.sets, y.num ≠ fld (x.w 4) 7 0)
      ∧ (cmdDeviceStandby.run x d).dev.aon.standby = true ∧ (cmdDeviceStandby.run x d).dev.fab = d.fab
      ∧ (cmdDebugUnlock.run x d).dev = d.onPd (fun p => { p with debug := true })
      ∧ (d.aon.fmn.frozen = false → d.aon.fmn.dropped = 0 → d.aon.fmn.staging.length < 256 →
          (cmdRecMark.run x d).dev.aon.fmn.staging = d.aon.fmn.staging ++
            [⟨d.aon.fmn.next, x.t, recWords d.aon.fmn.next 0x0A 0 0xFF x.t [x.w 4, x.w 5, x.w 6, x.w 7], false⟩])
      ∧ (∃ p ∈ (cmdGovMigrate.run x d).dev.fab.plan, p.t = fld (x.w 4) 16 0 ∧ p.dst = fld (x.w 5) 4 0)
      ∧ (cmdDeviceConfig.run x d).dev = d.onFlash (bcbRewrite (bitAt (x.w 4) 31))
      ∧ (cmdRecDumpClear.run x d).dev.fab = d.fab
      ∧ (cmdEcho.run x d).dev = reply x (item 1 0 ((x.msgs.getLastD []).drop 4)) d)

/-- Firmware refuses in the order of R380: a protocol version other than 1 is BAD_OPCODE, then the layout, then the
permission, then the lock for a configuration command; a refused message changes nothing beside the answer's traffic.

A message whose tag is the one acknowledged last gets the same acknowledge again and is not carried out again
(15 R369). -/
def Obligations.RefusalOrder : Prop :=
  (∀ e ∈ configRows ++ queryRows ++ actionRows, ∀ (m : Msg) (s : State), Serves m s → whole e.2 m s = true →
      (m.ver ≠ 1 → ∃ d, exec (e.1 m) s = .next (withDev s d) ∧ Acked d m rcBadOpcode 0 ∧ OnlyTalk s.dev d)
      ∧ (∀ r, m.ver = 1 → layoutErr e.2 (messageWords e.2.code m) = some r →
          ∃ d, exec (e.1 m) s = .next (withDev s d) ∧ Acked d m r.code r.detail ∧ OnlyTalk s.dev d)
      ∧ (m.ver = 1 → layoutErr e.2 (messageWords e.2.code m) = none →
          permitted e.2 (ctxOf e.2 m s) (posted e.2 m s) = false →
          (e.2.kind = .query → (s.dev.chan m.ch).bind.sender ≠ 20) →
          ∃ d, exec (e.1 m) s = .next (withDev s d) ∧ Acked d m rcNotPermitted 0 ∧ OnlyTalk s.dev d)
      ∧ (LayoutOk e.2 m s → e.2.kind = .config → s.dev.fab.fw.cfgLock = true →
          ∃ d, exec (e.1 m) s = .next (withDev s d) ∧ Acked d m rcLocked 0 ∧ OnlyTalk s.dev d))
  ∧ (∀ e ∈ configRows ++ queryRows ++ actionRows, ∀ (m : Msg) (s : State) (v : Word), FwRuns s →
      s.dev.aon.coll.clusterLost = false → mayPost s.dev m.ch = true → (s.dev.chan m.ch).posted = false →
      (s.dev.chan m.ch).orphan = false → (servingCore s.dev m.ch).isSome = true →
      (s.dev.chan m.ch).lastAck = some (m.tag, v) →
      ∃ d, exec (e.1 m) s = .next (withDev s d) ∧ (d.chan m.ch).posted = false ∧ (d.chan m.ch).ackValid = true
        ∧ (d.chan m.ch).ack = v ∧ OnlyTalk s.dev d ∧ d.aon = s.dev.aon)

/-- FW_IMAGE_LOAD of an image that passes checks 1 to 7, into the bank that does not run, erases that bank, starts the write
and is acknowledged ACCEPTED_DEFERRED (19 R440, R443, R449). -/
def Obligations.ImageLoadStarts : Prop :=
  ∀ (m : Msg) (image : List Octet) (s : State),
    let c := cmdFwImageLoad image
    let x := ctxOf c m s
    Serves m s → LayoutOk c m s → imageFault (image.take (x.w 6).toNat) (posted c m s) = none →
    s.dev.fab.boot.bank ≠ fld (x.w 7) 0 0 → s.dev.fab.fw.load = none →
    ∃ d, exec (.fwImageLoad m image) s = .next (withDev s d) ∧ Acked d m rcDeferred (nextHandle (posted c m s))
      ∧ d.fab.fw.load = some ⟨m.ch, m.tag, nextHandle (posted c m s), fld (x.w 7) 0 0, image.take (x.w 6).toNat⟩
      ∧ d.aon.flash = { s.dev.aon.flash with
          mem := flashProgram s.dev.aon.flash.mem (bankAddr (fld (x.w 7) 0 0)) 4194304 [] }

/-! ### Registers (15 R362-R368; 17 R398-R410; 18 R420-R435) -/

/-- The mailbox registers: a data word is written while the channel is free, and is a late write while a message is
posted; go posts a message and clears ack_valid; the receiver's acknowledge is loaded and frees the channel; its read of
DATA0 sets taken; MBX_STS clears by its sequence number.

A go on a channel that is posted is ignored: it sets go_busy_l and counts MBX_PROTOCOL; an MBX_ACKW on a channel that
is not posted likewise sets its bit. The message and its acknowledge stay as they are (15 R367, R368). -/
def Obligations.MailboxAccesses : Prop :=
  (∀ (a : Acc) (ch i : Nat) (s : State), Runs s → a.whole = true → fencedMaster s.dev a.master = false → ch < 64 → i < 16 →
      (admits s.dev a.master (0x10000 + ch * 0x100 + 4 * i) true = true → (s.dev.chan ch).posted = false →
        exec (.mbxDataWrite a ch i) s
          = .next (withDev s (s.dev.modChan ch fun x => { x with data := lset x.data i a.data })))
      ∧ (admits s.dev a.master (0x10000 + ch * 0x100 + 4 * i) true = true → (s.dev.chan ch).posted = true →
        ∃ d, exec (.mbxDataWrite a ch i) s = .next (withDev s d) ∧ (d.chan ch).data = (s.dev.chan ch).data
          ∧ d.aon.lateWrite = s.dev.aon.lateWrite + 1 ∧ (d.chan ch).sts = (s.dev.chan ch).sts.latch 20)
      ∧ (admits s.dev a.master (0x10040 + ch * 0x100) true = true → bitAt a.data 31 = true →
          s.dev.aon.coll.clusterLost = false → (s.dev.chan ch).posted = false →
        ∃ d, exec (.mbxGoWrite a ch) s = .next (withDev s d) ∧ (d.chan ch).posted = true ∧ (d.chan ch).ackValid = false
          ∧ (d.chan ch).data = (s.dev.chan ch).data ∧ d.aon = s.dev.aon)
      ∧ (admits s.dev a.master (0x1004C + ch * 0x100) true = true → (s.dev.chan ch).posted = true →
          (s.dev.chan ch).orphan = false →
        ∃ d, exec (.mbxAckwWrite a ch) s = .next (withDev s d) ∧ (d.chan ch).ack = a.data ∧ (d.chan ch).ackValid = true
          ∧ (d.chan ch).posted = false ∧ (d.chan ch).taken = false ∧ (d.chan ch).crossed = false ∧ d.aon = s.dev.aon)
      ∧ (admits s.dev a.master (0x10000 + ch * 0x100) false = true → isReceiver s.dev a.master ch = true →
          (s.dev.chan ch).posted = true → 0x10000 + ch * 0x100 ∉ s.dev.fab.boot.zeroed →
        ∃ d, exec (.mbxData0Read a ch) s = .next (withDev s d) ∧ (d.chan ch).taken = true
          ∧ d.fab.bus = ⟨(s.dev.chan ch).data.getD 0 0, false⟩)
      ∧ (admits s.dev a.master (0x10048 + ch * 0x100) true = true →
        exec (.mbxStsWrite a ch) s = .next (withDev s (s.dev.modChan ch fun x => { x with sts := x.sts.write a.data }))))
  ∧ (∀ (a : Acc) (ch : Nat) (s : State), Runs s → a.whole = true → fencedMaster s.dev a.master = false → ch < 64 →
      (admits s.dev a.master (0x10040 + ch * 0x100) true = true → bitAt a.data 31 = true → (s.dev.chan ch).posted = true →
        exec (.mbxGoWrite a ch) s = .next (withDev s (fault 0x166 0 s.clock.now (mbxLatch ch 19 s.dev))))
      ∧ (admits s.dev a.master (0x1004C + ch * 0x100) true = true → (s.dev.chan ch).posted = false →
        exec (.mbxAckwWrite a ch) s = .next (withDev s (fault 0x166 0 s.clock.now (mbxLatch ch 18 s.dev)))))

/-- A sequenced status register: an event sets its bit and advances seq_num, also where the bit is set already; a write
whose [31:24] equals seq_num clears the bits it carries, and any other write changes nothing (17 R399); each status row writes its own register and nothing else, but that clearing first_l re-arms
the first-fault record (18 R420). -/
def Obligations.SequencedStatusWrites : Prop :=
  ∀ (a : Acc) (s : State), Runs s → a.whole = true → fencedMaster s.dev a.master = false →
    (∀ q : Sq, (a.data.extractLsb' 24 8 = q.seq → q.write a.data = ⟨q.seq, q.bits &&& ~~~ (a.data.extractLsb' 0 24)⟩)
      ∧ (a.data.extractLsb' 24 8 ≠ q.seq → q.write a.data = q)
      ∧ ∀ n < 24, (q.latch n).seq = q.seq + 1 ∧ ∀ i < 24, (q.latch n).bits.getLsbD i = (i == n || q.bits.getLsbD i))
    ∧ (admits s.dev a.master 0x20000 true = true → exec (.irqStsWrite a) s
        = .next (withDev s (s.dev.onIrq fun q => { q with sts := q.sts.write a.data })))
    ∧ (admits s.dev a.master 0x50010 true = true → exec (.pwrStsWrite a) s
        = .next (withDev s (s.dev.onPwr fun q => { q with sts := q.sts.write a.data })))
    ∧ (admits s.dev a.master 0x60030 true = true → exec (.clkStsWrite a) s
        = .next (withDev s (s.dev.onClk fun q => { q with sts := q.sts.write a.data })))
    ∧ (admits s.dev a.master 0x70000 true = true → exec (.recStsWrite a) s
        = .next (withDev s (s.dev.onFmn fun q => { q with sts := q.sts.write a.data })))
    ∧ (admits s.dev a.master 0x30000 true = true → exec (.fltStsWrite a) s
        = .next (withDev s (s.dev.onColl fun c => { c with
            sts := c.sts.write a.data
            first := if c.sts.has 18 && !(c.sts.write a.data).has 18 then {} else c.first })))

/-- Registers by their access codes: SCRATCH, PWR_CAP, PWR_POLICY, PWR_PACK and IRQ_ALERT_EN take what is written (reserved
bits stay 0), a read-only register ignores a write, an alias word sets or clears its one RW bit, and IDN_LOCK only sets
its bits (17 R7 as 01 gives it, R398, R402, R404, R412-R414).

A write-once bit that a write would clear stays set, and the write is counted as a lock violation; a write that would
change none is not (17 R402). -/
def Obligations.RegisterWrites : Prop :=
  (∀ (a : Acc) (s : State), Runs s → a.whole = true → a.master = 0 →
      exec (.registerWrite a 0x20) s = .next (withDev s (s.dev.onFab fun f => { f with scratch := a.data }))
      ∧ exec (.registerWrite a 0x50000) s = .next (withDev s (s.dev.onPwr fun p => { p with cap := a.data &&& 0x8FFFFFFF }))
      ∧ exec (.registerWrite a 0x50004) s = .next (withDev s (s.dev.onPwr fun p => { p with policy := a.data &&& 0xF8FFFFFF }))
      ∧ exec (.registerWrite a 0x50008) s = .next (withDev s (s.dev.onPwr fun p => { p with pack := a.data }))
      ∧ exec (.registerWrite a 0x20008) s
          = .next (withDev s (s.dev.onIrq fun q => { q with alertEn := BitVec.ofNat 6 (fld a.data 23 18) }))
      ∧ (∀ off ∈ [0x0, 0x4, 0x8, 0xC, 0x10, 0x14, 0x18, 0x14000, 0x14004, 0x14008, 0x20004, 0x2000C, 0x30004, 0x30008, 0x50014,
          0x50018, 0x60000, 0x60010, 0x60020, 0x70004, 0x70008, 0x70010], exec (.registerWrite a off) s = .next s)
      ∧ (∀ b, b < 32 → b ≠ 28 → b ≠ 29 → b ≠ 30 →
          exec (.bitAliasWrite a (0x1000000 + 0x30000 * 32 + 4 * b)) s = .next (withDev s (s.dev.onPwr fun p => { p with
            cap := if bitAt a.data 0 then p.cap ||| wd (2 ^ b) else p.cap &&& ~~~ wd (2 ^ b) })))
      ∧ (∃ d, exec (.idnLockWrite a) s = .next (withDev s d) ∧ d.fab.dbgLock = (s.dev.fab.dbgLock || bitAt a.data 31)
          ∧ d.fab.i2cLock = (s.dev.fab.i2cLock || bitAt a.data 30)
          ∧ (d.fab.dbgLock = true → d.fab.pd.debug = false)))
  ∧ (∀ (a : Acc) (s : State), Runs s → a.whole = true → a.master = 0 →
      (s.dev.fab.dbgLock = true → bitAt a.data 31 = false →
        ∃ d, exec (.idnLockWrite a) s = .next (withDev s d) ∧ d.fab.dbgLock = true
          ∧ d.aon.lockViolation = s.dev.aon.lockViolation + 1)
      ∧ (s.dev.fab.dbgLock = false → s.dev.fab.i2cLock = false →
        ∃ d, exec (.idnLockWrite a) s = .next (withDev s d) ∧ d.aon = s.dev.aon))

/-- Captures: WV_SEL starts a capture and its completion takes the whole value named at once; FLT_SRC_SEL and REC_SEL
likewise; a selector written while its capture runs is a late write (17 R401, R405, R406; 18 R431, R435). -/
def Obligations.Captures : Prop :=
  ∀ (a : Acc) (s : State) (w : Nat), Runs s → a.whole = true → a.master = 0 → w < 12 →
    ((tgetD s.dev.fab.wv w {}).busy = false →
      exec (.wvSelWrite a w) s = .next (withDev s (s.dev.onFab fun f => { f with
        wv := tput f.wv w { tgetD f.wv w {} with index := a.data, busy := true, valid := false } })))
    ∧ ((tgetD s.dev.fab.wv w {}).busy = true →
      ∃ d, exec (.wvSelWrite a w) s = .next (withDev s d) ∧ d.fab.wv = s.dev.fab.wv
        ∧ d.aon.lateWrite = s.dev.aon.lateWrite + 1)
    ∧ ((tgetD s.dev.fab.wv w {}).busy = true →
      exec (.wvCaptureComplete w) s = .next (withDev s (s.dev.onFab fun f => { f with
        wv := tput f.wv w ⟨(tgetD s.dev.fab.wv w {}).index, false, true,
          (wideValue s.dev s.clock.now (tgetD s.dev.fab.wv w {}).index.toNat).isNone,
          BitVec.ofNat 64 ((wideValue s.dev s.clock.now (tgetD s.dev.fab.wv w {}).index.toNat).getD 0)⟩ })))
    ∧ (s.dev.aon.coll.sel.busy = false →
      exec (.fltSrcSelWrite a) s = .next (withDev s (s.dev.onColl fun c => { c with
        sel := { c.sel with source := BitVec.ofNat 9 (fld a.data 8 0), busy := true, valid := false } })))
    ∧ (s.dev.aon.coll.sel.busy = true →
      exec .fltSrcCaptureComplete s = .next (withDev s (s.dev.onColl fun c => { c with sel :=
        { source := c.sel.source, busy := false, valid := true
          pending := (s.dev.src c.sel.source.toNat).pending
          cls := BitVec.ofNat 2 (srcClass s.dev c.sel.source.toNat)
          inWindow := BitVec.ofNat 24 (s.dev.src c.sel.source.toNat).count
          total := (s.dev.src c.sel.source.toNat).total } })))
    ∧ (s.dev.aon.fmn.busy = false →
      exec (.recSelWrite a) s = .next (withDev s (s.dev.onFmn fun r => { r with
        slot := BitVec.ofNat 16 (fld a.data 15 0), busy := true, valid := false })))
    ∧ (s.dev.aon.fmn.busy = true → ∀ r, ringRecord s.dev s.dev.aon.fmn.slot.toNat = some r →
      exec .recCaptureComplete s = .next (withDev s (s.dev.onFmn fun f => { f with
        busy := false, valid := true, bad := false, numHi := BitVec.ofNat 8 (r.num / 2 ^ 32), data := r.ws })))
    ∧ (s.dev.aon.fmn.busy = false →
      exec (.recData7Read a) s = .next (withDev s (startCapture ((s.dev.aon.fmn.slot.toNat + 65535) % 65536)
        (s.dev.setBus (regValue s.dev 0 0x7003C) false))))
    ∧ exec (.recHeadHiRead a) s = .next (withDev s ((s.dev.setBus (regValue s.dev 0 0x70004) false).onFmn fun r =>
        { r with headLo := wd (r.newest % 2 ^ 32) }))

/-- The fault collector's registers: FLT_ACK clears one pending bit; FLT_RETURN of a fenced unit that may return starts
its self-test, and of one that may not answers refused at once; FLT_INJ is ignored outside factory test mode
(18 R421, R423, R430).

A self-test ends at its time. A passed one returns the unit: its fence clears, its sources go back to their initial class with closed
windows, and return_done_l is latched; a failed one leaves it fenced (18 R423). -/
def Obligations.CollectorWrites : Prop :=
  (∀ (a : Acc) (s : State), Runs s → a.whole = true → a.master = 0 →
      exec (.fltAckWrite a) s = .next (withDev s (s.dev.onColl fun c => { c with
          src := tupd c.src (fld a.data 8 0) fun x => { x with pending := false } }))
      ∧ (s.dev.aon.coll.ret.busy = false → returnRefused (fld a.data 7 0) s.dev = false →
        exec (.fltReturnWrite a) s = .next (withDev s (s.dev.onColl fun c => { c with
          ret := { c.ret with unit := BitVec.ofNat 8 (fld a.data 7 0), busy := true }, retSince := s.clock.now })))
      ∧ (s.dev.aon.coll.ret.busy = false → returnRefused (fld a.data 7 0) s.dev = true →
        exec (.fltReturnWrite a) s = .next (withDev s (fltLatch 19 (s.dev.onColl fun c => { c with
          ret := ⟨BitVec.ofNat 8 (fld a.data 7 0), false, 3, BitVec.ofNat 8 (fld a.data 7 0)⟩ }))))
      ∧ (s.dev.aon.coll.factory = false → exec (.fltInjWrite a) s = .next s)
      ∧ (s.dev.aon.coll.factory = true → bitAt a.data 31 = false →
        exec (.fltInjWrite a) s = .next (withDev s (s.dev.onColl fun c => { c with
          injUnit := BitVec.ofNat 8 (fld a.data 23 16), injSource := BitVec.ofNat 9 (fld a.data 8 0) }))))
  ∧ (∀ (s : State), Runs s → s.dev.aon.coll.ret.busy = true →
      s.dev.aon.coll.retSince + selfTestTime s.dev.aon.coll.ret.unit.toNat ≤ s.clock.now →
      (∃ d, exec (.selfTestComplete true) s = .next (withDev s d)
        ∧ s.dev.aon.coll.ret.unit.toNat ∉ d.aon.coll.fenced ∧ d.aon.coll.ret.busy = false ∧ d.aon.coll.ret.result = 1
        ∧ d.aon.coll.sts = s.dev.aon.coll.sts.latch 19
        ∧ (∀ e ∈ d.aon.coll.src, (match srcInfo e.1 with | some i => i.unit == s.dev.aon.coll.ret.unit.toNat | none => false) = true →
            e.2.rise = 0 ∧ e.2.count = 0 ∧ e.2.winStart = none))
      ∧ exec (.selfTestComplete false) s = .next (withDev s (fltLatch 19 (s.dev.onColl fun c => { c with
          ret := ⟨c.ret.unit, false, 2, c.ret.unit⟩ }))))

/-- A decode miss: an access that the matrix does not admit answers an error, but a host's posted write, and the fault
collector's miss registers hold it; one that it admits, or of a fenced core, is no miss (15 R358, R359, R361; 18 R431);
REMAP_CLR by a running core clears its remap (15 R362); the end of a vector's hold sends one message if events came in it
(17 R410). -/
def Obligations.MissRemapHold : Prop :=
  ∀ (x : Miss) (core : Nat) (data : Word) (fn v : Nat) (s : State), Runs s →
    (fencedMaster s.dev x.master = false → busAdmits s.dev x = false →
      ∃ d, exec (.decodeMiss x) s = .next (withDev s d) ∧ ((x.write = false ∨ 15 < x.master) → d.fab.bus = ⟨0, true⟩)
        ∧ d.aon.coll.miss = ⟨true, x.write, x.master, x.addr⟩)
    ∧ ((fencedMaster s.dev x.master = true ∨ busAdmits s.dev x = true) → exec (.decodeMiss x) s = .next s)
    ∧ (core < 4 → bitAt data 0 = true → coreRuns s.dev core = true →
      exec (.remapClrWrite core data) s = .next (withDev s (s.dev.modCore core fun y => { y with remap := false })))
    ∧ ((tgetD s.dev.fab.irq.msix fn {}).holds.find? (·.1 == v) = some (v, false) →
      exec (.msixHoldEnd fn v) s = .next (withDev s (s.dev.onIrq fun q => { q with
        msix := tput q.msix fn { tgetD q.msix fn {} with holds := (tgetD q.msix fn {}).holds.filter (·.1 != v) } })))
    ∧ ((tgetD s.dev.fab.irq.msix fn {}).holds.find? (·.1 == v) = some (v, true) →
        (tgetD s.dev.fab.irq.msix fn {}).masked v = false →
      ∃ d, exec (.msixHoldEnd fn v) s = .next (withDev s d) ∧ d.fab.irq.sent = (fn, v) :: s.dev.fab.irq.sent
        ∧ d.aon = s.dev.aon)

/-! ### Resets and boot (19 R436-R451; 14 R331; 15 R372-R375) -/

/-- The AON power-on reset keeps OTP and flash only, counts a boot, latches the straps and restarts device time; POR_N
does nothing in Snowdrop (19 R436, R437; 02 R37; 18 R428).

The system reset resets every domain but AON, which keeps its records, counters, clocks, sensing and governor; fences,
pending bits, lost cores and the CORE_RESTART classes are cleared. A wake from standby is a full boot; both wakes do
nothing out of standby, and the system reset nothing in Snowdrop (19 R436, R437; 14 R331). -/
def Obligations.Resets : Prop :=
  (∀ (cause : PorCause) (pins : PorPins) (s : State),
      ((s.dev.aon.snowdrop = false ∨ cause ≠ .porPin) →
        ∃ d, exec (.aonPowerOnReset cause pins) s = .next { clock := {}, dev := d, pending := s.pending }
          ∧ d.aon.flash = s.dev.aon.flash ∧ d.aon.arbStep = s.dev.aon.arbStep ∧ d.aon.revoked = s.dev.aon.revoked
          ∧ d.aon.bootCount = s.dev.aon.bootCount + 1 ∧ d.aon.snowdrop = false ∧ d.aon.standby = false
          ∧ d.aon.coll = {} ∧ d.aon.fmn = {} ∧ d.aon.pwr = {} ∧ d.aon.gov = {} ∧ d.aon.wear = [] ∧ d.aon.sense = {}
          ∧ d.aon.lateWrite = 0 ∧ d.aon.lockViolation = 0 ∧ d.aon.cfgMismatch = 0
          ∧ d.aon.oscsel = pins.oscsel ∧ d.aon.testMode = pins.testMode ∧ d.aon.i2caddr = pins.i2caddr
          ∧ d.fab = { boot := { bootsel := pins.bootsel } })
      ∧ (s.dev.aon.snowdrop = true → exec (.aonPowerOnReset .porPin pins) s = .next s))
  ∧ (∀ (b : Bool) (s : State),
      (s.dev.aon.snowdrop = false → ∃ d, exec (.systemReset b) s = .next (withDev s d)
          ∧ d.fab = { boot := { afterPor := false, bootsel := b } } ∧ d.aon.standby = false
          ∧ d.aon.coll.fenced = [] ∧ d.aon.coll.lost = [] ∧ d.aon.coll.clusterLost = false
          ∧ (∀ n, (d.src n).pending = false ∧ (d.src n).total = (s.dev.src n).total
              ∧ (d.src n).rise = if 0x158 ≤ n ∧ n ≤ 0x15B then 0 else (s.dev.src n).rise)
          ∧ d.aon.coll.first = s.dev.aon.coll.first ∧ d.aon.coll.sts = s.dev.aon.coll.sts
          ∧ d.aon = { s.dev.aon with standby := false, coll := d.aon.coll })
      ∧ (s.dev.aon.snowdrop = true → exec (.systemReset b) s = .next s)
      ∧ (s.dev.aon.standby = true → s.dev.aon.snowdrop = false →
          ∀ c ∈ [Instr.wakeN b, .i2cWakeCommand b], exec c s = exec (.systemReset b) s ∧ ∃ d, exec c s = .next (withDev s d)
            ∧ d.aon.standby = false ∧ d.fab = { boot := { afterPor := false, bootsel := b } })
      ∧ (s.dev.aon.standby = false → exec (.wakeN b) s = .next s ∧ exec (.i2cWakeCommand b) s = .next s))

/-- A reset of masters: on each channel in use with a message posted, the receiver's reset answers RX_RESET with the
message's tag and frees the channel, the sender's orphans it, both together discard it, and any other channel keeps it;
the masters' open change sets are discarded (15 R373-R375; 16 R390). -/
def Obligations.MasterResets : Prop :=
  ∀ (s : State) (k : PcieReset) (vf : Nat), Runs s → 1 ≤ vf → vf ≤ 15 →
    ∀ e ∈ [(Instr.pcieReset k, List.range 16), (.vfFlr vf, [vf]), (.i2cPortReset, [20])],
      ∃ d, exec e.1 s = .next (withDev s d) ∧ d.aon = s.dev.aon ∧ d.fab.tribs = s.dev.fab.tribs ∧ d.fab.ports = s.dev.fab.ports
        ∧ d.fab.fw = { s.dev.fab.fw with sets := s.dev.fab.fw.sets.filter fun y => !e.2.contains y.owner }
        ∧ (e.1 = .pcieReset k → d.fab.irq.msix = []) ∧ (e.1 = .vfFlr vf → tget d.fab.irq.msix vf = none)
        ∧ ∀ ch < 64, (d.chan ch).bind = (s.dev.chan ch).bind ∧ (d.chan ch).data = (s.dev.chan ch).data ∧
          ((s.dev.chan ch).posted = true → (s.dev.chan ch).bind.valid = true →
            let tx := (s.dev.chan ch).bind.sender ∈ e.2
            let rx := receiverOf s.dev ch ∈ e.2
            (rx → ¬tx → (d.chan ch).posted = false ∧ (d.chan ch).ackValid = true
              ∧ (d.chan ch).ack = wd (0xE0 * 2 ^ 24 + tagOf (s.dev.chan ch) * 65536))
            ∧ (tx → ¬rx → (d.chan ch).posted = true ∧ (d.chan ch).orphan = true ∧ (d.chan ch).ackValid = false)
            ∧ (tx → rx → (d.chan ch).posted = false ∧ (d.chan ch).ackValid = false ∧ (d.chan ch).ack = 0)
            ∧ (¬tx → ¬rx → (d.chan ch).posted = true ∧ (d.chan ch).orphan = (s.dev.chan ch).orphan
              ∧ (d.chan ch).ack = (s.dev.chan ch).ack))

/-- The boot passes through its stages in order: each shows its code and writes a record. A boot ROM that fails its check
stops it with result 2, HBM training of no channel with result 4, no verified image with result 3 or the host image's
result; an image from flash is the active bank's, else the other's with result 1; after stage 8 firmware runs with the
binding table locked (19 R438, R439, R443, R445; 15 R370). -/
def Obligations.BootStages : Prop :=
  ∀ (x : BootInfo) (s : State), Runs s → s.dev.fab.boot.failed = false →
    let goes := fun (b : Boot) => ∃ d, exec (.bootStage x) s = .next (withDev s d) ∧ OnlyTalk (s.dev.onBoot fun _ => b) d
    let b := s.dev.fab.boot
    let img := fun k => bankImage s.dev.aon.flash.mem k
    let k := s.dev.aon.flash.activeBank
    (b.stage = 0 → ∃ d, exec (.bootStage x) s = .next (withDev s d) ∧ d.fab.boot = { b with stage := 1 }
      ∧ ∀ i < 4, coreRuns d i = true)
    ∧ (b.stage = 1 → goes (if x.romOk then { b with stage := 2 } else { b with failed := true, result := 2 }))
    ∧ (b.stage = 2 → goes { b with stage := 3 })
    ∧ (b.stage = 3 → goes { b with stage := 4, pbCompat := bcbPbCompat s.dev.aon.flash.mem, squelch := bcbSquelch s.dev.aon.flash.mem })
    ∧ (b.stage = 4 → x.hbmFailed = [] → goes { b with stage := 5, source := if b.bootsel then 2 else 1 })
    ∧ (b.stage = 4 → (∀ c < 16, c ∈ x.hbmFailed) → ∃ d, exec (.bootStage x) s = .next (withDev s d)
      ∧ d.fab.boot = { b with failed := true, result := 4 })
    ∧ (b.stage = 5 → b.source = 1 → goes { b with stage := 6 })
    ∧ (b.stage = 5 → b.source = 2 → b.image = [] → exec (.bootStage x) s = .next s)
    ∧ (b.stage = 6 → b.source = 2 → imageFault b.image s.dev = none → goes { b with stage := 7 })
    ∧ (∀ n, b.stage = 6 → b.source = 2 → imageFault b.image s.dev = some n →
        goes { b with failed := true, result := BitVec.ofNat 4 (imageResult n) })
    ∧ (b.stage = 6 → b.source = 1 → imageFault (img k) s.dev = none →
        goes { b with stage := 7, image := img k, bank := k, result := 0 })
    ∧ (b.stage = 6 → b.source = 1 → imageFault (img k) s.dev ≠ none → imageFault (img (1 - k)) s.dev = none →
        goes { b with stage := 7, image := img (1 - k), bank := 1 - k, result := 1 })
    ∧ (b.stage = 6 → b.source = 1 → imageFault (img k) s.dev ≠ none → imageFault (img (1 - k)) s.dev ≠ none →
        goes { b with failed := true, result := 3 })
    ∧ (b.stage = 7 → goes { b with stage := 8 })
    ∧ (b.stage = 8 → ∃ d, exec (.bootStage x) s = .next (withDev s d)
        ∧ d.fab.boot = { b with stage := 0xFF, running := true } ∧ d.fab.mbx.locked = true
        ∧ d.fab.fw = { s.dev.fab.fw with imageStart := s.clock.now, restarts := 0 })

/-- Images and activation: the load writes its bank in flash and completes OK or INTERNAL; at the octet boundary of an
activation the cores are held and changes due within 2.5 s armed; its completion runs the new bank's image, which the
active-bank record then names, and a fallback keeps the old one with INTERNAL and detail 1 (19 R449-R451).

Anti-rollback: 600 s after firmware's start with no core restart, arb_step rises to the image's number (128 at most,
never lower) and the key slots that the image names, but its own, are revoked; sooner, or after a restart, nothing
happens. TEST_MODE without an unlock is TEST_PIN (19 R444; 18 R430). -/
def Obligations.ImagesAndAntiRollback : Prop :=
  (∀ (s : State),
      (∀ (l : ImgLoad), FwRuns s → s.dev.fab.fw.load = some l →
        (∃ d, exec (.fwImageLoadComplete true) s = .next (withDev s d) ∧ d.fab.fw = { s.dev.fab.fw with load := none }
          ∧ d.aon.flash.activeBank = s.dev.aon.flash.activeBank
          ∧ (∀ i, i < l.image.length → i < 4194304 → flashGet d.aon.flash.mem (bankAddr l.bank + i) = l.image.getD i 0)
          ∧ (∀ o, outChan s.dev (s.dev.chan l.ch).bind.sender = some o →
              (d.chan o).outs = (s.dev.chan o).outs ++ [⟨.completion,
                completionWords 0x0B02 l.tag.toNat 0 l.handle 0xFF 3 s.clock.now 0⟩]))
        ∧ (∃ d, exec (.fwImageLoadComplete false) s = .next (withDev s d) ∧ d.fab.fw.load = none
          ∧ d.aon.flash.activeBank = s.dev.aon.flash.activeBank
          ∧ (d.src 0x168).total = (s.dev.src 0x168).total + 1))
      ∧ (∀ c, FwRuns s → s.clock.now % (8 * frame) = 0 →
          s.dev.fab.fw.changes.find? (fun c => c.code == 0x0B03 && decide (c.trig ≤ s.clock.now)) = some c →
        ∃ d, exec .fwActivateBoundary s = .next (withDev s d) ∧ d.aon = s.dev.aon
          ∧ d.fab.fw.activating = some (fld (c.w 4) 0 0, s.clock.now) ∧ (∀ k < 4, coreRuns d k = false)
          ∧ (∀ p ∈ d.fab.fw.changes, p.handle ≠ c.handle ∧ (p.trig ≤ s.clock.now + sec 5 / 2 → p.armed = true
              ∨ ∃ q ∈ d.fab.fw.changes, q.obj = p.obj ∧ q.armed = true ∧ (q.trig ≠ p.trig ∨ q.parts ≠ p.parts))))
      ∧ (∀ bank t, Runs s → s.dev.fab.fw.activating = some (bank, t) →
        (s.clock.now < t + sec 2 → ∃ d, exec .activationComplete s = .next (withDev s d) ∧ d.fab.fw.activating = none
          ∧ d.aon.flash = { s.dev.aon.flash with activeBank := bank }
          ∧ d.fab.boot = { s.dev.fab.boot with image := bankImage s.dev.aon.flash.mem bank, bank := bank }
          ∧ (∀ k < 4, (s.dev.core k).on = true → 0x38 + k ∉ s.dev.aon.coll.fenced → coreRuns d k = true))
        ∧ (t + sec 2 ≤ s.clock.now → ∃ d, exec .activationFallback s = .next (withDev s d) ∧ d.fab.fw.activating = none
          ∧ d.aon.flash = s.dev.aon.flash ∧ d.fab.boot = s.dev.fab.boot
          ∧ (d.src 0x168).total = (s.dev.src 0x168).total + 1
          ∧ (∀ k < 4, (s.dev.core k).on = true → 0x38 + k ∉ s.dev.aon.coll.fenced → coreRuns d k = true))))
  ∧ (∀ (s : State), FwRuns s →
      (s.dev.fab.fw.imageStart + sec 600 ≤ s.clock.now → s.dev.fab.fw.restarts = 0 →
        ∃ d, exec .arbBurn s = .next (withDev s d) ∧ d.fab = s.dev.fab
          ∧ d.aon = { s.dev.aon with arbStep := min 128 (max s.dev.aon.arbStep (imgSvn s.dev.fab.boot.image))
                                     revoked := d.aon.revoked }
          ∧ (∀ k, k ∈ d.aon.revoked ↔ k ∈ s.dev.aon.revoked
              ∨ k < 4 ∧ (imgFlags s.dev.fab.boot.image).testBit (4 + k) = true ∧ k ≠ imgKey s.dev.fab.boot.image))
      ∧ ((s.clock.now < s.dev.fab.fw.imageStart + sec 600 ∨ s.dev.fab.fw.restarts ≠ 0) → exec .arbBurn s = .next s)
      ∧ (s.dev.aon.testMode = true → s.dev.aon.coll.factory = false → s.dev.fab.fw.imageStart + sec 10 ≤ s.clock.now →
          exec .testPin s = .next (withDev s (fault 0x174 0 s.clock.now s.dev)))
      ∧ ((s.dev.aon.testMode = false ∨ s.clock.now < s.dev.fab.fw.imageStart + sec 10) → exec .testPin s = .next s))
  ∧ Carries .fwActivate cmdFwActivate.ahead (fun c => c.parts = [.own] ∧ ∀ d, (cmdFwActivate.onAccept c d).fab.fw
      = { d.fab.fw with actPending := true, sets := [] })

/-- Control cores and the crypto domain: a sleeping core that a posted message wakes runs again; CC1 to CC3 may sleep but
not while a channel bound to them is posted, CC0 never; a watchdog or exception fences the running core, whose restart
clears the fence; PD92 goes off 1 ms after its last operation (14 R332; 15 R372; 18 R424). -/
def Obligations.CoreRows : Prop :=
  ∀ (core : Nat) (s : State), core < 4 →
    (Runs s → (s.dev.core core).on = false →
        (∃ ch < 64, (s.dev.chan ch).waking = true ∧ receiverOf s.dev ch = 16 + core) →
      ∃ d, exec (.coreWakeComplete core) s = .next (withDev s d) ∧ coreRuns d core = true ∧ (d.core core).on = true
        ∧ d.aon = s.dev.aon)
    ∧ (FwRuns s → core ≠ 0 → coreRuns s.dev core = true →
        (∀ ch < 64, (s.dev.chan ch).posted = true →
          (s.dev.chan ch).bind.receiver ≠ 16 + core ∧ (s.dev.chan ch).bind.sender ≠ 16 + core) →
      exec (.corePowerDown core) s
        = .next (withDev s (s.dev.modCore core fun y => { y with on := false, running := false })))
    ∧ (core = 0 → exec (.corePowerDown core) s = .next s)
    ∧ (FwRuns s →
        (s.dev.fab.pd.cryptoAt + 262144 ≤ s.clock.now →
          exec .cryptoPowerDown s = .next (withDev s (s.dev.onPd fun p => { p with crypto := false })))
        ∧ (s.clock.now < s.dev.fab.pd.cryptoAt + 262144 → exec .cryptoPowerDown s = .next s))
    ∧ (∀ c ∈ [(Instr.coreWdog core, 0x150 + core), (.coreExc core, 0x154 + core)],
        Runs s → s.dev.fab.fw.activating = none → coreRuns s.dev core = true → 0x38 + core ∉ s.dev.aon.coll.fenced →
        (s.dev.src c.2).rise = 0 →
      ∃ d, exec c.1 s = .next (withDev s d) ∧ 0x38 + core ∈ d.aon.coll.fenced ∧ coreRuns d core = false
        ∧ (d.src c.2).total = (s.dev.src c.2).total + 1 ∧ d.fab.fw.restarts = s.dev.fab.fw.restarts + 1)
    ∧ (Runs s → (s.dev.core core).restarting = true →
      ∃ d, exec (.coreRestartComplete core) s = .next (withDev s d) ∧ coreRuns d core = true
        ∧ (d.core core).restarting = false ∧ 0x38 + core ∉ d.aon.coll.fenced)

/-! ### Faults and Snowdrop (18 R416-R428) -/

/-- Counting and escalation of one event: its total advances; a source without a threshold keeps its class; below N in
the window the count advances; the event that reaches N closes the window and raises the class by one up to the ceiling;
16 windows without an event return the class to its initial one first (18 R418).

A fault event out of Snowdrop: its source counts it; of Info class it latches flt bit 17 and no more; of Minor class
or higher it sets pending and fault_sum, and the first such event is kept with its class, unit, source and time until
software clears it; of events in one phase unit the one of the higher class, then of the lower source number is kept
(18 R418-R421; log entry 92). -/
def Obligations.FaultEscalation : Prop :=
  (∀ (x : Src) (i : SrcInfo) (t : Time),
      ((x.step i t).1.total = x.total + 1 ∧ (x.step i t).1.last = some t)
      ∧ (i.esc = none → (x.step i t).1.rise = x.rise ∧ (x.step i t).1.count = x.count)
      ∧ (∀ n w b, i.esc = some (n, w) → x.winStart = some b → t < b + w → (∀ l, x.last = some l → t < l + 16 * w) →
          (x.count + 1 < n → (x.step i t).1.count = x.count + 1 ∧ (x.step i t).1.rise = x.rise
            ∧ (x.step i t).1.winStart = some b)
          ∧ (n ≤ x.count + 1 → (x.step i t).1.count = 0 ∧ (x.step i t).1.winStart = none
            ∧ (i.init + x.rise < i.ceil → (x.step i t).1.rise = x.rise + 1)
            ∧ (i.ceil ≤ i.init + x.rise → (x.step i t).1.rise = x.rise)))
      ∧ (∀ n w, i.esc = some (n, w) → 1 < n → (∀ b, x.winStart = some b → b + w ≤ t) →
          (x.step i t).1.count = 1 ∧ (x.step i t).1.winStart = some t
          ∧ ((∀ l, x.last = some l → t < l + 16 * w) → (x.step i t).1.rise = x.rise)
          ∧ (∀ l, x.last = some l → l + 16 * w ≤ t → (x.step i t).1.rise = 0)))
  ∧ (∀ (n : Nat) (detail : Word) (s : State) (i : SrcInfo), srcInfo n = some i → s.dev.aon.snowdrop = false →
      ¬ (0x158 ≤ n ∧ n ≤ 0x15B) →
      let y := ((s.dev.src n).step i s.clock.now).1
      ∃ d, exec (.faultEvent n detail) s = .next (withDev s d)
        ∧ (d.src n).total = (s.dev.src n).total + 1 ∧ (d.src n).rise = y.rise ∧ (d.src n).count = y.count
        ∧ (i.init + y.rise = 0 → s.dev.fab.migs = [] → d.aon.coll.sts.has 17 = true ∧ d.aon.coll.fenced = s.dev.aon.coll.fenced
            ∧ d.aon.coll.first = s.dev.aon.coll.first ∧ d.aon.snowdrop = false)
        ∧ (1 ≤ i.init + y.rise → (d.src n).pending = true ∧ d.fab.irq.sts.has 23 = true
            ∧ (s.dev.aon.coll.first.valid = false →
                d.aon.coll.first = ⟨true, i.init + y.rise, i.unit, n, s.clock.now⟩ ∧ d.aon.coll.sts.has 18 = true)
            ∧ (s.dev.aon.coll.first.valid = true →
                s.dev.aon.coll.first.yields (i.init + y.rise) n s.clock.now = false →
                d.aon.coll.first = s.dev.aon.coll.first)
            ∧ (s.dev.aon.coll.first.valid = true →
                s.dev.aon.coll.first.yields (i.init + y.rise) n s.clock.now = true →
                d.aon.coll.first = ⟨true, i.init + y.rise, i.unit, n, s.clock.now⟩)))

/-- An event of Major class fences its unit: a slice goes off and owns no context, a lane group's lanes are down, a bank
is off (18 R421, R422; 01 R33).

A Grave event enters Snowdrop: the source, unit and time are kept, the recorder is frozen with its dump under way, no
core runs, every XOFF pin is high; in Snowdrop an event is counted in its source and does nothing else
(18 R421, R426, R427; 13 R307). -/
def Obligations.MajorAndGrave : Prop :=
  (∀ (n : Nat) (detail : Word) (s : State) (i : SrcInfo), srcInfo n = some i → s.dev.aon.snowdrop = false →
      i.unit < 0x38 → i.unit ∉ s.dev.aon.coll.fenced → i.init + ((s.dev.src n).step i s.clock.now).1.rise = 2 →
      ∃ d, exec (.faultEvent n detail) s = .next (withDev s d) ∧ i.unit ∈ d.aon.coll.fenced
        ∧ d.aon.coll.sts.has 21 = true ∧ d.aon.coll.sts.has 22 = true ∧ d.aon.snowdrop = false
        ∧ (i.unit < 0x20 → (d.slice i.unit).st = .off
            ∧ ∀ e ∈ d.fab.tribs, e.2.unit = i.unit → ∃ m ∈ d.fab.migs, m.t = e.1 ∧ m.st = .committed)
        ∧ (0x20 ≤ i.unit → i.unit < 0x30 → ∀ j < 8, (d.lane (8 * (i.unit - 0x20) + j)).st = .down)
        ∧ (0x30 ≤ i.unit → (tgetD d.fab.pd.banks (i.unit - 0x30) {}).st = .off))
  ∧ (∀ (n : Nat) (detail : Word) (s : State), 0x178 ≤ n → n ≤ 0x17B →
      (s.dev.aon.snowdrop = false → (s.dev.src n).rise = 0 →
        ∀ c ∈ [(Instr.faultEvent n detail, n), (.heartbeatTimeout, 0x17A), (.oscLoss, 0x179)], (s.dev.src c.2).rise = 0 →
        ∃ d, exec c.1 s = .next (withDev s d) ∧ d.aon.snowdrop = true
          ∧ d.aon.graveSource = c.2 ∧ d.aon.graveUnit = 0xFF ∧ d.aon.graveTime = s.clock.now
          ∧ d.aon.fmn.frozen = true ∧ d.aon.fmn.dumpBusy = true ∧ d.aon.fmn.staging = []
          ∧ (∀ k < 4, coreRuns d k = false) ∧ d.fab.xoff = 0xFFFF ∧ d.fab.fw.load = none)
      ∧ (s.dev.aon.snowdrop = true →
        exec (.faultEvent n detail) s
          = .next (withDev s (s.dev.setSrc n { s.dev.src n with total := (s.dev.src n).total + 1 }))))

/-- The timers of a source close its window and return its class; a finding of the scrub in one copy of SCRATCH counts
CFG_MISMATCH and CFG_CORR and keeps the value, in both copies the field takes its reset value (18 R418; 17 R408).

The recorder's rows and Snowdrop's line signals: a queued record leaves for the log, the dump completes in Snowdrop,
and a port sends what its type and its lane group's squelch setting say (18 R427, R433, R434). -/
def Obligations.FaultTimersAndRecorder : Prop :=
  (∀ (n : Nat) (s : State) (i : SrcInfo) (k w : Nat), srcInfo n = some i → i.esc = some (k, w) →
      (∀ b, (s.dev.src n).winStart = some b → b + w ≤ s.clock.now →
        exec (.faultWindowEnd n) s
          = .next (withDev s (s.dev.setSrc n { s.dev.src n with winStart := none, count := 0 })))
      ∧ (∀ l, (s.dev.src n).last = some l → l + 16 * w ≤ s.clock.now →
        exec (.faultClassDecay n) s = .next (withDev s (s.dev.setSrc n { s.dev.src n with rise := 0 })))
      ∧ (∀ both, FabOn s → s.dev.aon.snowdrop = false → isOctet s.clock.now = true →
          ∃ d, exec (.configScrub ⟨[⟨0x20, both⟩], []⟩) s = .next (withDev s d)
          ∧ d.fab.scratch = (if both then 0 else s.dev.fab.scratch) ∧ d.aon.cfgMismatch = s.dev.aon.cfgMismatch + 1
          ∧ (d.src 0x162).total = (s.dev.src 0x162).total + 1))
  ∧ (∀ (s : State),
      (∀ r q, s.dev.aon.fmn.frozen = false → s.dev.aon.fmn.staging = r :: q → r.num < 65536 →
        exec .recordWrite s = .next (withDev s (s.dev.onFmn fun m => { m with
          staging := q, log := (r :: m.log).take (65536 + 4194304) })))
      ∧ (s.dev.aon.fmn.frozen = true → exec .recordWrite s = .next s)
      ∧ (s.dev.aon.snowdrop = true → s.dev.aon.fmn.dumpBusy = true →
        exec .dumpComplete s = .next (withDev s (((s.dev.onFlash fun m =>
            flashProgram m (dumpAddr (dumpSlot m)) 66560 (dumpOctets s.dev)).onFmn fun r => { r with
          dumpBusy := false, sts := r.sts.latch 22 }))))
      ∧ (s.dev.aon.snowdrop = false → exec .dumpComplete s = .next s)
      ∧ (∀ p x, FabOn s → s.dev.aon.snowdrop = true → s.dev.port p = some x →
        exec (.snowdropLineSignals p) s = .next (withDev s (s.dev.modPort p fun y => { y with
          tx := if 1024 ≤ p ∨ s.dev.fab.boot.squelch.getLsbD (x.first / 8) = true then .squelch
            else if x.typ ≤ 0x05 then .msAis else if x.typ ≤ 0x0D then .oduAis else .localFault }))))

/-! ### Firmware's posts, channel timers and boundaries (15 R374-R377; 16 R386-R392; 02 R40-R53) -/

/-- Firmware posts the oldest message that waits for a free channel, whole and unchanged: completions and reply fragments
from one queue, notifications from the other, and the count of lost notifications before any later one
(15 R377; 16 R386-R389).

Channel timers: 1 ms after the later of two crossed posts the channel of pri 0 reads CROSSED with the message's tag and
its pair's number; held fragments are discarded 1 s after the last, an open set 10 s after its last member; an orphan is
served as any message is, and acknowledged to nobody (15 R374, R376; 16 R390, R392). -/
def Obligations.FirmwarePosts : Prop :=
  (∀ (ch : Nat) (s : State), FwRuns s → mayFwPost s.dev ch = true → s.dev.aon.coll.clusterLost = false →
      let posts := fun (c : Instr) (ws : List Word) (P : Chan → Prop) => ∃ d, exec c s = .next (withDev s d)
        ∧ (d.chan ch).posted = true ∧ (d.chan ch).ackValid = false ∧ (d.chan ch).data.take ws.length = ws
        ∧ P (d.chan ch) ∧ d.aon = s.dev.aon ∧ d.fab.fw = s.dev.fab.fw
      (∀ ws r, (s.dev.chan ch).outs = ⟨.completion, ws⟩ :: r → posts (.completionPost ch) ws (fun x => x.outs = r))
      ∧ (∀ ws r, (s.dev.chan ch).outs = ⟨.reply, ws⟩ :: r → posts (.replyFragmentPost ch) ws (fun x => x.outs = r))
      ∧ (∀ o r, (s.dev.chan ch).notes = o :: r → (s.dev.chan ch).lostNotes = 0 →
          posts (.notificationPost ch) o.ws (fun x => x.notes = r))
      ∧ ((s.dev.chan ch).lostNotes ≠ 0 →
          posts (.notifyLost ch) (pad 16 [fwHeader 0x04 16, wd (s.dev.chan ch).lostNotes]) (fun x => x.lostNotes = 0)))
  ∧ (∀ (ch : Nat) (s : State),
      (∀ b, Runs s → (s.dev.chan ch).crossTimer = some b → b + 262144 ≤ s.clock.now → (s.dev.chan ch).posted = true →
          (s.dev.chan (s.dev.chan ch).bind.pair).posted = true → (s.dev.chan ch).bind.pair ≠ ch →
        ∃ d, exec (.crossedTimeout ch) s = .next (withDev s d) ∧ (d.chan ch).crossed = true ∧ (d.chan ch).ackValid = true
          ∧ (d.chan ch).ack = wd (0xE1 * 2 ^ 24 + tagOf (s.dev.chan ch) * 65536 + (s.dev.chan ch).bind.pair)
          ∧ (d.chan ch).posted = true ∧ (d.chan ch).sts.has 22 = true ∧ d.aon = s.dev.aon)
      ∧ (∀ f, FwRuns s → (s.dev.chan ch).frag = some f → f.last + sec 1 ≤ s.clock.now →
        exec (.fragmentTimeout ch) s = .next (withDev s (s.dev.modChan ch fun x => { x with frag := none })))
      ∧ (∀ cs, FwRuns s → exec (.csTimeout cs) s = .next (withDev s (s.dev.onFw fun f => { f with
          sets := f.sets.filter fun y => !(y.num == cs && decide (y.last + sec 10 ≤ s.clock.now)) })))
      ∧ (FwRuns s → ch < 64 → (s.dev.chan ch).posted = true → (s.dev.chan ch).orphan = true →
          (servingCore s.dev ch).isSome = true → anyCmd (s.dev.chan ch).data = none →
        ∃ d, exec (.orphanDone ch) s = .next (withDev s d) ∧ (d.chan ch).posted = false ∧ (d.chan ch).orphan = false
          ∧ (d.chan ch).ackValid = (s.dev.chan ch).ackValid)
      ∧ (∀ cmd, FwRuns s → ch < 64 → (s.dev.chan ch).posted = true → (s.dev.chan ch).orphan = true →
          (servingCore s.dev ch).isSome = true → anyCmd (s.dev.chan ch).data = some cmd →
        exec (.orphanDone ch) s = .next (withDev s (serveAs cmd ch s.clock.now s.dev))))

/-- Boundaries: a change due at a boundary of its object in its direction applies there once it is armed, ready and not
held back, and the part leaves it; a change whose trigger time lies ahead stays; at an octet boundary the due changes
apply and the policy registers come into force; a port in alignment has its receive boundaries at its frames alone, and one
out of alignment also a period after the last; CHANGE_ARM arms a change that no earlier one of its object precedes
(02 R40, R42-R46, R50-R52; 14 R337). -/
def Obligations.Boundaries : Prop :=
  ∀ (s : State),
    (∀ n dir c cmd d, Runs s → boundaryAt (.port n) dir s.clock.now s.dev = some d → dir = .tx →
        s.dev.fab.fw.changes = [c] → cmdOf c.code.toNat = some cmd → .frame (.port n) .tx ∈ c.parts → .octet ∉ c.parts →
        c.trig ≤ s.clock.now → c.armed = true → cmd.ready c d = true →
      exec (.configBankSwap (.port n) dir) s
        = .next (withDev s (applyPart cmd c (.frame (.port n) .tx) s.clock.now d)))
    ∧ (∀ c cmd, let d := (settleAll s.clock.now s.dev).onColl fun c => { c with rejoin := [] }
        Runs s → s.clock.now % (8 * frame) = 0 → s.dev.fab.fw.changes = [c] → cmdOf c.code.toNat = some cmd →
        .octet ∈ c.parts → c.trig ≤ s.clock.now → c.armed = true → cmd.ready c d = true →
      exec .octetBoundary s = .next (withDev s (endBlocks ((applyPart cmd c .octet s.clock.now d).onPwr fun p => { p with
        capIn := p.cap, policyIn := p.policy, packIn := p.pack }))))
    ∧ (∀ n x q, s.dev.port n = some x → onDfe s.dev (.port n) = false → framePeriod s.dev (.port n) = some q →
      (framesOf s.dev (.port n) .rx).start ≠ s.clock.now →
      (aligned s.dev (.port n) = true → boundaryAt (.port n) .rx s.clock.now s.dev = none)
      ∧ (aligned s.dev (.port n) = false → ((boundaryAt (.port n) .rx s.clock.now s.dev).isSome = true ↔
          ∃ k, (framesOf s.dev (.port n) .rx).anchor < s.clock.now
            ∧ (framesOf s.dev (.port n) .rx).anchor + k * q.1 / q.2 = s.clock.now)))
    ∧ (∀ cmd c p t d, c.parts = [p] →
        ∀ e ∈ (applyPart cmd c p t d).fab.fw.changes, e.handle ≠ c.handle ∨ e.mem ≠ c.mem)
    ∧ (∀ n, Runs s → (∀ c ∈ s.dev.fab.fw.changes, s.clock.now < c.trig) →
        exec (.configBankSwap (.port n) .tx) s
          = .next (withDev s ((boundaryAt (.port n) .tx s.clock.now s.dev).getD s.dev)))
    ∧ (Runs s → s.clock.now % (8 * frame) = 0 → ∃ d, exec .octetBoundary s = .next (withDev s d)
        ∧ d.aon.pwr.capIn = d.aon.pwr.cap ∧ d.aon.pwr.policyIn = d.aon.pwr.policy ∧ d.aon.pwr.packIn = d.aon.pwr.pack)
    ∧ (s.clock.now % (8 * frame) ≠ 0 → exec .octetBoundary s = .next s)
    ∧ (∀ h mem c, FwRuns s → s.dev.fab.fw.changes.find? (fun e => e.handle == h && e.mem == mem) = some c →
        (∀ e ∈ s.dev.fab.fw.changes.takeWhile (fun e => !(e.handle == h && e.mem == mem)), e.obj ≠ c.obj) →
      exec (.changeArm h mem) s = .next (withDev s (s.dev.onFw fun f => { f with
        changes := f.changes.map fun e => if e.handle == h && e.mem == mem then { e with armed := true } else e })))

/-! ### Clocking (13 R306-R328) -/

/-- Reference slots: REFSEL counts 1 ms from a change before it is taken; the third missing activity window in a row
disqualifies a slot; at a gate end a qualified slot beyond 1.2 ppm is disqualified, and a tenth good gate in a row
qualifies one (13 R310-R314).

Quality levels: an ESMC event PDU, or an information PDU like the one before it, sets the level of the slots that
take the port's clock; 5 s without one reads DNU; a PACKET-mode port sends the level of its lane group's DPLL (13 R313,
R325).

CLK_SLOT_CONFIG, CLK_OUT_CONFIG and CLK_DEVICE_CONFIG, accepted, write at their boundary what they carry; a slot whose
configuration changes is disqualified (13 R308-R310; 16 R395). -/
def Obligations.ReferenceSlots : Prop :=
  (∀ (s : State),
      (∀ v, v ≠ s.dev.aon.clk.raw → exec (.refselChange v) s
          = .next (withDev s (s.dev.onClk fun c => { c with raw := v, settling := some s.clock.now })))
      ∧ (exec (.refselChange s.dev.aon.clk.raw) s = .next s)
      ∧ (∀ b, s.dev.aon.clk.settling = some b → b + 262144 ≤ s.clock.now →
          ∃ d, exec .refselDebounced s = .next (withDev s d) ∧ d.aon.clk.deb = s.dev.aon.clk.raw
            ∧ d.aon.clk.settling = none ∧ d.aon.clk.pinSeen = true ∧ d.aon.clk.dplls = s.dev.aon.clk.dplls
            ∧ (s.dev.aon.clk.deb ≠ s.dev.aon.clk.raw → d.aon.clk.sts.has 21 = true))
      ∧ (∀ b, s.dev.aon.clk.settling = some b → s.clock.now < b + 262144 → exec .refselDebounced s = .next s)
      ∧ (∀ n, n < 12 → slotLive s.dev n = true →
          exec (.clkActivityWindowEnd n true) s = .next (withDev s (s.dev.modSlot n fun x => { x with
            missing := 0, edges1pps := min 16 (x.edges1pps + 1) }))
          ∧ ((s.dev.slot n).missing < 2 → exec (.clkActivityWindowEnd n false) s = .next (withDev s (s.dev.modSlot n fun x =>
              { x with missing := x.missing + 1, missInGate := true, edges1pps := 0 })))
          ∧ ((s.dev.slot n).missing = 2 → ∃ d, exec (.clkActivityWindowEnd n false) s = .next (withDev s d)
              ∧ (d.slot n).qualified = false ∧ (d.slot n).soak = 0))
      ∧ (∀ m outOff n, eOf s.clock.now % 8000 = 0 → n < 12 → gateValid s.dev n (m.getD n ⟨false, 0⟩) = true →
          let off := ((m.getD n ⟨false, 0⟩).off * 10 - s.dev.fab.clk.ffo) / 10
          ∃ d, exec (.frequencyGateEnd m outOff) s = .next (withDev s d) ∧ (d.slot n).off = off
            ∧ ((s.dev.slot n).qualified = true → (d.slot n).qualified = decide (off.natAbs ≤ 12000))
            ∧ ((s.dev.slot n).qualified = false → off.natAbs ≤ 9200 → (s.dev.slot n).soak = 9 → (d.slot n).qualified = true)
            ∧ ((s.dev.slot n).qualified = false → off.natAbs ≤ 9200 → (s.dev.slot n).soak < 9 →
                (d.slot n).qualified = false ∧ (d.slot n).soak = (s.dev.slot n).soak + 1)
            ∧ ((s.dev.slot n).qualified = false → 9200 < off.natAbs → (d.slot n).qualified = false ∧ (d.slot n).soak = 0)))
  ∧ (∀ (s : State),
      (∀ p x e n i, Runs s → s.dev.port p = some x → isEth x.typ = true → e.valid = true → i < max x.lanes 1 →
          n ∈ slotsOfLane s.dev (x.first + i) → (e.event = true ∨ (s.dev.slot n).infoQl = some e.ql) →
        ∃ d, exec (.esmcPduRx p e) s = .next (withDev s d) ∧ (d.slot n).ql = e.ql)
      ∧ (∀ p x e n i, Runs s → s.dev.port p = some x → isEth x.typ = false → isFlexe x.typ = true → e.valid = true →
          i < x.lanes / max 1 x.phys → n ∈ slotsOfLane s.dev (x.first + x.lanes / max 1 x.phys * e.phy + i) →
          e.event = true →
        ∃ d, exec (.esmcPduRx p e) s = .next (withDev s d) ∧ (d.slot n).ql = e.ql)
      ∧ (∀ p e, e.valid = false → exec (.esmcPduRx p e) s = .next s)
      ∧ (∀ p x, Runs s → s.dev.port p = some x → packetMode x = true →
        exec (.esmcPduTx p) s = .next (withDev s (s.dev.modPort p fun y => { y with
          eth := { y.eth with esmcTx := dpllQl s.dev (if s.dev.fab.clk.txDpll.getLsbD (x.first / 8) then 3 else 2) } })))
      ∧ (∀ n p x, n < 12 → slotRecovered (s.dev.slotCfg n) = true → p ∈ portsOnLane s.dev (s.dev.slotCfg n).lane →
          s.dev.port p = some x → isEth x.typ = true → tgetD (s.dev.slot n).times 0x10 0 + sec 5 ≤ s.clock.now →
        ∃ d, exec (.esmcQlTimeout n) s = .next (withDev s d) ∧ (d.slot n).ql = 0xF ∧ (d.slot n).infoQl = none))
  ∧ Carries .clkSlotConfig cmdClkSlotConfig.ahead (fun c => ∀ p t d,
      let n := fld (c.w 4) 3 0
      let y : SlotCfg := ⟨fld (c.w 5) 31 28, fld (c.w 5) 27 24, BitVec.ofNat 4 (fld (c.w 5) 23 20),
        BitVec.ofNat 16 (fld (c.w 5) 15 0), fld (c.w 6) 6 0⟩
      let d' := cmdClkSlotConfig.apply c p t d
      d'.slotCfg n = y ∧ (y ≠ d.slotCfg n → (d'.slot n).qualified = false) ∧ ∀ k, k ≠ n → d'.slotCfg k = d.slotCfg k)
  ∧ Carries .clkOutConfig cmdClkOutConfig.ahead (fun c => ∀ p t d,
      let o : OutCfg := { freq := fld (c.w 5) 2 0, hold := bitAt (c.w 5) 3, ql := BitVec.ofNat 4 (fld (c.w 5) 7 4) }
      (cmdClkOutConfig.apply c p t d).fab.clk = { d.fab.clk with outs := tput d.fab.clk.outs (fld (c.w 4) 0 0) o })
  ∧ Carries .clkDeviceConfig cmdClkDeviceConfig.ahead (fun c => ∀ p t d,
      let k := (cmdClkDeviceConfig.apply c p t d).fab.clk
      k.ffo = signed 20 (fld (c.w 4) 19 0) ∧ k.ssm = some (fld (c.w 5) 31 30) ∧ k.xcheck = fld (c.w 5) 6 0
      ∧ k.txDpll = BitVec.ofNat 16 (fld (c.w 6) 15 0) ∧ k.slots = d.fab.clk.slots)

/-- The DPLL state machine: a usable request starts acquisition with the input's bandwidth; criteria that hold for the
dwell lock it, and a break restarts the dwell; more than 1 µs of phase sends it back with PHASE_OVERFLOW counted; a lost
input is LOST for two frames, then holdover at the history's mean, or free run without 300 samples (13 R314-R322).
In holdover and free run the output moves from where it was to its new offset by 0.1 ppm a second (13 R320).

CLK_DPLL_CONFIG writes a DPLL's mode, level and input list, of DPLL0 the level alone; CLK_HISTORY_RESET empties a DPLL's
history (13 R315, R319; 16 R395). -/
def Obligations.DpllStates : Prop :=
  ∀ (n : Nat) (m : DpllMeas) (s : State), n < 4 →
    let x := s.dev.dpll n
    let goes := fun (c : Instr) (P : Dpll → Prop) => ∃ d, exec c s = .next (withDev s d) ∧ P (d.dpll n)
      ∧ d.fab = { s.dev.fab with irq := d.fab.irq, mbx := d.fab.mbx } ∧ d.aon.pwr = s.dev.aon.pwr
    (x.st = .lost → exec (.dpllEvaluation n m) s
        = .next (withDev s (s.dev.modDpll n fun x => { x with phase := m.phase, freq := m.freq })))
    ∧ (∀ i, x.st = .freeRun ∨ x.st = .holdover → dpllReq s.dev n = .input (some i) → inputOk s.dev i = true →
        goes (.dpllEvaluation n m) fun y => y.st = .acquiring ∧ y.input = i ∧ y.bw = inputBw s.dev n i ∧ y.entered = s.clock.now)
    ∧ (∀ i, x.st = .acquiring → dpllReq s.dev n = .input (some i) → inputOk s.dev i = true → i = x.input →
        goes (.dpllEvaluation n m) fun y => y.st = .acquiring
          ∧ y.entered = if m.phase.natAbs ≤ 2000 ∧ m.freq.natAbs ≤ 500 then x.entered else s.clock.now)
    ∧ (∀ i, x.st = .locked → dpllReq s.dev n = .input (some i) → inputOk s.dev i = true → i = x.input →
        (m.phase.natAbs ≤ 10000 → goes (.dpllEvaluation n m) fun y => y.st = .locked)
        ∧ (10000 < m.phase.natAbs → ∃ d, exec (.dpllEvaluation n m) s = .next (withDev s d) ∧ (d.dpll n).st = .acquiring
            ∧ (d.src 0x172).total = (s.dev.src 0x172).total + 1))
    ∧ (∀ r, x.st = .acquiring ∨ x.st = .locked → dpllReq s.dev n = .input r → (∀ i, r = some i → inputOk s.dev i = false) →
        goes (.dpllEvaluation n m) fun y => y.st = .lost ∧ y.input = 0x1F)
    ∧ (x.st ≠ .lost → x.st ≠ .holdover → dpllReq s.dev n = .hold → 300 ≤ x.learned →
        goes (.dpllEvaluation n m) fun y => y.st = .holdover ∧ y.out = histMean x ∧ y.start = x.outNow s.clock.now
          ∧ y.slewAt = s.clock.now)
    ∧ (x.st = .acquiring → x.entered + dwell x.bw ≤ s.clock.now →
        goes (.dpllLock n) fun y => y.st = .locked ∧ y.input = x.input)
    ∧ (x.st = .lost → (eOf x.entered + 2) * frame ≤ s.clock.now →
        (300 ≤ x.learned → goes (.dpllLostExit n) fun y => y.st = .holdover ∧ y.out = histMean x)
        ∧ (x.learned < 300 → ∃ d, exec (.dpllLostExit n) s = .next (withDev s d) ∧ (d.dpll n).st = .freeRun
            ∧ (d.dpll n).out = s.dev.fab.clk.ffo))
    ∧ (∀ e, s.dev.aon.clk.freezeEnd = some e → e ≤ s.clock.now →
        ∃ d, exec .freezeEnd s = .next (withDev s d) ∧ (d.dpll 0).frozen = false ∧ d.aon.clk.freezeEnd = none)
    ∧ (s.dev.aon.clk.pinSeen = true → dpllReq s.dev 0 = if s.dev.aon.clk.deb.toNat < 12 then .input (some s.dev.aon.clk.deb.toNat)
        else if s.dev.aon.clk.deb = 12 then .hold else .free)
    ∧ (∀ (y : Dpll) t, y.st = .freeRun ∨ y.st = .holdover →
        let k := (((t - y.slewAt) * 1000 / sec 1 : Nat) : Int)
        y.outNow t = if ((y.out - y.start).natAbs : Int) ≤ k then y.out else if y.start < y.out then y.start + k else y.start - k)
    ∧ Carries .clkDpllConfig cmdClkDpllConfig.ahead (fun c => ∀ p t d,
        let i := fld (c.w 4) 1 0
        let d' := cmdClkDpllConfig.apply c p t d
        let q := some (BitVec.ofNat 4 (fld (c.w 5) 23 20))
        (i = 0 → d'.dpllCfg 0 = { d.dpllCfg 0 with ownQl := q })
        ∧ (i ≠ 0 → d'.dpllCfg i = { mode := fld (c.w 5) 31 29, revert := bitAt (c.w 5) 28, pbo := bitAt (c.w 5) 27
                                    ownQl := q, list := listOf (c.w 6) })
        ∧ ∀ k, k ≠ i → d'.dpllCfg k = d.dpllCfg k)
    ∧ Carries .clkHistoryReset cmdClkHistoryReset.ahead (fun c => ∀ p t d,
        let d' := cmdClkHistoryReset.apply c p t d
        d'.dpll (fld (c.w 4) 1 0) = { d.dpll (fld (c.w 4) 1 0) with hist := [], learned := 0 }
        ∧ ∀ k, k ≠ fld (c.w 4) 1 0 → d'.dpll k = d.dpll k)

/-! ### Sensing, governor, migration and wear (14 R333-R356; 20 R455-R458) -/

/-- Sensing: temperatures are taken with their maximum; 105 °C counts THERM_HIGH once, 125 °C is THERMTRIP; rails are
summed, and a core rail out of its range with the fabric running stops the machine, as the spec calls the behaviour
undefined; the power window's mean is P; a module's side is taken over after 100 ms (14 R333, R335, R336; 20 R458;
03 R79).

Droop: a firing detector counts its source, and on the core rail raises the margin by 5 mV, up to 30, for an hour
after the last firing (14 R334). -/
def Obligations.Sensing : Prop :=
  (∀ (s : State),
      (∀ l, (∀ i < 64, (l.getD i 0).toInt < 840) →
        ∃ d, exec (.thermalSample l) s = .next (withDev s d) ∧ (∀ i < 64, d.aon.sense.temps.getD i 0 = l.getD i 0)
          ∧ d.aon.sense.tmax = l.getD d.aon.sense.sensor 0
          ∧ (∀ i < 64, sensorOn s.dev i = true → (l.getD i 0).toInt ≤ d.aon.sense.tmax.toInt)
          ∧ d.aon.sense.tmaxTime = s.clock.now ∧ d.fab = s.dev.fab ∧ d.aon.coll = s.dev.aon.coll)
      ∧ (∀ l k, sensorOn s.dev k = true → k < 64 → 840 ≤ (l.getD k 0).toInt → (∀ i < 64, (l.getD i 0).toInt < 1000) →
          s.dev.aon.sense.thermHigh = false →
        ∃ d, exec (.thermalSample l) s = .next (withDev s d) ∧ d.aon.sense.thermHigh = true
          ∧ (d.src 0x16C).total = (s.dev.src 0x16C).total + 1)
      ∧ (∀ l i, i < 64 → 1000 ≤ (l.getD i 0).toInt → s.dev.aon.thermtrip = false → (s.dev.src 0x178).rise = 0 →
          s.dev.aon.snowdrop = false → s.dev.aon.sense.thermHigh = true →
        ∃ d, exec (.thermalSample l) s = .next (withDev s d) ∧ d.aon.thermtrip = true ∧ d.aon.snowdrop = true
          ∧ d.aon.graveSource = 0x178)
      ∧ (∀ l, (∀ i < 16, railOut s.dev.aon.gov.margin i (l.getD i ⟨0, 0⟩) = false) ∨ s.dev.aon.standby = true
            ∨ s.dev.aon.thermtrip = true ∨ s.dev.fab.boot.stage = 0 →
        exec (.railSample l) s = .next (withDev s (s.dev.onSense fun y => { y with
          rails := (List.range 16).map fun i => l.getD i ⟨0, 0⟩, railTime := s.clock.now, winCount := y.winCount + 1
          winSum := y.winSum + sumBy (fun r => r.mv * r.ma10) ((List.range 16).map fun i => l.getD i ⟨0, 0⟩) })))
      ∧ (∀ l i, FabOn s → s.dev.aon.thermtrip = false → s.dev.fab.boot.stage ≠ 0 → i < 16 →
          railOut s.dev.aon.gov.margin i (l.getD i ⟨0, 0⟩) = true → exec (.railSample l) s = .fault .coreRailOutOfRange)
      ∧ (s.dev.aon.sense.winCount ≠ 0 → s.clock.now % (800 * frame) = 0 →
        exec .powerWindowEnd s = .next (withDev s (s.dev.onSense fun y => { y with
          power := BitVec.ofNat 16 (y.winSum / (y.winCount * 10000)), powerTime := s.clock.now, winSum := 0, winCount := 0 })))
      ∧ (∀ v k x, FabOn s → eOf s.clock.now % 80 = 0 → k < 32 → v[k]? = some x →
        ∃ d, exec (.mpsenseSample v) s = .next (withDev s d) ∧ d.aon = s.dev.aon
          ∧ tgetD d.fab.mps k {} = (tgetD s.dev.fab.mps k {}).sample x s.clock.now)
      ∧ (∀ k, FabOn s → k < 32 → let m := tgetD s.dev.fab.mps k {}
          m.side = some (!m.present) → m.sideAt + 800 * frame ≤ s.clock.now →
        exec (.modulePresenceChange k) s = .next (withDev s (s.dev.onFab fun f => { f with
          mps := tput f.mps k { m with present := !m.present, presTime := s.clock.now } }))))
  ∧ (∀ (pd : Nat) (s : State), FabOn s → pd ≤ 96 → s.dev.aon.snowdrop = false →
      (∃ d, exec (.droop pd) s = .next (withDev s d)
        ∧ (let n := if pd = 96 then 0xE0 else 0x80 + pd
           (d.src n).total = (s.dev.src n).total + 1)
        ∧ d.aon.gov.margin = (if onCoreRail pd = true then min 30 (s.dev.aon.gov.margin + 5) else s.dev.aon.gov.margin)
        ∧ d.aon.gov.holdUntil = (if onCoreRail pd = true then s.clock.now + sec 3600 else s.dev.aon.gov.holdUntil))
      ∧ (s.dev.aon.gov.holdUntil ≤ s.clock.now →
        exec .droopHoldEnd s = .next (withDev s (s.dev.onGov fun g => { g with holdUntil := 0 })))
      ∧ (s.clock.now < s.dev.aon.gov.holdUntil → exec .droopHoldEnd s = .next s))

/-- The cap ladder at its evaluation: a cap that starts to bind latches its bit and starts the episode; with packing off a
binding cap lowers the margin by 5 mV down to its floor, and without undervolting the scale by 32; two seconds of
binding count CAP_UNATTAINABLE once and show step 4; 300 good evaluations release one step, in reverse order
(14 R347, R348). -/
def Obligations.CapLadder : Prop :=
  ∀ (s : State), Runs s → s.clock.now % (800 * frame) = 0 →
    let g := s.dev.aon.gov
    let binds := bitAt s.dev.aon.pwr.capIn 31 = true ∧ capW s.dev < s.dev.aon.sense.power.toNat
    let cool := s.dev.aon.sense.tmax.toInt ≤ ((thermTarget s.dev : Int) - 3) * 8
    let soon := g.episode.all (fun b => decide (s.clock.now < b + sec 2)) = true
    (binds → g.episode = none → ∃ d, exec .capEvaluation s = .next (withDev s d) ∧ d.aon.gov.episode = some s.clock.now
        ∧ d.aon.pwr.sts.has 23 = true)
    ∧ (binds → soon → bitAt s.dev.aon.pwr.policyIn 31 = false → bitAt s.dev.aon.pwr.policyIn 30 = true →
        avsFloor s.dev < g.margin → g.holdUntil ≤ s.clock.now →
      ∃ d, exec .capEvaluation s = .next (withDev s d) ∧ d.aon.gov.margin = max (avsFloor s.dev) (g.margin - 5)
        ∧ d.aon.gov.step = max g.step 2 ∧ d.aon.gov.scale = g.scale)
    ∧ (binds → soon → bitAt s.dev.aon.pwr.policyIn 31 = false → bitAt s.dev.aon.pwr.policyIn 30 = false → 1 < g.scale →
      ∃ d, exec .capEvaluation s = .next (withDev s d) ∧ d.aon.gov.scale = max 1 (g.scale - 32)
        ∧ d.aon.gov.step = max g.step 3 ∧ d.aon.gov.margin = g.margin)
    ∧ (∀ b, binds → g.episode = some b → b + sec 2 ≤ s.clock.now → g.unatt = false →
      ∃ d, exec .capEvaluation s = .next (withDev s d) ∧ d.aon.gov.unatt = true ∧ d.aon.gov.step = 4
        ∧ (d.src 0x16B).total = (s.dev.src 0x16B).total + 1)
    ∧ (bitAt s.dev.aon.pwr.capIn 31 = true → s.dev.aon.sense.power.toNat + capHyst s.dev ≤ capW s.dev → cool →
        g.goodRun = 299 → g.step ≠ 0 →
      ∃ d, exec .capEvaluation s = .next (withDev s d) ∧ d.aon.gov.goodRun = 300
        ∧ (g.scale < 256 → d.aon.gov.scale = min 256 (g.scale + 32) ∧ d.aon.gov.margin = g.margin)
        ∧ (256 ≤ g.scale → g.margin < 30 → d.aon.gov.margin = min 30 (g.margin + 5))
        ∧ (256 ≤ g.scale → 30 ≤ g.margin → d.aon.gov.step = 0))

/-- Power domains: packing runs only with pack_en and moves no context itself; an IDLE slice past idle_hold retires, a
RETAIN slice past retain_hold goes off, a waking slice becomes ACTIVE if it owns contexts and else IDLE; batching off
releases every packet (14 R338-R340, R350). -/
def Obligations.SlicePower : Prop :=
  ∀ (s : State), Runs s →
    (bitAt s.dev.aon.pwr.policyIn 31 = false → exec .packingEvaluation s = .next s)
    ∧ (s.clock.now % (8000 * frame) = 0 → bitAt s.dev.aon.pwr.policyIn 31 = true → spareSlices s.dev = 0 →
        bitAt s.dev.aon.pwr.policyIn 28 = false → (∀ e ∈ s.dev.fab.tribs, e.2.unit ≠ 0xFF) →
      ∃ d, exec .packingEvaluation s = .next (withDev s d) ∧ d.fab.tribs = s.dev.fab.tribs ∧ d.fab.migs = s.dev.fab.migs
        ∧ (∀ p ∈ s.dev.fab.plan, p.handle.isSome = true → p ∈ d.fab.plan)
        ∧ (∀ n < 32, n ∉ s.dev.aon.coll.fenced → (s.dev.slice n).st = .idle →
            (s.dev.slice n).since + sec (idleHold s.dev) ≤ s.clock.now → d.slice n = ⟨.retain, s.clock.now⟩))
    ∧ (∀ n, n < 32 → n ∉ s.dev.aon.coll.fenced → (s.dev.slice n).st = .retain → retainHold s.dev ≠ 255 →
        (s.dev.slice n).since + sec (10 * retainHold s.dev) ≤ s.clock.now →
      ∃ d, exec (.sliceOff n) s = .next (withDev s d) ∧ d.slice n = ⟨.off, s.clock.now⟩ ∧ d.fab.tribs = s.dev.fab.tribs)
    ∧ (∀ n, n < 32 → n ∉ s.dev.aon.coll.fenced → (s.dev.slice n).st = .waking → (s.dev.slice n).since ≤ s.clock.now →
      ∃ d, exec (.sliceWakeComplete n) s = .next (withDev s d)
        ∧ d.slice n = ⟨if (tribsIn s.dev n).isEmpty then .idle else .on, s.clock.now⟩ ∧ d.fab.tribs = s.dev.fab.tribs)
    ∧ (s.clock.now % (8 * frame) = 0 → bitAt s.dev.aon.pwr.policyIn 29 = false → s.dev.aon.gov.batch ≠ 0 →
      ∃ d, exec .batchFramesUpdate s = .next (withDev s d) ∧ d.aon.gov.batch = 0
        ∧ ∀ e ∈ d.fab.scheds, ∀ q ∈ e.2.queues, ∀ p ∈ q.2.pkts, p.released = true)
    ∧ (s.clock.now % (8 * frame) = 0 → batchFor s.dev ≠ s.dev.aon.gov.batch → batchFor s.dev ≠ 0 →
      ∃ d, exec .batchFramesUpdate s = .next (withDev s d) ∧ d.aon.gov.batch = batchFor s.dev
        ∧ d.fab.scheds = s.dev.fab.scheds)

/-- A migration's life: arming marks the context and reserves the destination, B0 follows two frames later, B1 4 µs after
it with copies equal in every block that neither found indeterminate, then C; at B2 the destination owns the context in the
entry held for it; a frame later the source's copy is gone. A difference at B1, or an abort before C, leaves the source the
owner and counts MIG_ABORT (09 R230; 14 R341-R344). -/
def Obligations.MigrationLifecycle : Prop :=
  ∀ (n : Nat) (s : State) (x : Trib) (m : Mig), Runs s → s.dev.trib n = some x →
    let st := fun k => s.dev.fab.migs.map fun y => if y.t = n then { y with st := k, since := s.clock.now } else y
    let moved := fun (c : Instr) (k : MigSt) =>
      exec c s = .next (withDev s (s.dev.onFab fun f => { f with migs := st k }))
    let m0 := fun src dst h e => ({ t := n, src := src, dst := dst, since := s.clock.now, handle := h, entry := e } : Mig)
    (∀ dst p, FwRuns s → s.dev.fab.plan.find? (fun p => p.t == n && p.dst == dst) = some p → x.unit < 32 →
        x.migrating = false → canTake s.dev n dst = true → engineFree s.dev x.unit dst = true →
      ∃ d, exec (.migrationArm n dst) s = .next (withDev s d)
        ∧ d.trib n = some { x with migrating := true, shadow := dst }
        ∧ d.fab.migs = s.dev.fab.migs ++ [m0 x.unit dst p.handle (freeEntry s.dev dst)])
    ∧ (s.dev.fab.migs.find? (·.t == n) = some m →
      (m.st = .armed → m.since + 2 * frame ≤ s.clock.now → moved (.migrationSnapshot n) .loaded)
      ∧ (∀ bs, m.st = .loaded → m.since + 1049 ≤ s.clock.now →
          (∀ b ∈ bs, b.src = b.dst ∨ b.srcIndet = true ∨ b.dstIndet = true) → moved (.migrationShadowFrame n bs) .shadow)
      ∧ (m.st = .shadow → moved (.migrationCommit n) .committed)
      ∧ (m.st = .committed → m.dst ∉ s.dev.aon.coll.fenced →
        ∃ d bRx bTx, exec (.migrationCutover n) s = .next (withDev s d)
          ∧ d.trib n = some { x with
              unit := m.dst, entry := m.entry, migrating := false, shadow := 0, gen := x.gen + 1,
              esRx := { x.esRx with base := bRx }, esTx := { x.esTx with base := bTx } }
          ∧ (∀ k, k ≠ n → d.trib k = s.dev.trib k) ∧ d.fab.migs = st .cutOver)
      ∧ (m.st = .cutOver → ∃ d, exec (.migrationSourceFree n) s = .next (withDev s d)
          ∧ d.fab.migs = s.dev.fab.migs.filter (fun y => y.t != n) ∧ d.fab.tribs = s.dev.fab.tribs)
      ∧ (∀ c cause, (c = .migrationAbort n cause ∧ m.st ≠ .committed ∧ m.st ≠ .cutOver)
          ∨ (∃ bs, c = .migrationShadowFrame n bs ∧ m.st = .loaded ∧ m.since + 1049 ≤ s.clock.now
              ∧ ∃ b ∈ bs, b.src ≠ b.dst ∧ b.srcIndet = false ∧ b.dstIndet = false) →
        ∃ d, exec c s = .next (withDev s d) ∧ d.trib n = some { x with migrating := false, shadow := 0 }
          ∧ (∀ k, k ≠ n → d.trib k = s.dev.trib k) ∧ d.fab.migs = s.dev.fab.migs.filter (fun y => y.t != n)
          ∧ (d.src 0x169).total = (s.dev.src 0x169).total + 1)
      ∧ (∀ cause, m.st = .committed → exec (.migrationAbort n cause) s = .next s))

/-- The lifetime ledger: each second every entry whose domain is on gains 256 × AF of its mean temperature, and the others
nothing; its flash copy holds the entries, and starts a new hour (14 R351-R353). -/
def Obligations.LifetimeLedger : Prop :=
  ∀ (s : State),
    (eOf s.clock.now % 8000 = 0 → ∃ d, exec .wearAccrual s = .next (withDev s d) ∧ d.aon.sense.tempSum = []
      ∧ ∀ k < 64,
        let w := tgetD s.dev.aon.wear k {}
        let w' := tgetD d.aon.wear k {}
        let inc := afInc (s.dev.aon.sense.tempSum.getD k 0) s.dev.aon.sense.tempCount
        (sensorOn s.dev k = true → w'.wear * 65536 + w'.frac = (w.wear * 65536 + w.frac + inc) % 2 ^ 56
          ∧ w'.hourMax = max w.hourMax inc ∧ (ratedLife ≤ 2 * w'.wear → w'.half = true))
        ∧ (sensorOn s.dev k = false → w'.wear = w.wear ∧ w'.frac = w.frac ∧ w'.hourMax = w.hourMax))
    ∧ (eOf s.clock.now % 8000 ≠ 0 → exec .wearAccrual s = .next s)
    ∧ (∃ d, exec .wearLedgerFlashWrite s = .next (withDev s d)
      ∧ d.aon.flash.mem = flashProgram s.dev.aon.flash.mem (wearAddr + (nextCopy s.dev.aon.flash.mem).1 * 32768) 4096
          (wearCopy (nextCopy s.dev.aon.flash.mem).2 s.dev)
      ∧ ∀ k, (tgetD d.aon.wear k {}).hourMax = 0 ∧ (tgetD d.aon.wear k {}).wear = (tgetD s.dev.aon.wear k {}).wear)

/-! ### Lanes and the interleaved lane format (03 R54-R78) -/

/-- The lane state machine: CDR lock held for 1 ms leads to auto-negotiation, training or UP by what a native Ethernet
port's lane is configured for; no lock within 100 ms is counted and tried again; a technology that is not the port's type is a mismatch, which waits 1 s; a training failure
and a loss of signal go back to acquisition. Only LANE_LOS follows the state, and no other lane is touched
(03 R57, R75, R76). -/
def Obligations.LaneStates : Prop :=
  ∀ (l : Nat) (s : State), Runs s →
    let x := s.dev.lane l
    let native := (nativeEthOn s.dev l).isSome
    let trained := if x.cfg.train && native then LaneSt.training else .up
    let goes := fun (c : Instr) (st : LaneSt) => ∃ d, exec c s = .next (withDev s d) ∧ (d.lane l).st = st
      ∧ (d.lane l).stTime = s.clock.now ∧ (d.lane l).los = (st != .up) ∧ (d.lane l).cfg = x.cfg
      ∧ (∀ k, k ≠ l → d.lane k = s.dev.lane k)
      ∧ ∀ n y, s.dev.trib n = some y → isOdu y.typ = false → d.trib n = some y
    (x.st = .cdrAcq → x.acq + ms 1 ≤ s.clock.now → goes (.cdrLock l) (if x.cfg.an && native then .an else trained))
    ∧ (x.st = .cdrAcq → x.acq + ms 100 ≤ s.clock.now → ∃ d, exec (.cdrRetry l) s = .next (withDev s d)
        ∧ d.lane l = { x with acq := s.clock.now }
        ∧ tgetD d.fab.pm.run (laneKey l + 0x70) 0 = tgetD s.dev.fab.pm.run (laneKey l + 0x70) 0 + 1)
    ∧ (∀ r, x.st = .an → x.anMismatch = false →
        (∀ p y, nativeEthOn s.dev l = some p → s.dev.port p = some y →
          (r.typ = y.typ → goes (.anComplete l r) trained)
          ∧ (r.typ ≠ y.typ → exec (.anComplete l r) s
              = .next (withDev s (s.dev.modLane l fun y => { y with anMismatch := true, acq := s.clock.now })))))
    ∧ (x.st = .an → x.anMismatch = true → x.acq + sec 1 ≤ s.clock.now → exec (.anRestart l) s
        = .next (withDev s (s.dev.modLane l fun y => { y with anMismatch := false, acq := s.clock.now })))
    ∧ (∀ r, x.st = .training → goes (.trainingComplete l r) .up)
    ∧ (x.st = .training → goes (.trainFail l) .cdrAcq)
    ∧ (x.st = .up → goes (.laneSignalLoss l) .cdrAcq)

/-- Lane groups and insertion loss: an idle group goes off at the first octet boundary a second after its last port and
takes its lanes down; a waking one is up after 8 frames, idle if no port is left on it, and its enabled lanes acquire; each estimate of a lane in UP is
taken at a gate end, held between 5.0 and 40.0 dB (03 R58, R77; 14 R332).

LANE_CONFIG, PORT_CREATE, PORT_DELETE and OWNER_SET, accepted, have their effect at an octet boundary: the lane takes its
configuration, a disabled lane is down and one whose rate changes acquires again; the port stands with what the command
names, or is gone; the object belongs to its new owner, a tributary with all it carries (03 R55-R62; 16 R384, R395). -/
def Obligations.LaneGroups : Prop :=
  ∀ (g : Nat) (s : State),
    (FwRuns s → s.clock.now % (8 * frame) = 0 → g < 16 → (tgetD s.dev.fab.pd.groups g {}).st = .idle →
        groupBusy s.dev g = false → tgetD s.dev.fab.pd.freed g 0 + sec 1 ≤ s.clock.now →
      ∃ d, exec (.laneGroupPowerDown g) s = .next (withDev s d) ∧ tgetD d.fab.pd.groups g {} = ⟨.off, s.clock.now⟩
        ∧ (∀ j < 8, (d.lane (8 * g + j)).st = .down) ∧ (∀ k, k < 8 * g ∨ 8 * g + 8 ≤ k → d.lane k = s.dev.lane k))
    ∧ (Runs s → g < 16 → (tgetD s.dev.fab.pd.groups g {}).st = .waking →
        (tgetD s.dev.fab.pd.groups g {}).since + 8 * frame ≤ s.clock.now →
      ∃ d, exec (.laneGroupPowerUp g) s = .next (withDev s d) ∧ tgetD d.fab.pd.groups g {} = ⟨if groupBusy s.dev g then .on else .idle, s.clock.now⟩
        ∧ (∀ j < 8, (s.dev.lane (8 * g + j)).cfg.enable = true → (s.dev.lane (8 * g + j)).st = .down →
            (d.lane (8 * g + j)).st = .cdrAcq)
        ∧ (∀ j < 8, (s.dev.lane (8 * g + j)).cfg.enable = false → d.lane (8 * g + j) = s.dev.lane (8 * g + j)))
    ∧ (∀ l x, Runs s → eOf s.clock.now % 8000 = 0 → (s.dev.lane x.lane).st = .up →
      ∃ d, exec (.ilEstimateRefresh (l ++ [x])) s = .next (withDev s d)
        ∧ d.lane x.lane = { s.dev.lane x.lane with
            ilValid := true, ilRange := decide (x.il < 50) || decide (400 < x.il), il := min (max x.il 50) 400
            ilTime := s.clock.now }
        ∧ (∀ k, (∀ y ∈ l ++ [x], y.lane ≠ k) → d.lane k = s.dev.lane k) ∧ d.aon = s.dev.aon)
    ∧ Carries .laneConfig cmdLaneConfig.ahead (fun c => ∀ t d,
        let l := laneOfWord (c.w 4)
        let k := laneCfgOf (c.w 5) (c.w 6)
        let d' := cmdLaneConfig.apply c .octet t d
        (d'.lane l).cfg = k ∧ (∀ j, j ≠ l → d'.lane j = d.lane j)
        ∧ (bitAt (c.w 5) 31 = false → (d'.lane l).st = .down)
        ∧ (bitAt (c.w 5) 31 = true → groupOn d (lgOfLane l) = true →
            ((d.lane l).st = .down ∨ (d.lane l).cfg.rate ≠ fld (c.w 5) 28 26) → (d'.lane l).st = .cdrAcq)
        ∧ ∀ i < 2, (tgetD d'.fab.mps (2 * lgOfLane l + i) {}).scale = fld (c.w 7) 31 16
            ∧ (tgetD d'.fab.mps (2 * lgOfLane l + i) {}).threshold = fld (c.w 7) 15 0)
    ∧ Carries .portCreate cmdPortCreate.ahead (fun c => ∀ t d,
        let r := portReq c.w
        let d' := cmdPortCreate.apply c .octet t d
        (∃ y, d'.port r.p = some y ∧ y.typ = r.typ ∧ y.first = r.first ∧ y.lanes = r.lanes ∧ y.mask = r.mask
          ∧ y.phys = r.phys ∧ y.owner = c.sender ∧ y.created = t)
        ∧ (∀ q, q ≠ r.p → d'.port q = d.port q)
        ∧ ((tgetD d.fab.pd.groups (lgOfLane r.first) {}).st = .off →
            tgetD d'.fab.pd.groups (lgOfLane r.first) {} = ⟨.waking, t⟩))
    ∧ Carries .portDelete cmdPortDelete.ahead (fun c => ∀ t d,
        let d' := cmdPortDelete.apply c .octet t d
        d'.port c.port = none ∧ ∀ q, q ≠ c.port → d'.port q = d.port q)
    ∧ Carries .ownerSet cmdOwnerSet.ahead (fun c => ∀ t d,
        let o := fld (c.w 4) 16 0
        let m := fld (c.w 5) 4 0
        let d' := cmdOwnerSet.apply c .octet t d
        (fld (c.w 4) 31 24 = 1 → d'.lane o = { d.lane o with owner := m })
        ∧ (∀ y, fld (c.w 4) 31 24 = 2 → d.port (portOfWord o) = some y →
            d'.port (portOfWord o) = some { y with owner := m })
        ∧ (∀ n y, fld (c.w 4) 31 24 = 3 → d.trib n = some y →
            d'.trib n = some (if n ∈ familyOf d o then { y with owner := m } else y))
        ∧ (∀ y, fld (c.w 4) 31 24 = 4 → d.pg o = some y → d'.pg o = some { y with owner := m }))

/-- The ILF receiver and transmitter: an alignment found is checked; the second valid marker block in a row gives SYNC
with its map, the fourth CRC error in a row or a lost alignment gives HUNT; in SYNC a bad CRC poisons the period's words
under the last map, and the fourth absent alignment in a row ends it with ILF_LOA. A control block is counted and its place
in the period kept. A sent marker block carries the period number, the source ID and its CRC; the words that a sub-port
sends come back from their data positions, in order, at every count (03 R64, R68-R72). -/
def Obligations.IlfFormat : Prop :=
  ∀ (l : Nat) (mk : IlfMarker) (s : State), Runs s →
    let r := (s.dev.lane l).rx
    let ws := markerWords mk r.ctlAt
    let goes := fun (P : IlfRx → Prop) => ∃ d, exec (.ilfMarkerPeriod l mk) s = .next (withDev s d) ∧ P (d.lane l).rx
      ∧ (d.lane l).st = .up ∧ (∀ k, k ≠ l → d.lane k = s.dev.lane k)
    (ilfLive s.dev l = true → r.st = .hunt → exec (.ilfAlignmentFound l) s = .next (withDev s (s.dev.modLane l fun x =>
      { x with rx := { x.rx with st := .presync, valid := 0, crcRun := 0 } })))
    ∧ (ilfLive s.dev l = true → r.st = .presync →
        (ilfAligned ws = false → goes fun y => y.st = .hunt)
        ∧ (ilfAligned ws = true → ilfCrcOk ws = true → r.valid ≠ 1 → goes fun y => y = { r with
            valid := 1, crcRun := 0, ctlAt := [] })
        ∧ (ilfAligned ws = true → ilfCrcOk ws = true → r.valid = 1 → goes fun y => y.st = .sync ∧ y.loa = false
            ∧ y.map = ilfMap ws ∧ y.sourceId.toNat = fld (ws.getD 2 0) 23 16)
        ∧ (ilfAligned ws = true → ilfCrcOk ws = false → r.crcRun ≠ 3 →
            goes fun y => y = { r with valid := 0, crcRun := r.crcRun + 1, ctlAt := [] })
        ∧ (ilfAligned ws = true → ilfCrcOk ws = false → r.crcRun = 3 → goes fun y => y.st = .hunt))
    ∧ (ilfLive s.dev l = true → r.st = .sync →
        (ilfAligned ws = true → ilfCrcOk ws = true → goes fun y => y.st = .sync ∧ y.absent = 0 ∧ y.map = ilfMap ws)
        ∧ (ilfAligned ws = true → ilfCrcOk ws = false → goes fun y => y.st = .sync ∧ y.absent = 0 ∧ y.map = r.map ∧ y.cm = r.cm
            ∧ ∀ o ∈ y.out, ∀ w ∈ o.2, lwPoison w = true)
        ∧ (ilfAligned ws = false → r.absent ≠ 3 → goes fun y => y.st = .sync ∧ y.absent = r.absent + 1 ∧ y.map = r.map
            ∧ ∀ o ∈ y.out, ∀ w ∈ o.2, lwPoison w = true)
        ∧ (ilfAligned ws = false → r.absent = 3 → goes fun y => y.st = .hunt ∧ y.loa = true ∧ y.out = []))
    ∧ (∀ b, ilfLive s.dev l = true → exec (.ilfControlBlock ⟨l, b⟩) s = .next (withDev s (s.dev.modLane l fun x =>
        { x with rx := { x.rx with ctl := x.rx.ctl + 1, ctlAt := sadd x.rx.ctlAt (b % 8192) } })))
    ∧ (∀ b, ∀ e ∈ (mk.payload.zip (periodWords mk [b])).zipIdx,
        e.1.2 = if (e.2 + 16) / 2 = b then (0, true) else (e.1.1, false))
    ∧ (∀ (cm total : Nat) (sent : List Word), 0 < total → cm ≤ total → sent.length = cm →
        takeData cm total (ilfSpread cm total total 1 sent) = sent)
    ∧ (∀ words, (s.dev.lane l).cfg.enable = true → (s.dev.lane l).cfg.ilf = true → (s.dev.lane l).st ≠ .down →
      ∃ d, exec (.ilfTxMarker l words) s = .next (withDev s d)
        ∧ (d.lane l).tx.period = (s.dev.lane l).tx.period + 1
        ∧ ilfAligned (d.lane l).tx.marker = true ∧ ilfCrcOk (d.lane l).tx.marker = true
        ∧ fld ((d.lane l).tx.marker.getD 2 0) 31 24 = (s.dev.lane l).tx.period.toNat
        ∧ fld ((d.lane l).tx.marker.getD 2 0) 23 16 = (s.dev.lane l).cfg.sourceId.toNat
        ∧ (d.lane l).rx = r ∧ (∀ k, k ≠ l → d.lane k = s.dev.lane k) ∧ d.aon = s.dev.aon)

/-! ### SDH (04 R83-R110) -/

/-- The SDH framer: the pattern found is confirmed by the next frame; n_oof frames in error in a row give OOF; LOF and LOM
follow 24 frames of their condition; K1, K2 and S1 enter their filters; B1 covers the octets of a frame before descrambling,
B2 those after it, and a sent frame carries the B1 of the frame before it (04 R86-R87, R89, R91-R92, R96-R97, R108).
TRACE_SET, SDH_PORT_CONFIG, SDH_STRUCT_SET and SDH_OH_CONFIG complete (04 R83, R90, R98, R101). -/
def Obligations.SdhFraming : Prop :=
  (∀ (p : Nat) (x : Port) (s : State), Runs s → s.dev.port p = some x → isSdh x.typ = true →
    let n := stmN x.typ
    let goes := fun (c : Instr) (P : Dev → Port → Prop) => ∃ d y, exec c s = .next (withDev s d) ∧ d.port p = some y ∧ P d y
      ∧ (∀ k, k ≠ p → d.port k = s.dev.port k)
    (∀ bits, x.fr.st = .oof → bitsHold (lineBits sdhPattern) bits = true →
        goes (.sdhPatternFound ⟨p, bits⟩) fun _ y => y = { x with fr := { x.fr with st := .presync } })
    ∧ (∀ f : SdhFrame,
        let bad := patternErrored n f.octets
        let os := sdhScramble n f.octets
        let field := ohField n os (reiWide x.typ x.sdh.reiExt)
        let torn := f.bad.any (overheadWord n)
        (x.fr.st = .presync → bad = true →
          goes (.sdhRxFrame p f) fun _ y => y = { x with fr := { x.fr with st := .oof } })
        ∧ (x.fr.st = .presync → bad = false → goes (.sdhRxFrame p f) fun d y => y.fr.st = .inFrame
          ∧ y.fr.oof = false ∧ y.fr.since = s.clock.now ∧ hasDef d (secKey p) .oof = false ∧ y.rxF = x.rxF.next s.clock.now)
        ∧ (x.fr.st = .inFrame → x.fr.oof = false → bad = true → x.sdh.nOof ≤ x.fr.errRun + 1 →
          goes (.sdhRxFrame p f) fun d y => y.fr.st = .oof ∧ y.fr.oof = true ∧ y.fr.since = s.clock.now
            ∧ hasDef d (secKey p) .oof = true)
        ∧ (x.fr.st = .inFrame → bad = true → x.fr.errRun + 1 < x.sdh.nOof →
          goes (.sdhRxFrame p f) fun _ y => y.fr = { x.fr with errRun := x.fr.errRun + 1 })
        ∧ (x.fr.st = .inFrame → bad = false → 0 < x.sdh.nOof →
          goes (.sdhRxFrame p f) fun _ y => y.fr = { x.fr with errRun := 0 } ∧ y.rxF = x.rxF.next s.clock.now
            ∧ y.sdh.b1 = some (bip8 f.octets) ∧ y.sdh.b2 = some (bip24 n os)
            ∧ (torn = false → y.sdh.k = x.sdh.k.step 3 (beNat (field 0x12)) s.clock.now
                ∧ y.sdh.s1 = x.sdh.s1.step 8 ((field 0x13).headD 0).toNat s.clock.now)
            ∧ (torn = true → y.sdh.k = x.sdh.k ∧ y.sdh.s1 = x.sdh.s1)))
    ∧ (x.fr.lof ≠ x.fr.oof → x.fr.since + 24 * frame ≤ s.clock.now → goes (.sdhLofChange p) fun d y =>
        y = { x with fr := { x.fr with lof := x.fr.oof } } ∧ hasDef d (secKey p) .lof = x.fr.oof)
    ∧ (∀ hits, ∃ d, exec (.sdhTxFrame p hits) s = .next (withDev s d))
    ∧ ∀ hits : List (Nat × LaneWord), (∀ e ∈ hits, (stageRead e.2).2 = false) → goes (.sdhTxFrame p hits) (fun _ y => y.txF = x.txF.next s.clock.now ∧ tget y.sdh.txOh 0x20 = some [x.sdh.txB1]
        ∧ y.sdh.txB1 = bip8 y.sdh.txLine ∧ y.sdh.txB2 = bip24 n (sdhScramble n y.sdh.txLine) ∧ y.fr = x.fr))
  ∧ (∀ n z s, Runs s → s.dev.trib n = some z → 0x10 ≤ z.typ → z.typ ≤ 0x12 → 8 ≤ z.h4.accum → z.h4.lom = z.h4.im →
      ∃ d y, exec (.sdhLomChange n) s = .next (withDev s d) ∧ d.trib n = some y ∧ y.h4 = { z.h4 with lom := !z.h4.im }
        ∧ hasDef d (pathKey n) .lom = !z.h4.im)
  ∧ Carries .traceSet cmdTraceSet.ahead (fun c => ∀ p t d,
      let w := c.w 5
      let code := fld w 31 24
      let put := fun r : Trace => r.put (bitAt w 23) (fld w 22 21) (traceOctets c.msgs (traceLen code (fld w 22 21)))
      let d' := cmdTraceSet.apply c p t d
      (∀ q y, tOrPort (c.w 4) = .port q → d.port q = some y → ∃ y', d'.port q = some y'
        ∧ (code = 1 → y'.sdh.j0 = put y.sdh.j0 ∧ y'.otn.tti = y.otn.tti)
        ∧ (code ≠ 1 → y'.otn.tti = put y.otn.tti ∧ y'.sdh.j0 = y.sdh.j0))
      ∧ (∀ n y, tOrPort (c.w 4) = .trib n → d.trib n = some y → ∃ y', d'.trib n = some y'
        ∧ tgetD y'.traces code {} = put (tgetD y.traces code {})
        ∧ ∀ k, k ≠ code → tgetD y'.traces k {} = tgetD y.traces k {}))
  ∧ Carries .sdhPortConfig cmdSdhPortConfig.ahead (fun c => ∀ p t d y, d.port c.port = some y →
      let w := c.w 5
      let d' := cmdSdhPortConfig.apply c p t d
      d'.port c.port = some { y with sdh := { y.sdh with
        sonet := bitAt w 31, nOof := if bitAt w 30 then 5 else 4, reiExt := bitAt w 29, mseX := 3 + fld w 28 27
        peer := if bitAt w 26 then some (portOfWord w.toNat) else none } }
      ∧ ∀ q, q ≠ c.port → d'.port q = d.port q)
  ∧ Carries .sdhStructSet cmdSdhStructSet.ahead (fun c => ∀ o dir t d,
      let d' := cmdSdhStructSet.apply c (.frame o dir) t d
      (∀ n y, tOrPort (c.w 4) = .trib n → dir ≠ .tx → d.trib n = some y →
        d'.trib n = some { y with tug3 := tug3Codes (c.w 5), tug2 := tug2Codes (c.w 6) (c.w 7) })
      ∧ (∀ q y, tOrPort (c.w 4) = .port q → d.port q = some y → ∃ y', d'.port q = some y'
        ∧ (dir = .tx → y'.sdh = { y.sdh with augTx := (augCodes c.msgs).take (stmN y.typ) })
        ∧ (dir ≠ .tx → y'.sdh = { y.sdh with aug := (augCodes c.msgs).take (stmN y.typ), augTime := t, ptrs := [] })))
  ∧ Carries .sdhOhConfig cmdSdhOhConfig.ahead (fun c => ∀ p t d,
      let f := fld (c.w 5) 31 24
      let src := fld (c.w 5) 23 20
      let v := fld (c.w 5) 7 0
      let d' := cmdSdhOhConfig.apply c p t d
      (∀ q y, tOrPort (c.w 4) = .port q → d.port q = some y →
        d'.port q = some { y with sdh := { y.sdh with oh := tput y.sdh.oh f (src, v) } })
      ∧ (∀ n y, tOrPort (c.w 4) = .trib n → d.trib n = some y → d'.trib n = some (
          if f = 0x14 then { y with txLabel := if src = 0 then 0 else v }
          else if f = 0x15 then { y with expLabel := if src = 0 then none else some v }
          else { y with oh := tput y.oh f (src, v) })))

/-! ### OTN and FlexO (05 R115-R141) -/

/-- The OTU framer: like the SDH framer with five frames in error; MFAS enters the multiframe aligner; LOF and LOM follow
3 ms of their condition; a sent frame keeps the BIP-8 of two frames, and a port without an ODU advances MFAS and sends the
BIP-8 of the frame before last in its scrambled line frame (05 R116-R121, R125, R129-R131; the ODU-OCI of such a port: log entry
67). OTN_PORT_CONFIG and OTN_OH_CONFIG complete (05 R125, R129, R141). -/
def Obligations.OtnFraming : Prop :=
  (∀ (p : Nat) (x : Port) (s : State), Runs s → s.dev.port p = some x → isOtn x.typ = true →
    let goes := fun (c : Instr) (P : Dev → Port → Prop) => ∃ d y, exec c s = .next (withDev s d) ∧ d.port p = some y ∧ P d y
      ∧ (∀ k, k ≠ p → d.port k = s.dev.port k)
    (∀ bits, x.fr.st = .oof →
        (if x.typ = 0x0D then flexoReady s.dev x else bitsHold (lineBits [0xF6, 0xF6, 0x28, 0x28]) bits) = true →
        goes (.otnPatternFound ⟨p, bits⟩) fun _ y => y = { x with fr := { x.fr with st := .presync } })
    ∧ (∀ f : OtuFrame,
        let bad := (if x.typ = 0x0D then f.slices else [f.slices.headD []]).any fasErrored
        let mfas := ((otuLine s.dev x f).1.headD []).getD 6 0
        (x.fr.st = .presync → bad = true →
          goes (.otnRxFrame p f) fun _ y => y = { x with fr := { x.fr with st := .oof } })
        ∧ (x.fr.st = .presync → bad = false → goes (.otnRxFrame p f) fun d y => y.fr.st = .inFrame
          ∧ y.fr.oof = false ∧ hasDef d (secKey p) .oof = false)
        ∧ (x.fr.st = .inFrame → x.fr.oof = false → bad = true → 4 ≤ x.fr.errRun → goes (.otnRxFrame p f) fun d y =>
          y.fr.st = .oof ∧ y.fr.oof = true ∧ hasDef d (secKey p) .oof = true)
        ∧ (x.fr.st = .inFrame → (bad = false ∨ x.fr.errRun < 4) → goes (.otnRxFrame p f) fun _ y =>
          y.fr = { x.fr with errRun := if bad then x.fr.errRun + 1 else 0 }
          ∧ y.otn.mf = x.otn.mf.mfas mfas.toNat s.clock.now))
    ∧ (x.fr.lof ≠ x.fr.oof → x.fr.since + ms 3 ≤ s.clock.now → goes (.otnLofChange (.port p)) fun d y =>
        y = { x with fr := { x.fr with lof := x.fr.oof } } ∧ hasDef d (secKey p) .lof = x.fr.oof)
    ∧ (x.otn.mf.lom = x.otn.mf.im → ms 3 ≤ x.otn.mf.watch.value s.clock.now → goes (.otnLomChange (.port p)) fun d y =>
        y = { x with otn := { x.otn with mf := { x.otn.mf with lom := !x.otn.mf.im } } }
        ∧ hasDef d (secKey p) .lom = !x.otn.mf.im)
    ∧ (∀ hits, ∃ d, exec (.otnTxFrame (.port p) hits) s = .next (withDev s d))
    ∧ ∀ hits : List (Nat × LaneWord), (∀ e ∈ hits, (stageRead e.2).2 = false) → goes (.otnTxFrame (.port p) hits) (fun _ y => y.fr = x.fr ∧ y.otn.txBips.tail = x.otn.txBips.take 1
        ∧ (x.typ ≠ 0x0D → y.txF = x.txF.next s.clock.now)
        ∧ (topOdu s.dev p = none → y.otn.txMfas = x.otn.txMfas + 1
          ∧ (x.typ ≠ 0x0D → x.tx ≠ .squelch → ∃ os, y.otn.txBips.headD [] = [opuBip os] ∧ os.getD 6 0 = x.otn.txMfas
            ∧ os.getD 8 0 = (x.otn.txBips.getD 1 []).headD 0
            ∧ y.otn.txLine = otuScramble ((rowsOf 3824 os).flatMap (rowEncode (x.otn.fec == 2)))))))
  ∧ Carries .otnPortConfig cmdOtnPortConfig.ahead (fun c => ∀ o t d y, d.port c.port = some y →
      let d' := cmdOtnPortConfig.apply c o t d
      d'.port c.port = some { y with otn := { y.otn with
        cfg := true, fec := fld (c.w 5) 31 30, poisonUncorr := bitAt (c.w 5) 29
        sdSet := (c.w 6).toNat, sdClr := (c.w 7).toNat
        expGid := BitVec.ofNat 20 (c.w 8).toNat, expPids := eightOf (c.w 9) (c.w 10)
        txGid := BitVec.ofNat 20 (c.w 11).toNat, txPids := eightOf (c.w 12) (c.w 13) } }
      ∧ ∀ q, q ≠ c.port → d'.port q = d.port q)
  ∧ Carries .otnOhConfig cmdOtnOhConfig.ahead (fun c => ∀ p t d,
      let f := fld (c.w 5) 31 24
      let src := fld (c.w 5) 23 20
      let v := fld (c.w 5) 15 0
      let d' := cmdOtnOhConfig.apply c p t d
      (∀ q y, tOrPort (c.w 4) = .port q → d.port q = some y →
        d'.port q = some { y with otn := { y.otn with oh := tput y.otn.oh f (src, v) } })
      ∧ (∀ n y, tOrPort (c.w 4) = .trib n → d.trib n = some y → ∃ y', d'.trib n = some y'
        ∧ (f = 0x20 → y'.expPt = (if src = 0 then none else some v) ∧ y'.oh = y.oh)
        ∧ (f ≠ 0x20 → y' = { y with oh := tput y.oh f (src, v) })))

/-- A lower-order ODU's framer, its LOF and LOM and its frames; FlexO lanes: two aligned marker periods lock a lane, five bad
ones unlock it, 3 ms without lock is FLEXO_LOF; three FEC intervals above or below the thresholds raise or clear FEC_SD, and an
interval in which the port was out of frame, or an Ethernet port in LOAML, counts for neither (05 R117, R121-R123, R128, R139;
06 R144). OTN_STRUCT_SET and ODU_TCM_CONFIG complete (05 R132, R138). -/
def Obligations.OduAndFlexo : Prop :=
  (∀ (s : State), Runs s →
    (∀ n x f, s.dev.trib n = some x → isOdu x.typ = true → x.port = none → serverSilent s.dev 5 n = false →
      let bad := fasErrored f.octets
      let goes := fun (P : Trib → Prop) => ∃ d y, exec (.oduRxFrame n f) s = .next (withDev s d) ∧ d.trib n = some y ∧ P y
      (x.fr.st = .oof → goes fun y => y.fr.st = if bad then .oof else .presync)
      ∧ (x.fr.st = .presync → goes fun y => if bad then y.fr.st = .oof else y.fr.st = .inFrame ∧ y.fr.oof = false)
      ∧ (x.fr.st = .inFrame → bad = true → 4 ≤ x.fr.errRun → goes fun y => y.fr.st = .oof ∧ y.fr.oof = true)
      ∧ (x.fr.st = .inFrame → (bad = false ∨ x.fr.errRun < 4) → goes fun y =>
          y.fr = { x.fr with errRun := if bad then x.fr.errRun + 1 else 0 }
          ∧ y.mf = x.mf.mfas (f.octets.getD 6 0).toNat s.clock.now))
    ∧ (∀ n x, s.dev.trib n = some x → isOdu x.typ = true → x.port = none →
      (x.fr.lof ≠ x.fr.oof → ms 3 ≤ x.fr.watch.value s.clock.now →
        ∃ d, exec (.otnLofChange (.trib n)) s = .next (withDev s d)
          ∧ d.trib n = some { x with fr := { x.fr with lof := x.fr.oof } } ∧ hasDef d (pathKey n) .lof = x.fr.oof)
      ∧ (x.mf.lom = x.mf.im → ms 3 ≤ x.mf.watch.value s.clock.now →
        ∃ d, exec (.otnLomChange (.trib n)) s = .next (withDev s d)
          ∧ d.trib n = some { x with mf := { x.mf with lom := !x.mf.im } } ∧ hasDef d (pathKey n) .lom = !x.mf.im)
      ∧ (x.txOn = true → (∀ hits, ∃ d, exec (.otnTxFrame (.trib n) hits) s = .next (withDev s d))
          ∧ ∀ hits : List (Nat × LaneWord), (∀ e ∈ hits, (stageRead e.2).2 = false) → ∃ d y, exec (.otnTxFrame (.trib n) hits) s = .next (withDev s d) ∧ d.trib n = some y ∧ y.fr = x.fr
          ∧ (isTerminated s.dev n = true → bridgedTrib s.dev n = none → y.txMfas = x.txMfas + 1
            ∧ y.txBips.tail = x.txBips.take 1 ∧ y.txBips.headD [] = y.txFrames.map opuBip)))
    ∧ (∀ p x i f, s.dev.port p = some x → x.typ = 0x0D → i < x.lanes → (s.dev.lane (x.first + i)).los = false →
      let l := tgetD x.otn.lanes i {}
      ∃ d y, exec (.flexoFrame p i f) s = .next (withDev s d) ∧ d.port p = some y
        ∧ (f.markersOk = true → (tgetD y.otn.lanes i {}).locked = (l.locked || decide (1 ≤ l.okRun))
            ∧ (tgetD y.otn.lanes i {}).okRun = l.okRun + 1)
        ∧ (f.markersOk = false → (tgetD y.otn.lanes i {}).locked = (l.locked && decide (l.badRun < 4))
            ∧ (tgetD y.otn.lanes i {}).badRun = l.badRun + 1)
        ∧ (tgetD y.otn.lanes i {}).skew = f.skewNs)
    ∧ (∀ p x i, s.dev.port p = some x → x.typ = 0x0D → i < x.lanes → (tgetD x.otn.lanes i {}).locked = false →
        (tgetD x.otn.lanes i {}).lof = false → max (tgetD x.otn.lanes i {}).since x.created + ms 3 ≤ s.clock.now →
      ∃ d y, exec (.flexoLof p i) s = .next (withDev s d) ∧ d.port p = some y ∧ (tgetD y.otn.lanes i {}).lof = true
        ∧ hasDef d (secKey p) .flexoLof = true)
    ∧ (∀ p x, s.dev.port p = some x → isOtn x.typ = true ∨ isEth x.typ = true → eOf s.clock.now % 8000 = 0 →
      let set := if isOtn x.typ then x.otn.sdSet else x.eth.sdSet
      let clr := if isOtn x.typ then x.otn.sdClr else x.eth.sdClr
      let outNow := if isOtn x.typ then x.fr.st != .inFrame else hasDef s.dev (secKey p) .loaml
      ∃ d y, exec (.fecSdIntervalEnd p) s = .next (withDev s d) ∧ d.port p = some y ∧ y.fecOut = outNow
        ∧ y.fecs = tmap x.fecs (fun _ l => l.judge set clr (x.fecOut || outNow))
        ∧ hasDef d (secKey p) .fecSd = (set != 0xFFFFFFFF && y.fecs.any fun l => l.2.sd))
    ∧ (∀ (l : FecLane) set clr,
        (set < l.bits → 2 ≤ l.bad → (l.judge set clr false).sd = true)
        ∧ (l.bits ≤ clr → clr ≤ set → 2 ≤ l.good → (l.judge set clr false).sd = false)
        ∧ (clr < l.bits → l.bits ≤ set → (l.judge set clr false).sd = l.sd ∧ (l.judge set clr false).bad = 0)
        ∧ (l.judge set clr true) = { l with bits := 0 } ∧ ∀ o, (l.judge set clr o).cnt = l.cnt))
  ∧ Carries .otnStructSet cmdOtnStructSet.ahead (fun c => ∀ o dir t d y, d.trib (fld (c.w 4) 16 0) = some y →
      let d' := cmdOtnStructSet.apply c (.frame o dir) t d
      (dir = .tx → d' = d)
      ∧ (dir ≠ .tx → ∃ bad, d'.trib (fld (c.w 4) 16 0) = some { y with structPt := fld (c.w 5) 7 0, msiBad := bad }))
  ∧ Carries .oduTcmConfig cmdOduTcmConfig.ahead (fun c => ∀ o dir t d y, d.trib (fld (c.w 4) 16 0) = some y →
      let lvl := fld (c.w 5) 31 28
      let f := tgetD y.tcm lvl {}
      let d' := cmdOduTcmConfig.apply c (.frame o dir) t d
      ∃ y', d'.trib (fld (c.w 4) 16 0) = some y' ∧ (∀ k, k ≠ lvl → tgetD y'.tcm k {} = tgetD y.tcm k {})
        ∧ (dir = .tx → tgetD y'.tcm lvl {} = { f with source := fld (c.w 5) 25 24 })
        ∧ (dir ≠ .tx → (tgetD y'.tcm lvl {}).sink = fld (c.w 5) 27 26 ∧ (tgetD y'.tcm lvl {}).source = f.source))

/-! ### Ethernet, FlexE, MTN and fine grain (06 R142-R161; 12 R298) -/

/-- An Ethernet port: the PCS defects follow the clause's variables, of a FlexE group those of any PHY; a frame of 64 octets to
max_frame with a right FCS is delivered whole, any other becomes a gap marker with its cause counted, and every frame but flow
control is counted once; a block gives two lane words; delivered words go to the owner of the port's stream; a packet that
waits is sent once, behind its preamble, unless a maintenance signal stands in its place (06 R144-R147; 01 R17, R22).
ETH_PORT_CONFIG completes, its mode and FEC fields at the octet boundary, the others at the port frame (06 R162). -/
def Obligations.EthernetPorts : Prop :=
  (∀ (p : Nat) (x : Port) (s : State), Runs s → s.dev.port p = some x →
    let k := secKey p
    let at_ := fun (d : Dev) (c : Nat) => tgetD d.fab.pm.run (k + c) 0
    (∀ phy v, isEth x.typ = true ∨ (isFlexe x.typ = true ∧ phy < x.phys) →
      ∃ d y, exec (.pcsStateChange p ⟨phy, v⟩) s = .next (withDev s d) ∧ d.port p = some y
        ∧ y.eth.pcs = tput x.eth.pcs (if isFlexe x.typ then phy else 0) v
        ∧ (let any := fun f : PcsVars → Bool => y.eth.pcs.any fun e => f e.2
          hasDef d k .lobl = any (fun v => !v.blockLock) ∧ hasDef d k .loaml = any (fun v => !v.amLock)
          ∧ hasDef d k .ethDeskew = any (fun v => !v.deskewed) ∧ hasDef d k .hiBer = any (fun v => v.hiBer)
          ∧ hasDef d k .ethLf = any (fun v => v.fault == .local_) ∧ hasDef d k .ethRf = any (fun v => v.fault == .remote))
        ∧ (∀ q, q ≠ p → d.port q = s.dev.port q))
    ∧ (∀ b, blockMode x = true →
        let ws := blockWords (x.eth.decoded b)
        ∃ d, exec (.ethRxBlock p b) s = .next (withDev s d)
          ∧ d.port p = some { x with eth := { x.eth with out := ws } } ∧ d.aon = s.dev.aon
          ∧ d.fab.xcOut = (toStream p ws s.dev).fab.xcOut)
    ∧ (∀ f, packetMode x = true →
        let os := x.eth.frameOctets f
        let n := os.length
        let good := fcsOk os && !(f.uncorr && x.eth.errInd)
        (good = true → isFlowControl os = true → exec (.ethRxFrame p f) s = .next s)
        ∧ ((good && isFlowControl os) = false → ∃ d y, exec (.ethRxFrame p f) s = .next (withDev s d) ∧ d.port p = some y
          ∧ y = { x with eth := { x.eth with out := y.eth.out } } ∧ at_ d 0x40 = at_ s.dev 0x40 + 1
          ∧ at_ d 0x41 = at_ s.dev 0x41 + BitVec.ofNat 40 n
          ∧ (64 ≤ n → n ≤ x.eth.maxFrame → good = true → isEsmc os = false →
              y.eth.out = packetWords os ∧ d.fab.xcOut = (toStream p (packetWords os) s.dev).fab.xcOut)
          ∧ (64 ≤ n → n ≤ x.eth.maxFrame → good = true → isEsmc os = true → y = x ∧ d.fab.xcOut = s.dev.fab.xcOut)
          ∧ (64 ≤ n → n ≤ x.eth.maxFrame → good = false → at_ d 0x44 = at_ s.dev 0x44 + 1
              ∧ y.eth.out = if x.eth.mark then poisonEnd (packetWords os) else [lw tagGap 1])
          ∧ (n < 5 → y.eth.out = [lw tagGap 1] ∧ at_ d 0x47 = at_ s.dev 0x47 + 1)
          ∧ (5 ≤ n → n < 64 → y.eth.out = [lw tagGap 1] ∧ at_ d 0x45 = at_ s.dev 0x45 + 1)
          ∧ (64 ≤ n → x.eth.maxFrame < n → y.eth.out = [lw tagGap 1] ∧ at_ d 0x46 = at_ s.dev 0x46 + 1)))
    ∧ (∀ hit n z, packetMode x = true → portStream s.dev p = some n → s.dev.trib n = some z → sigOf s.dev n z = .normal →
        let ws := match hit, txWaiting s.dev n with | some v, _ :: r => v :: r | _, q => q
        (∀ w ∈ ws, (stageRead w).2 = false) → (∃ w ∈ ws, lwTag w = tagEnd) →
        ∃ d y, exec (.ethTxPacket p hit) s = .next (withDev s d) ∧ at_ d 0x42 = at_ s.dev 0x42 + 1 ∧ d.port p = some y
          ∧ y.eth.sent.take 8 = preamble ∧ y = { x with eth := { x.eth with sent := y.eth.sent, txBad := y.eth.txBad } }
          ∧ txWaiting d n = ws.drop ((ws.findIdx fun w => lwTag w == tagEnd) + 1)))
  ∧ Carries .ethPortConfig cmdEthPortConfig.ahead (fun c => ∀ t d y, d.port c.port = some y →
      let w := c.w 5
      (cmdEthPortConfig.apply c .octet t d).port c.port = some { y with eth := { y.eth with
        block := bitAt w 31, detect := bitAt w 30, errInd := bitAt w 29, pfcRx := bitAt w 27, pauseRx := bitAt w 26
        sdSet := (c.w 6).toNat, sdClr := (c.w 7).toNat } }
      ∧ ∀ o dir, (cmdEthPortConfig.apply c (.frame o dir) t d).port c.port
          = some { y with eth := { y.eth with mark := bitAt w 28, maxFrame := fld w 13 0 } })

/-- Received flow control: a PFC frame pauses each class that an enabled priority maps to, for its quanta or, with 0
quanta, no longer; PAUSE acts on all eight classes; a pause ends at its time. Nothing else of a queue changes but what it
has counted as held (12 R298). -/
def Obligations.FlowControl : Prop :=
  ∀ (p n : Nat) (x : Port) (s : State), Runs s → s.dev.port p = some x → portStream s.dev p = some n →
    packetMode x = true →
    let q := fun (d : Dev) (c : Nat) => tgetD (d.sched n).queues c {}
    let until_ := fun (k : Nat) => if k = 0 then none else some (s.clock.now + pauseUnits (macGbps x.typ) k)
    (∀ f r, x.eth.pfcRx = true → r < 8 → f.vec.getLsbD r = true →
        let c := (tgetD s.dev.fab.maps n {}).map.getD r r
        (∀ r', r < r' → r' < 8 → f.vec.getLsbD r' = true → (tgetD s.dev.fab.maps n {}).map.getD r' r' ≠ c) →
      ∃ d, exec (.pfcFrameRx p f) s = .next (withDev s d) ∧ (q d c).paused = until_ (f.times.getD r 0 % 65536)
        ∧ (q d c).pkts.length = (q s.dev c).pkts.length)
    ∧ (∀ k, x.eth.pauseRx = true → ∃ d, exec (.pauseFrameRx p k) s = .next (withDev s d)
        ∧ (∀ c < 8, (q d c).paused = until_ (k % 65536) ∧ (q d c).pkts.length = (q s.dev c).pkts.length))
    ∧ (∀ k, x.eth.pauseRx = false → ∃ d, exec (.pauseFrameRx p k) s = .next (withDev s d)
        ∧ d.fab.scheds = s.dev.fab.scheds)
    ∧ (∀ c e, (q s.dev c).paused = some e → e ≤ s.clock.now → exec (.pauseExpiry p c) s
        = .next (withDev s (s.dev.modSched n fun y => { y with queues := tmod y.queues c {} fun z => { z with paused := none } })))

/-- FlexE groups: an overhead frame enters its instance's filters, which a wrong CRC leaves as they are; lock lost for
3 ms is FLEXE_LOF and regained for 3 ms ends it; the oldest due change's calendar goes into the inactive bank with CR, is
applied when CA has been seen three times, or after two multiframes without handshake, and ends with TIMEOUT otherwise; RPF
goes back while the group is in FLEXE_LOF, FLEXE_DESKEW or LOBL (06 R150-R153). FLEXE_GROUP_CONFIG and FLEXE_CLIENT_SET
complete, the latter with its calendar in the other bank (06 R152, R162). -/
def Obligations.FlexeGroups : Prop :=
  (∀ (p : Nat) (x : Port) (s : State), Runs s → s.dev.port p = some x → isFlexe x.typ = true →
    let k := secKey p
    let back := fun d : Dev => hasDef d k .flexeLof || hasDef d k .flexeDeskew || hasDef d k .lobl
    (∀ i f, i < flexeInsts s.dev x → ∃ d y, exec (.flexeOhFrame p i f) s = .next (withDev s d) ∧ d.port p = some y
      ∧ tget y.flx.insts i = some ((instOf x i).frame f s.clock.now) ∧ y.backward = back d)
    ∧ (∀ (i : FlexeInst) f t, (i.frame f t).locked = f.locked ∧ (i.frame f t).skew = f.skewNs
      ∧ ((f.locked = false ∨ f.crcOk = false) → (i.frame f t).group = i.group ∧ (i.frame f t).phy = i.phy
          ∧ (i.frame f t).map = i.map ∧ (i.frame f t).calA = i.calA ∧ (i.frame f t).calB = i.calB)
      ∧ (f.locked = true → f.crcOk = true → (i.frame f t).group = i.group.step 3 f.group.toNat t
          ∧ (f.mfEnd = true → f.mfLocked = true → (i.frame f t).map = i.map.step 2 f.map t
            ∧ (f.bankB = true → (i.frame f t).calA = i.calA) ∧ (f.bankB = false → (i.frame f t).calB = i.calB))))
    ∧ (∀ mf : Bool,
      let lock := fun i => if mf then (instOf x i).mfLocked else (instOf x i).locked
      let since := fun i => if mf then (instOf x i).mfSince else (instOf x i).since
      let df : Def := if mf then .flexeLomf else .flexeLof
      (∀ i, i < flexeInsts s.dev x → lock i = false → since i + ms 3 ≤ s.clock.now →
        ∃ d y, exec (.flexeLofChange p mf) s = .next (withDev s d) ∧ hasDef d k df = true ∧ d.port p = some y
          ∧ y.backward = back d)
      ∧ ((∀ i < flexeInsts s.dev x, lock i = true ∧ since i + ms 3 ≤ s.clock.now) →
        ∃ d, exec (.flexeLofChange p mf) s = .next (withDev s d) ∧ hasDef d k df = false
          ∧ d.port p = some { x with backward := back d }))
    ∧ (∀ c r, calPending s.dev p = c :: r → x.flx.change = none → ownReady s.dev c s.clock.now = true →
      ∃ d y, exec (.flexeCalStart p) s = .next (withDev s d) ∧ d.port p = some y ∧ y.flx.cr = true
        ∧ y.flx.change = some ⟨c.handle, c.mem, s.clock.now, 0⟩ ∧ y.flx.bankB = x.flx.bankB
        ∧ (if x.flx.bankB then y.flx.calB = x.flx.calB else y.flx.calA = x.flx.calA) ∧ d.fab.fw = s.dev.fab.fw)
    ∧ (∀ ch c, x.flx.change = some ch → calChangeOf s.dev p ch = some c →
        (if x.flx.handshake then 3 ≤ ch.caRun else ch.start + 2 * flexeMf ≤ s.clock.now) →
      exec (.flexeCalSwitch p) s = .next (withDev s (applyPart cmdFlexeClientSet c .own s.clock.now
        (s.dev.modPort p fun y => { y with flx := { y.flx with change := none, cr := false } }))))
    ∧ (∀ ch c, x.flx.change = some ch → calChangeOf s.dev p ch = some c → x.flx.handshake = true → ch.caRun < 3 →
        ch.start + x.flx.caTimeout * flexeMf ≤ s.clock.now →
      ∃ d y, exec (.flexeCalTimeout p) s = .next (withDev s d) ∧ d.port p = some y ∧ y.flx.change = none
        ∧ y.flx.cr = false ∧ y.flx.timeouts = x.flx.timeouts + 1 ∧ y.flx.bankB = x.flx.bankB
        ∧ ∀ e ∈ d.fab.fw.changes, e.handle ≠ c.handle ∨ e.mem ≠ c.mem))
  ∧ Carries .flexeGroupConfig cmdFlexeGroupConfig.ahead (fun c => ∀ t d y, d.port c.port = some y →
      let w := c.w 5
      let gives := fun (p : Part) (z : FlexePort) => (cmdFlexeGroupConfig.apply c p t d).port c.port = some { y with flx := z }
      gives .octet { y.flx with mtn := bitAt w 31, handshake := bitAt w 30, caTimeout := fld w 29 24 }
      ∧ (∀ o, gives (.frame o .rx) { y.flx with
          cfg := true, expGroup := BitVec.ofNat 20 (fld (c.w 6) 19 0), expPhys := eightOf (c.w 9) (c.w 10) })
      ∧ ∀ o, gives (.frame o .tx) { y.flx with
          txGroup := BitVec.ofNat 20 (fld w 19 0), txPhys := eightOf (c.w 7) (c.w 8) })
  ∧ Carries .flexeClientSet cmdFlexeClientSet.ahead (fun c => ∀ t d y, d.port (portOfWord (c.w 4).toNat) = some y →
      let n := fld (c.w 5) 16 0
      ∃ y', (cmdFlexeClientSet.apply c .own t d).port (portOfWord (c.w 4).toNat) = some y'
        ∧ y'.flx.bankB = !y.flx.bankB
        ∧ txCal y'.flx = calWith (flexeSlots d y) (clientNo d n) (calSlots c.w) (txCal y.flx)
        ∧ (if y.flx.bankB then y'.flx.calB = y.flx.calB else y'.flx.calA = y.flx.calA))

/-- MTN path OAM: a BAS block keeps the BIP to check the next one against and sends back the errors found; RDI and CS
change after three blocks alike; CV and APS enter filters of three; a terminated path sends its CV (06 R155; the value of
a CV that was never set is free: log entry 8). MTN_PATH_CONFIG completes. -/
def Obligations.MtnPaths : Prop :=
  (∀ (n : Nat) (x : Trib) (s : State), Runs s → s.dev.trib n = some x → hasOam x = true →
    let k := pathKey n
    (∀ b, (s.dev.layer k).ssf = false → ∃ d y, exec (.mtnBasRx n b) s = .next (withDev s d) ∧ d.trib n = some y
        ∧ y.pm.bips = [[b.own]] ∧ hasDef d k .mtnRdi = (threeStep (hasDef s.dev k .mtnRdi) x.basRun b.rdi).1
        ∧ y.basRun = (threeStep (hasDef s.dev k .mtnRdi) x.basRun b.rdi).2
        ∧ hasDef d k .mtnCsf = (threeStep (hasDef s.dev k .mtnCsf) x.csRun b.cs).1
        ∧ (∀ o r, x.pm.bips = [o :: r] → (s.dev.layer k).tsf = false → indet x [24, 25] = false →
            y.reiTx = popCount 8 (o ^^^ b.bip).toNat))
    ∧ (∀ cur run b, threeStep cur run b = if b = cur then (cur, 0) else if run = 2 then (b, 0) else (cur, run + 1))
    ∧ (∀ cv, (s.dev.layer k).ssf = false → ∃ d y, exec (.mtnCvRx n cv) s = .next (withDev s d) ∧ d.trib n = some y
        ∧ y = { x with jf := x.jf.step 3 ((cv ++ List.replicate 32 0).take 32) s.clock.now })
    ∧ (∀ v, exec (.mtnApsRx n v) s = .next (withDev s (s.dev.modTrib n fun y => { y with
        aps := tmod y.aps 0 {} fun a => a.step 3 v.toNat s.clock.now })))
    ∧ (∀ os, x.connected = false → (tgetD x.traces 0x11 {}).tx = some os →
        exec (.mtnCvTx n) s = .next (withDev s (s.dev.modTrib n fun y => { y with cvOut := os })))
    ∧ (x.connected = false → (tgetD x.traces 0x11 {}).tx = none → ∃ d y, exec (.mtnCvTx n) s = .next (withDev s d)
        ∧ d.trib n = some y ∧ y.cvOut.length = 32 ∧ y = { x with cvOut := y.cvOut }))
  ∧ Carries .mtnPathConfig cmdMtnPathConfig.ahead (fun c => ∀ o dir t d y, d.trib (fld (c.w 4) 16 0) = some y →
      let d' := cmdMtnPathConfig.apply c (.frame o dir) t d
      (dir = .tx → d' = d)
      ∧ (dir ≠ .tx → d'.trib (fld (c.w 4) 16 0) = some { y with connected := bitAt (c.w 5) 31 }
        ∧ ∀ k, k ≠ fld (c.w 4) 16 0 → d'.trib k = d.trib k))

/-- Fine-grain carriers: a grain in HUNT gives the sequence to check, the third match after it gives SYNC, a mismatch
HUNT; in SYNC the fifth absent grain in a row ends it with FG_LOA. A due change sends its map in the inactive bank with
cr, applies at the switch once ca is accepted, and after 16 multiframes or a loss of alignment the old map stays
(06 R157-R161). FG_CHAN_CREATE, FG_CHAN_RESIZE and FG_CHAN_DELETE complete (06 R161; 16 R395). -/
def Obligations.FineGrain : Prop :=
  (∀ (n : Nat) (x : Trib) (s : State), Runs s → s.dev.trib n = some x →
    let goes := fun (c : Instr) (P : FgCar → Prop) => ∃ d y, exec c s = .next (withDev s d) ∧ d.trib n = some y ∧ P y.fg
    (∀ g, isCarrier x = true →
      (∀ q, x.fg.st = .hunt → grainSeq g = some q → goes (.fgOverheadGrain n g) fun y => y.st = .presync ∧ y.run = 0
          ∧ y.expSeq = (q + 1) % 100)
      ∧ (x.fg.st = .presync → grainSeq g = some x.fg.expSeq → goes (.fgOverheadGrain n g) fun y =>
          y.st = (if x.fg.run = 2 then .sync else .presync) ∧ y.run = x.fg.run + 1 ∧ y.expSeq = (x.fg.expSeq + 1) % 100
          ∧ (x.fg.run = 2 → y.loa = false))
      ∧ (x.fg.st = .presync → grainSeq g ≠ some x.fg.expSeq → goes (.fgOverheadGrain n g) fun y => y.st = .hunt)
      ∧ (x.fg.st = .sync → grainSeq g = some x.fg.expSeq → goes (.fgOverheadGrain n g) fun y => y.st = .sync ∧ y.absent = 0
          ∧ y.expSeq = (x.fg.expSeq + 1) % 100)
      ∧ (x.fg.st = .sync → grainSeq g ≠ some x.fg.expSeq → x.fg.absent < 4 → goes (.fgOverheadGrain n g) fun y =>
          y.st = .sync ∧ y.absent = x.fg.absent + 1)
      ∧ (x.fg.st = .sync → grainSeq g ≠ some x.fg.expSeq → 4 ≤ x.fg.absent → goes (.fgOverheadGrain n g) fun y =>
          y.st = .hunt ∧ y.loa = true))
    ∧ (∀ c r car k g i, fgPending s.dev n = c :: r → x.fg.change = none → ownReady s.dev c s.clock.now = true →
        placeReady c s.dev = true →
        fgTarget s.dev c = some (car, k, g, i) →
      goes (.fgResizeStart n) fun y => y.change = some (c.handle, c.mem, s.clock.now) ∧ y.cr = true ∧ y.ms = !x.fg.txBank
        ∧ y.txBank = x.fg.txBank ∧ y.caOk = false
        ∧ y.txMaps.getD (b2n x.fg.txBank) [] = x.fg.txMaps.getD (b2n x.fg.txBank) [])
    ∧ (∀ h c car k g i, x.fg.change = some h → x.fg.caOk = true → fgChangeOf s.dev n h = some c →
        fgTarget s.dev c = some (car, k, g, i) →
      exec (.fgBankSwitch n) s = .next (withDev s (fgDefects n s.clock.now (fgApply c k g s.clock.now
        (s.dev.modTrib n fun y => { y with fg := { y.fg with
          txBank := !y.fg.txBank, ms := !y.fg.txBank, cr := false, caOk := false, change := none } })))))
    ∧ (∀ h, x.fg.change = some h → (x.fg.loa = true ∨ (x.fg.caOk = false ∧ h.2.2 + fgWait ≤ s.clock.now)) →
      goes (.fgResizeTimeout n) fun y => y.change = none ∧ y.cr = false ∧ y.txBank = x.fg.txBank
        ∧ y.timeouts = x.fg.timeouts + 1))
  ∧ Carries .fgChanCreate cmdFgChanCreate.ahead (fun c => ∀ t d,
      let r := fgReq c.w
      (∀ o dir y, d.trib r.parent = some y → (cmdFgChanCreate.apply c (.frame o dir) t d).trib r.parent
          = some { y with fg := { y.fg with carrierId := BitVec.ofNat 8 (fld (c.w 7) 7 0) } })
      ∧ (d.trib r.n = none → Made c r (cmdFgChanCreate.apply c .own t d) t true true))
  ∧ Carries .fgChanResize cmdFgChanResize.ahead (fun c => ∀ p t d y, d.trib (fld (c.w 4) 16 0) = some y →
      let g := fld (c.w 6) 24 16
      let d' := cmdFgChanResize.apply c p t d
      d'.trib (fld (c.w 4) 16 0) = some { y with
        rate := fgKbps g, pos := (y.pos &&& wd 0xFFFE00FF) ||| wd (g * 256), gen := y.gen + 1 }
      ∧ ∀ k, k ≠ fld (c.w 4) 16 0 → d'.trib k = d.trib k)
  ∧ Carries .fgChanDelete cmdFgChanDelete.ahead (fun c => ∀ p t d,
      (cmdFgChanDelete.apply c p t d).trib (fld (c.w 4) 16 0) = none)

/-! ### Mapping, contexts and FIFOs (07 R172-R194; 08 R195-R220; 01 R16, R23-R25) -/

/-- Rate adaptation: JC of AMP and BMP and S1 and S2 of PDH follow the fill of the transmit store, past one unit; a received
group carries the data that its JC says; a GMP period sends a Cm within its range, with its JC bytes and its data at their
positions, and keeps what is left in its accumulator; a received Cm or ΣCnD is taken only if its check holds, a failed check
is counted, and what a transmitter codes a receiver reads (07 R176, R177, R179-R182, R194; the codes and places of a standard:
log entry 70). -/
def Obligations.RateAdaptation : Prop :=
  (∀ (n : Nat) (x : Trib) (s : State), Runs s → s.dev.trib n = some x → x.unit ≠ 0xFF →
    let at_ := fun (d : Dev) (c : Nat) => tgetD d.fab.pm.run (pathKey n + c) 0
    let fill := fillOf s.dev n x
    let goes := fun (c : Instr) (P : Dev → Trib → Prop) => ∃ d y, exec c s = .next (withDev s d) ∧ d.trib n = some y ∧ P d y
    (∀ rx hit, (x.method = 1 ∨ x.method = 2) → goes (.ampJustification ⟨n, rx, hit⟩) fun _ y =>
        let jc := if x.method = 2 then 0 else if 8 < fill then 1 else if fill < -8 then 3 else 0
        y.jcTx = jc ∧ y.mapJc = List.replicate 3 (BitVec.ofNat 8 jc)
        ∧ y.jstHold = (if jc = 0 then min 15 (x.jstHold + 1) else 0)
        ∧ (rx = none → y.jcRx = x.jcRx)
        ∧ ∀ r (o : Octet), rx = some r → r.jc = List.replicate 3 (o, false) →
            y.jcRx = if o.toNat % 4 = 2 then 0 else o.toNat % 4)
    ∧ (∀ rx hit, (x.method = 4 ∨ x.method = 5) → goes (.pdhJustification ⟨n, rx, hit⟩) fun _ y =>
        y.jcTx = (if x.method = 5 then 1 else if 1 < fill then 3 else if fill < -1 then 0 else 1)
        ∧ (rx = none → y.jcRx = x.jcRx)
        ∧ ∀ r a b, rx = some r → 0 < r.c1.length → 0 < r.c2.length → (∀ c ∈ r.c1, c = (a, false)) →
            (∀ c ∈ r.c2, c = (b, false)) → y.jcRx = b2n (!a) * 2 + b2n (!b))
    ∧ (∀ hit, x.method = 3 → x.txMin ≤ x.txMax → goes (.gmpTxPeriod n hit) fun _ y =>
        x.txMin ≤ y.cmTx ∧ y.cmTx ≤ x.txMax ∧ y.acc + y.cmTx * x.mOct = x.acc + x.cn ∧ y.sumTx = min y.acc.toNat 1023
        ∧ y.cn = 0 ∧ y.mapJc = gmpJcOctets x.cmTx y.cmTx y.sumTx
        ∧ (∃ os, y.mapOut = gmpPlace y.cmTx x.pServer x.mOct x.pServer 1 os)
        ∧ ((x.txMin * x.mOct : Int) ≤ x.acc + x.cn → x.acc + x.cn < ((x.txMax + 1) * x.mOct : Int) →
            0 ≤ y.acc ∧ y.acc < (x.mOct : Int)))
    ∧ (∀ j : GmpJc, x.method = 3 → serverFrozen s.dev x = true → exec (.gmpRxPeriod n j) s = .next s)
    ∧ (∀ j : GmpJc, x.method = 3 → serverFrozen s.dev x = false → indet x [24] = false →
        let oct := fun i => j.jc.getD i (0, true)
        let v := (oct 0).1.toNat * 256 + (oct 1).1.toNat
        let sum := (oct 3).1.toNat % 32 * 32 + (oct 4).1.toNat % 32
        let ok8 := !((oct 0).2 || (oct 1).2 || (oct 2).2) && jcCrc8 (BitVec.ofNat 16 v) == (oct 2).1.toNat
        let ok5 := !((oct 3).2 || (oct 4).2 || (oct 5).2) && jcCrc5 (BitVec.ofNat 10 sum) == (oct 5).1.toNat % 32
        goes (.gmpRxPeriod n j) fun d y =>
          (ok8 = false → y.cmRx = x.cmRx ∧ at_ d 0x27 = at_ s.dev 0x27 + 1)
          ∧ (∀ cm, ok8 = true → cmDecode x.cmRx v = some cm →
              (cm ≤ x.pServer → y.cmRx = cm ∧ at_ d 0x27 = at_ s.dev 0x27
                ∧ at_ d 0x29 = at_ s.dev 0x29 + (if cm < x.cmMin ∨ x.cmMax < cm then 1 else 0))
              ∧ (x.pServer < cm → y.cmRx = x.cmRx ∧ at_ d 0x27 = at_ s.dev 0x27 + 1))
          ∧ y.sumRx = (if ok5 then sum else x.sumRx) ∧ at_ d 0x28 = at_ s.dev 0x28 + (if ok5 then 0 else 1)
          ∧ ∀ k, k ≠ n → d.trib k = s.dev.trib k)
    ∧ (∀ cm sum os, x.method = 3 → serverFrozen s.dev x = false → indet x [24] = false → x.cmRx < 16384 → cm < 16384 →
        cm ≤ x.pServer → sum < 1024 →
        goes (.gmpRxPeriod n ⟨(gmpJcOctets x.cmRx cm sum).map fun o => (o, false), os⟩) fun _ y => y.cmRx = cm ∧ y.sumRx = sum))
  ∧ (∀ (cm p m : Nat) (os : List Octet), 0 < p → cm ≤ p → os.length = cm * m →
      gmpPick cm p m p 1 (gmpPlace cm p m p 1 os) = os)

/-- GFP-F and client signal fail: a frame carries the next segment that is ready or the next packet, or is idle; the
delineator passes HUNT, PRESYNC and SYNC; a frame is delivered, discarded or made a gap marker by its headers, with its count;
client signal fail is sent every 100 ms and ends 300 ms after the last (07 R183-R185; 10 R232). -/
def Obligations.GfpFrames : Prop :=
  ∀ (n : Nat) (x : Trib) (s : State), Runs s → s.dev.trib n = some x →
    let k := pathKey n
    let q := fifoOf s.dev ⟨.pktOut, n⟩
    let at_ := fun (d : Dev) (c : Nat) => tgetD d.fab.pm.run (k + c) 0
    (x.method = 6 → x.typ = 0x29 → x.unit ≠ 0xFF →
      let sig := sigOf s.dev n x
      let live := sig = .normal ∧ (x.txEn = true ∨ x.drain.isSome = true)
      let idle := ∀ hit, ∃ d, exec (.gfpFrameTx n hit) s = .next (withDev s d)
        ∧ d.trib n = some { x with tx := sig, gfpFill := x.gfpFill + 1, mapJc := [], mapOut := gfpIdle }
        ∧ (∀ c, c ≠ n → d.trib c = s.dev.trib c) ∧ d.aon = s.dev.aon
      (¬ live → idle)
      ∧ (live → (segmentsOf s.dev x).find? (segmentReady s.dev) = none → nextPacket q = none → idle)
      ∧ (∀ hit, ∃ d, exec (.gfpFrameTx n hit) s = .next (withDev s d))
      ∧ (∀ hit c y, live → (segmentsOf s.dev x).find? (segmentReady s.dev) = some c → s.dev.trib c = some y →
          ∃ d z, exec (.gfpFrameTx n hit) s = .next (withDev s d) ∧ d.trib c = some z ∧ z.seqTx = (y.seqTx + 1) % 65536)
      ∧ (∀ hit ws ps len r, live → (segmentsOf s.dev x).find? (segmentReady s.dev) = none → nextPacket q = some (ps, len, r) →
          firstRead hit ps = (ws, false) → ∃ d y, exec (.gfpFrameTx n hit) s = .next (withDev s d) ∧ d.trib n = some y ∧ fifoOf d ⟨.pktOut, n⟩ = r
            ∧ y.mapOut = (gfpPacket x.gfpTx x (packetOctets ws) (ws.any lwPoison)).1
            ∧ y.gfpTx = (gfpPacket x.gfpTx x (packetOctets ws) (ws.any lwPoison)).2
            ∧ at_ d 0x42 = at_ s.dev 0x42 + 1 ∧ at_ d 0x43 = at_ s.dev 0x43 + BitVec.ofNat 40 len ∧ d.aon = s.dev.aon))
    ∧ (∀ f : GfpFrame, x.method = 6 → x.typ = 0x29 → x.unit ≠ 0xFF →
        let st := delinStep x.delin f.core f.poisoned (indet x [25])
        ∃ d y, exec (.gfpFrameRx n f) s = .next (withDev s d) ∧ d.trib n = some y ∧ y.delin = st.1
          ∧ hasDef d k .gfpLfd = (st.1 != .sync)
          ∧ (∀ p, st.2 = some p → indet x [24] = false → indet x [25] = false →
            let os := (gfpDescramble x.gfpRx ((f.area.take p).map (·.1))).1
            let r := gfpFate p (x.opts.toNat % 256) (!(segmentsOf s.dev x).isEmpty) false false os
            let len := (gfpClient r.2 os).length
            (r.1 = .packet → at_ d 0x40 = at_ s.dev 0x40 + 1 ∧ at_ d 0x41 = at_ s.dev 0x41 + BitVec.ofNat 40 len
                ∧ hasDef d k .gfpCsf = false)
            ∧ (r.1 = .csf → y.csfTime = s.clock.now ∧ hasDef d k .gfpCsf = true)
            ∧ (r.1 = .discard → at_ d 0x48 = at_ s.dev 0x48 + 1 ∧ at_ d 0x40 = at_ s.dev 0x40)
            ∧ (r.1 = .pfcs → at_ d 0x49 = at_ s.dev 0x49 + 1 ∧ at_ d 0x40 = at_ s.dev 0x40)
            ∧ (r.1 = .badLen → (if len < 5 then at_ d 0x47 = at_ s.dev 0x47 + 1 else at_ d 0x46 = at_ s.dev 0x46 + 1)
                ∧ at_ d 0x40 = at_ s.dev 0x40)
            ∧ (r.1 = .segment → ∃ g, y.segIn = x.segIn ++ [g] ∧ g.length = len)
            ∧ ((r.1 = .idle ∨ r.1 = .segment) → d.fab.pm = s.dev.fab.pm)))
    ∧ (∀ (c : Word) (p i : Bool) (st : Delin),
        ((hecFix (c ^^^ coreXor)).2 = false →
          delinStep .hunt c false false = (.presync, none) ∧ (delinStep .presync c false false).1 = .sync)
        ∧ (st ≠ .sync → ((hecFix (c ^^^ coreXor)).2 = true ∨ p = true) → (delinStep st c p i).1 = .hunt)
        ∧ (delinStep .sync c false false).1 = (if (hecFix (c ^^^ coreXor)).1.isSome then .sync else .hunt))
    ∧ (x.typ = 0x29 → x.method = 6 → x.unit ≠ 0xFF → x.txOpts.getLsbD 10 = true → sourceLost s.dev n = true →
        (∀ u, x.csfSent = some u → u + ms 100 ≤ s.clock.now) →
        let fr := gfpFrame x.gfpTx 0x8001 [] []
        ∃ d, exec (.gfpCsfTx n) s = .next (withDev s d)
          ∧ d.trib n = some { x with csfSent := some s.clock.now, gfpTx := fr.2, mapJc := [], mapOut := fr.1 })
    ∧ (x.csfTime + ms 300 ≤ s.clock.now →
        ∃ d, exec (.gfpCsfClear n) s = .next (withDev s d) ∧ hasDef d k .gfpCsf = false
          ∧ d.fab.tribs = s.dev.fab.tribs ∧ d.fab.pm = s.dev.fab.pm)

/-- Stream segments and IMP: a segment in order moves the number expected on, missing ones before it are counted and one
earlier than expected is counted and left; an IMP packet is what stands between a start and a terminate block, counted with
its octets, and any other block but data and OAM within it ends it in error (07 R185, R186; block types: log entry 70). -/
def Obligations.SegmentsAndImp : Prop :=
  ∀ (n : Nat) (x : Trib) (s : State), Runs s → s.dev.trib n = some x →
    let k := pathKey n
    let at_ := fun (k : Nat) (d : Dev) (c : Nat) => tgetD d.fab.pm.run (k + c) 0
    let goes := fun (c : Instr) (P : Dev → Trib → Prop) => ∃ d y, exec c s = .next (withDev s d) ∧ d.trib n = some y ∧ P d y
    (∀ i q, x.segIn = [] → exec (.segmentRx n i q) s = .next s)
    ∧ (∀ f rest, x.segIn = f :: rest →
      let idx := (segmentHead f).1
      let seq := (segmentHead f).2
      (∀ i q, (i, q) ≠ (idx, seq) → exec (.segmentRx n i q) s = .next s) ∧
      let dest := (segmentsOf s.dev x).find? fun c => match s.dev.trib c with | some y => fld y.pos 3 0 == idx | none => false
      (dest = none → exec (.segmentRx n idx seq) s = .next (withDev s (s.dev.modTrib n fun y => { y with segIn := rest })))
      ∧ (∀ c y, dest = some c → s.dev.trib c = some y →
          ∃ d z, exec (.segmentRx n idx seq) s = .next (withDev s d) ∧ d.trib c = some z ∧ (c ≠ n → ∃ w, d.trib n = some w ∧ w.segIn = rest)
            ∧ (tget y.segs idx = none → tget z.segs idx = some ⟨(seq + 1) % 65536, 1⟩)
            ∧ (∀ r, tget y.segs idx = some r →
              let ahead := (seq + 65536 - r.exp) % 65536
              (ahead < 32768 → tget z.segs idx = some ⟨(seq + 1) % 65536, min 4 (r.held + ahead + 1)⟩
                ∧ at_ (pathKey c) d 0x4B = at_ (pathKey c) s.dev 0x4B + BitVec.ofNat 40 ahead)
              ∧ (32768 ≤ ahead → z.segs = y.segs ∧ at_ (pathKey c) d 0x4C = at_ (pathKey c) s.dev 0x4C + 1))))
    ∧ (∀ b, x.method = 7 → x.typ = 0x29 → x.unit ≠ 0xFF →
      let kind := impKind b
      (kind = .oam → exec (.impBlockRx n b) s = .next s)
      ∧ (x.impPkt = false → kind ≠ .start → exec (.impBlockRx n b) s = .next s)
      ∧ (x.impPkt = false → kind = .start → exec (.impBlockRx n b) s
          = .next (withDev s (s.dev.modTrib n fun y => { y with impPkt := true, impBuf := [] })))
      ∧ (x.impPkt = true → kind = .data → exec (.impBlockRx n b) s
          = .next (withDev s (s.dev.modTrib n fun y => { y with impBuf := y.impBuf ++ blockOctets b })))
      ∧ (∀ m, x.impPkt = true → kind = .term m →
          let os := x.impBuf ++ ((blockOctets b).drop 1).take m
          goes (.impBlockRx n b) fun d y => y.impPkt = false ∧ y.impBuf = []
            ∧ (5 ≤ os.length → os.length ≤ 16000 → at_ k d 0x40 = at_ k s.dev 0x40 + 1
                ∧ at_ k d 0x41 = at_ k s.dev 0x41 + BitVec.ofNat 40 os.length)
            ∧ (os.length < 5 → at_ k d 0x47 = at_ k s.dev 0x47 + 1 ∧ at_ k d 0x40 = at_ k s.dev 0x40)
            ∧ (16000 < os.length → at_ k d 0x46 = at_ k s.dev 0x46 + 1 ∧ at_ k d 0x40 = at_ k s.dev 0x40))
      ∧ (x.impPkt = true → (kind = .idle ∨ kind = .start ∨ kind = .error ∨ kind = .invalid) →
          goes (.impBlockRx n b) fun d y => y.impPkt = (kind == .start) ∧ y.impBuf = []
            ∧ at_ k d 0x4A = at_ k s.dev 0x4A + 1 ∧ (d.layer k).badFrame = true))

/-- Contexts: a configuration word that firmware rewrites is good again from the next container frame boundary; a context
without an owner starts in the slice R171 finds; a visit without errors takes up the filter word, and a word that fails its
check is kept as failed; a drain that is over discards what is left and a deletion then frees the context; a resize takes LCR
and the ramp in their order and gives up before the ramp (07 R171-R175, R187-R191, R193; 09 R226; 18 R422). TRIB_CREATE,
TRIB_MODIFY, TRIB_ENABLE, TRIB_DISABLE, TRIB_DELETE and ODUFLEX_RESIZE complete, direction by direction (02 R46; 07 R165-R167,
R188-R191). -/
def Obligations.SliceContexts : Prop :=
  (∀ (n : Nat) (x : Trib) (s : State), Runs s → s.dev.trib n = some x →
    let t := s.clock.now
    (∀ w, FwRuns s → isCfgWord w = true → x.badWords.contains w = true →
      exec (.contextRewrite n w) s = .next (withDev s (s.dev.modTrib n fun y => { y with rewrites := sadd y.rewrites w })))
    ∧ (∀ w, isCfgWord w = true → x.badWords = [w] → x.rewrites = [w] →
      (reinitWords n t s.dev).trib n = some { x with badWords := [], rewrites := [], poisoned := false })
    ∧ (∀ u, FwRuns s → x.unit = 0xFF → x.typ ≠ 0x0A → placeTrib s.dev x = .ok u →
        ∃ d y, exec (.contextRecreate n) s = .next (withDev s d)
        ∧ d.trib n = some y ∧ y.unit = u ∧ y.gen = x.gen + 1 ∧ y.badWords = [] ∧ y.delin = .hunt ∧ y.traces = x.traces
        ∧ y.typ = x.typ ∧ y.pos = x.pos ∧ y.rate = x.rate)
    ∧ (FwRuns s → x.unit ≠ 0xFF → exec (.contextRecreate n) s = .next s)
    ∧ (x.unit ≠ 0xFF → exec (.sliceContextVisit n ⟨[], 0, false⟩) s
        = .next (withDev s (s.dev.modTrib n fun y => { y with filt := filtState y })))
    ∧ (∀ w v, x.unit ≠ 0xFF → w ≤ 31 → ctxFails w v = true →
        ∃ d y, exec (.sliceContextVisit n ⟨[(w, v)], 0, false⟩) s = .next (withDev s d)
        ∧ d.trib n = some y ∧ w ∈ y.badWords ∧ ((w < 24 ∨ 27 < w) → y.poisoned = true))
    ∧ (∀ v, x.unit = 0xFF → exec (.sliceContextVisit n v) s = .next s)
    ∧ (∀ r,
        let ids : List FifoId := if x.typ = 0x29 then [⟨.pktIn, n⟩, ⟨.pktOut, n⟩] else [⟨.esRx, n⟩, ⟨.esTx, n⟩]
        let queued := if x.typ = 0x29 then sumBy (fun e => e.2.pkts.length) (s.dev.sched n).queues else 0
        let left := sumBy (fun f => (s.dev.fifo f).entries.length) ids + queued
        x.drain = some r →
        (drainOver s.dev n left r t = false → exec (.drainEnd n) s = .next s)
        ∧ (r.delete = none → drainOver s.dev n left r t = true → ∃ d y, exec (.drainEnd n) s = .next (withDev s d)
          ∧ d.trib n = some y ∧ y.drain = none ∧ y.discard = min (x.discard + left) 65535
          ∧ (∀ f ∈ ids, (d.fifo f).entries = []) ∧ (x.typ ≠ 0x29 → d.fab.scheds = s.dev.fab.scheds)
          ∧ (x.typ = 0x29 → ∀ c, (tgetD (d.sched n).queues c {}).pkts = []))
        ∧ (∀ h, r.delete = some h → drainOver s.dev n left r t = true →
          (∀ c ∈ s.dev.fab.fw.changes, c.handle = h → c.obj = .trib n → fld (c.w 4) 16 0 = n) →
          ∃ d, exec (.drainEnd n) s = .next (withDev s d) ∧ d.trib n = none))
    ∧ (∀ c, resizeOf s.dev n = some c → x.resize = none → ownReady s.dev c t = true →
        ∃ d y, exec (.oduflexResizeStep n) s = .next (withDev s d) ∧ d.trib n = some y
          ∧ y.resize = some ⟨c.handle, x.rate, fld (c.w 5) 28 0, 1⟩
          ∧ y.rate = (if x.rate ≤ fld (c.w 5) 28 0 then x.rate else fld (c.w 5) 28 0)
          ∧ (fld (c.w 5) 28 0 < x.rate → y.tsMap = x.tsMap) ∧ d.fab.fw.changes = s.dev.fab.fw.changes)
    ∧ (∀ c r, resizeOf s.dev n = some c → x.resize = some r → fld (c.w 4) 16 0 = n →
        ∃ d y, exec (.oduflexResizeStep n) s = .next (withDev s d) ∧ d.trib n = some y ∧ y.resize = none
          ∧ y.rate = fld (c.w 5) 28 0 ∧ (r.old ≤ r.new → y.tsMap = x.tsMap))
    ∧ (∀ c, resizeOf s.dev n = some c → (x.resize = none → ownReady s.dev c t = true) →
        (∀ r, x.resize = some r → r.old ≤ r.new) →
        ∃ d y, exec (.oduflexResizeTimeout n) s = .next (withDev s d) ∧ d.trib n = some y ∧ y.resize = none ∧ y.rate = x.rate
          ∧ ∀ e ∈ d.fab.fw.changes, e.handle ≠ c.handle ∨ e.mem ≠ c.mem)
    ∧ (∀ c r, resizeOf s.dev n = some c → x.resize = some r → r.new < r.old → exec (.oduflexResizeTimeout n) s = .next s))
  ∧ Carries .tribCreate cmdTribCreate.ahead (fun c => ∀ t d,
      let r := tribReq c.w
      let go := fun p => cmdTribCreate.apply c p t d
      (∀ o, d.trib r.n = none →
        Made c r (go (.frame o .rx)) t r.rxOn false ∧ Made c r (go (.frame o .tx)) t false r.txOn
        ∧ Made c r (go .octet) t r.rxOn r.txOn)
      ∧ (∀ o y, d.trib r.n = some y → (go (.frame o .rx)).trib r.n = some { y with rxOn := r.rxOn }
          ∧ (go (.frame o .tx)).trib r.n = some { y with txOn := r.txOn }))
  ∧ Carries .tribModify cmdTribModify.ahead (fun c => ∀ o t d y, d.trib (fld (c.w 4) 16 0) = some y →
      let w := c.w 5
      ∃ a b, (cmdTribModify.apply c (.frame o .rx) t d).trib (fld (c.w 4) 16 0) = some a
        ∧ (cmdTribModify.apply c (.frame o .tx) t d).trib (fld (c.w 4) 16 0) = some b
        ∧ a.gen = y.gen + 1 ∧ a.opts = (if bitAt w 29 then BitVec.ofNat 12 (fld (c.w 6) 11 0) else y.opts)
        ∧ a.tol = (if bitAt w 29 then fld (c.w 6) 31 24 else y.tol) ∧ a.txOpts = y.txOpts ∧ a.lck = y.lck ∧ a.rate = y.rate
        ∧ b.txOpts = (if bitAt w 29 then BitVec.ofNat 12 (fld (c.w 6) 11 0) else y.txOpts)
        ∧ b.txTol = (if bitAt w 29 then fld (c.w 6) 31 24 else y.txTol)
        ∧ b.lck = (if bitAt w 31 then bitAt w 30 else y.lck) ∧ b.rate = (if bitAt w 28 then fld (c.w 7) 29 0 else y.rate)
        ∧ b.opts = y.opts)
  ∧ Carries .tribEnable cmdTribEnable.ahead (fun c => ∀ o t d y, d.trib (fld (c.w 4) 16 0) = some y →
      let go := fun dir => cmdTribEnable.apply c (.frame o dir) t d
      (y.enabled = true → go .rx = d) ∧ (y.txEn = true → go .tx = d)
      ∧ (y.enabled = false → ∃ z, (go .rx).trib (fld (c.w 4) 16 0) = some z ∧ z.enabled = true ∧ z.gen = y.gen + 1
          ∧ z.drain = none ∧ z.txEn = y.txEn)
      ∧ (y.txEn = false → ∃ z, (go .tx).trib (fld (c.w 4) 16 0) = some z ∧ z.txEn = true ∧ z.enabled = y.enabled))
  ∧ Carries .tribDisable cmdTribDisable.ahead (fun c => ∀ o t d,
      let go := fun dir => cmdTribDisable.apply c (.frame o dir) t d
      ∀ k y, k ∈ familyOf d (fld (c.w 4) 16 0) → d.trib k = some y →
        (∃ z, (go .rx).trib k = some z ∧ z.enabled = false ∧ (y.enabled = true → z.drain = some ⟨t, none⟩) ∧ z.txEn = y.txEn)
        ∧ ∃ z, (go .tx).trib k = some z ∧ z.txEn = false ∧ z.enabled = y.enabled)
  ∧ Carries .tribDelete cmdTribDelete.ahead (fun c => ∀ p t d,
      (cmdTribDelete.apply c p t d).trib (fld (c.w 4) 16 0) = none)
  ∧ Carries .oduflexResize cmdOduflexResize.ahead (fun c => ∀ p t d y, d.trib (fld (c.w 4) 16 0) = some y →
      ∃ z, (cmdOduflexResize.apply c p t d).trib (fld (c.w 4) 16 0) = some z ∧ z.rate = fld (c.w 5) 28 0 ∧ z.resize = none
        ∧ z.typ = y.typ ∧ z.tsMap = y.tsMap)

/-- FIFOs: a word written to a FIFO with room stands at its end, behind the marker of what was dropped before; a full FIFO
drops it and counts it; idle fill is ignored; a read takes the oldest committed entry and an empty read stalls or underruns; a
packet reserves its length slot, commits as a whole with its length and rewinds when it does not fit; a word with a parity
error is poisoned and counted (08 R195-R208; 01 R20, R23). A read hands its word on: a received word of a connected client
enters the transmit stores of its destinations, a word that has crossed enters its tributary's store (01 R17; 07 R168). -/
def Obligations.Fifos : Prop :=
  ∀ (f : FifoId) (s : State), Runs s → fifoExists s.dev f = true →
    let q := fifoOf s.dev f
    let size := gapSize s.dev f.cls
    let writes := fun (c : Instr) (P : Fifo → Prop) => ∃ d, exec c s = .next (withDev s d) ∧ P (fifoOf d f)
      ∧ (∀ k, k ≠ f.inst → d.trib k = s.dev.trib k) ∧ d.aon = s.dev.aon
      ∧ ∀ g : FifoId, fifoKey g ≠ fifoKey f → d.fifo g = s.dev.fifo g
    let reads := fun (P : Fifo → Prop) => ∃ d, exec (.fifoRead f none) s = .next (withDev s d) ∧ P (fifoOf d f)
      ∧ ((f.cls = .cdma ∨ f.cls = .pbq) → d.fab.tribs = s.dev.fab.tribs ∧ d.aon = s.dev.aon
        ∧ ∀ g : FifoId, fifoKey g ≠ fifoKey f → d.fifo g = s.dev.fifo g)
    (∀ w, (stageRead w).2 = true → ∀ u, parityUnit s.dev f = some u → exec (.fifoWrite f w false) s
        = .next (withDev s (writeFifo f (stageRead w).1 (lwParity u (wd f.inst) s.clock.now s.dev))))
    ∧ (isPktCls f.cls = false → (f.cls = .esRx → ∀ x, s.dev.trib f.inst = some x → isSegment x = false) →
      (∀ w, (stageRead w).2 = false →
        let v := (stageRead w).1
        (lwTag v ≠ tagGap → lwTag v ≠ tagIdle → 1 + b2n q.gapFlag ≤ q.room → writes (.fifoWrite f w false) fun r =>
            r.entries = q.entries ++ (if q.gapFlag then [gapWord q.gap q.gapBad] else []) ++ [v]
            ∧ r.committed = r.entries.length ∧ r.gapFlag = false ∧ r.drops = q.drops)
        ∧ (lwTag v ≠ tagGap → lwTag v ≠ tagIdle → q.room < 1 + b2n q.gapFlag → writes (.fifoWrite f w false) fun r =>
            r.entries = q.entries ∧ r.gapFlag = true ∧ r.gap = min (q.gap + 1) (2 ^ 32 - 1) ∧ r.drops = q.drops + 1)
        ∧ (lwTag v = tagIdle → writes (.fifoWrite f w false) fun r => r = q))
      ∧ (∀ e es, q.entries = e :: es → 0 < q.committed → lwTag e ≠ tagGap → (stageRead e).2 = false →
          reads fun r => r.entries = es ∧ r.committed = q.committed - 1 ∧ r.last = (stageRead e).1 ∧ r.stalled = false)
      ∧ (∀ g e es, isEsCls f.cls = true → q.entries = g :: e :: es → 1 < q.committed → lwTag g = tagGap →
          lwTag e ≠ tagGap → (stageRead g).2 = false → (stageRead e).2 = false → ∃ d,
          exec (.fifoRead f none) s = .next (withDev s d) ∧ (fifoOf d f).entries = es ∧ (fifoOf d f).last = (stageRead e).1
            ∧ tgetD d.fab.pm.run (pathKey f.inst + 0x55) 0
              = tgetD s.dev.fab.pm.run (pathKey f.inst + 0x55) 0 + BitVec.ofNat 40 (lwPayload g).toNat)
      ∧ (∀ e es c x, f.cls = .esRx → s.dev.trib f.inst = some x → isVc x.typ = false → isOdu x.typ = false →
          x.poisoned = false → rxDests s.dev f.inst = [c] → q.entries = e :: es → 0 < q.committed → lwTag e = tagData →
          (stageRead e).2 = false → (fifoOf s.dev ⟨.esTx, c⟩).gapFlag = false → 0 < (fifoOf s.dev ⟨.esTx, c⟩).room →
          ∃ d, exec (.fifoRead f none) s = .next (withDev s d)
            ∧ (fifoOf d ⟨.esTx, c⟩).entries = (fifoOf s.dev ⟨.esTx, c⟩).entries ++ [(stageRead (stageRead e).1).1])
      ∧ (∀ e es n x, f.cls = .xc → f.inst % 2 = 0 → tgetD s.dev.fab.xcCtx f.inst none = some n → s.dev.trib n = some x →
          x.rxOn = true → x.typ ≠ 0x29 → q.entries = e :: es → 0 < q.committed → lwTag e = tagData → (stageRead e).2 = false →
          (fifoOf s.dev ⟨.esRx, n⟩).gapFlag = false → 0 < (fifoOf s.dev ⟨.esRx, n⟩).room →
          ∃ d, exec (.fifoRead f none) s = .next (withDev s d)
            ∧ (fifoOf d ⟨.esRx, n⟩).entries = (fifoOf s.dev ⟨.esRx, n⟩).entries ++ [(stageRead (stageRead e).1).1])
      ∧ (q.committed = 0 → reads fun r => r.entries = q.entries ∧ r.last = q.last
        ∧ (isStallCls f.cls = true → r.stalled = true ∧ r.stalls = q.stalls + 1 ∧ r.under = q.under)
        ∧ (isStallCls f.cls = false → r.underrun = true ∧ r.under = q.under + 1)))
    ∧ (isPktCls f.cls = true →
      (q.committed = 0 → reads fun r => r.entries = q.entries ∧ r.last = q.last
        ∧ (isStallCls f.cls = true → r.stalled = true ∧ r.stalls = q.stalls + 1 ∧ r.under = q.under)
        ∧ (isStallCls f.cls = false → r.underrun = true ∧ r.under = q.under + 1))
      ∧ (∀ w, (stageRead w).2 = false →
        let v := (stageRead w).1
        (lwTag v = tagStart → q.mark = none → q.gapFlag = false → 2 ≤ q.room → writes (.packetStartWrite f w) fun r =>
          r.entries = q.entries ++ [lw tagData 0, v] ∧ r.mark = some q.entries.length ∧ r.committed = q.committed
          ∧ r.pktLen = 1 ∧ r.poisonAny = lwPoison v)
        ∧ (lwTag v = tagStart → q.mark = none → q.room < 2 → writes (.packetStartWrite f w) fun r =>
          r.entries = q.entries ∧ r.mark = none ∧ r.discarding = true ∧ r.gapFlag = true ∧ r.drops = q.drops + 1)
        ∧ (∀ m, lwTag v = tagData → q.mark = some m → 0 < q.room → writes (.fifoWrite f w false) fun r =>
          r.entries = q.entries ++ [v] ∧ r.mark = some m ∧ r.committed = q.committed ∧ r.pktLen = q.pktLen + 1
          ∧ r.poisonAny = (q.poisonAny || lwPoison v))
        ∧ (∀ m, lwTag v = tagEnd → q.mark = some m → 0 < q.room → writes (.packetEndWrite f w) fun r =>
          r.entries = (q.entries ++ [v]).set m (slotWord (4 * q.pktLen + lwCount v + 1) (q.poisonAny || lwPoison v))
          ∧ r.committed = q.entries.length + 1 ∧ r.mark = none)
        ∧ (∀ m, lwTag v = tagEnd → q.mark = some m → q.room = 0 → writes (.packetEndWrite f w) fun r =>
          r.entries = q.entries.take m ++ gapEntries size 1 ∧ r.committed = m + size ∧ r.mark = none
          ∧ r.overruns = q.overruns + 1)))
    ∧ (isStallCls f.cls = true → q.stalled = true →
        exec (.fifoStallLong f) s = .next (withDev s (fault 0x167 (wd f.inst) s.clock.now s.dev)))
    ∧ ((isStallCls f.cls = false ∨ q.stalled = false) → exec (.fifoStallLong f) s = .next s)

/-- The cross-connect and the packet buffer's banks: a good word crosses into the attachment's FIFO and is the last there;
after a poisoned context-boundary word words are discarded and counted up to the next good one; an entry read moves the reader
as its words say, with no count where it is right and one where a bit is corrected (01 R16, R23-R25; 08 R215-R220). A watermark
group asserts at its high and releases below its low watermark, its pin and a PFC frame with it, repeated while it lasts
(08 R210-R213). FC_GROUP_CONFIG, XC_CONNECT and XC_DISCONNECT complete (07 R168-R170; 08 R210, R211). -/
def Obligations.CrossConnectAndWatermarks : Prop :=
  (∀ (s : State), Runs s →
    (∀ a, tgetD s.dev.fab.xcOut a [] = [] → ∀ hit, exec (.xcWord a hit) s = .next s)
    ∧ (∀ a hit w rest, tgetD s.dev.fab.xcOut a [] = w :: rest → (stageRead (hit.getD w)).2 = false →
      let v := (stageRead (hit.getD w)).1
      let goes := fun (g : Dev → Dev) => exec (.xcWord a hit) s
        = .next (withDev s (g (s.dev.onFab fun f => { f with xcOut := tput f.xcOut a rest })))
      let crosses := fun (skip : List Nat) =>
        goes fun d => writeFifo ⟨.xc, a⟩ v (d.onFab fun f => { f with xcSkip := skip, xcLast := tput f.xcLast a v })
      (lwTag v = tagCtx → lwPoison v = false → crosses (sdel s.dev.fab.xcSkip a))
      ∧ (lwTag v = tagCtx → lwPoison v = true → crosses (sadd s.dev.fab.xcSkip a))
      ∧ (lwTag v ≠ tagCtx → lwTag v ≠ tagIdle → s.dev.fab.xcSkip.contains a = true → goes fun d => d.onFab fun f => { f with
          xcDiscard := tput f.xcDiscard a (tgetD f.xcDiscard a 0 + 1) })
      ∧ (lwTag v ≠ tagCtx → lwTag v ≠ tagIdle → s.dev.fab.xcSkip.contains a = false → crosses s.dev.fab.xcSkip)
      ∧ (lwTag v = tagIdle → goes id))
    ∧ (∀ b e, b < 8 → s.dev.fab.boot.pbCompat = true → s.dev.aon.coll.fenced.contains (0x30 + b) = false →
      let x := tgetD s.dev.fab.pb b {}
      let r := eccRead e
      let p := pbStep x.expect r
      ∃ d, exec (.pbEntryRead b e) s = .next (withDev s d)
        ∧ (r.corr = false → r.bad = false → p.2.2 = false → d = s.dev.onFab fun f => { f with
            pb := tput f.pb b { x with expect := p.1, out := p.2.1 } })
        ∧ tgetD d.fab.pb b {} = { x with expect := p.1, out := p.2.1, corr := if r.corr then x.corr + 1 else x.corr
                                         uncorr := if r.bad || p.2.2 then x.uncorr + 1 else x.uncorr })
    ∧ (∀ e : EccRes, e.bad = false → e.ext = true →
        pbStep .control e = (takeControl e.payload, [], false) ∧ pbStep .skip e = (takeControl e.payload, [], false)
        ∧ pbStep .gapCount e = (takeControl e.payload, badGap, true))
    ∧ (∀ e : EccRes, e.bad = false → e.ext = false →
        pbStep .control e = (.skip, badGap, true) ∧ pbStep .gapCount e = (.control, [lw tagGap e.payload], false))
    ∧ (∀ g x, tget s.dev.fab.wgs g = some x →
      let depth := sumBy (memberDepth s.dev) x.members
      let turns := fun (on : Bool) (pin : BitVec 16) (time : Nat) => ∃ d, exec (.watermarkEvaluation g) s = .next (withDev s d)
        ∧ tget d.fab.wgs g = some { x with on := on } ∧ d.fab.xoff = pin
        ∧ (∀ p prio y, x.pfc = some (p, prio) → s.dev.port p = some y →
            d.port p = some { y with eth := { y.eth with pfcOut := some (prio, time) } })
        ∧ d.fab.tribs = s.dev.fab.tribs ∧ d.fab.fifos = s.dev.fab.fifos ∧ d.aon = s.dev.aon
      (x.on = false → x.members ≠ [] → x.high ≤ depth → turns true (s.dev.fab.xoff ||| BitVec.ofNat 16 (2 ^ g)) 0xFFFF)
      ∧ (x.on = true → depth < x.low → turns false (s.dev.fab.xoff &&& ~~~BitVec.ofNat 16 (2 ^ g)) 0)
      ∧ ((x.on = false ∧ depth < x.high) ∨ (x.on = true ∧ x.members ≠ [] ∧ x.low ≤ depth) →
          exec (.watermarkEvaluation g) s = .next s)
      ∧ (∀ p prio, x.on = true → x.pfc = some (p, prio) → exec (.pfcRepeat g) s
          = .next (withDev s (s.dev.modPort p fun y => { y with eth := { y.eth with pfcOut := some (prio, 0xFFFF) } })))
      ∧ (x.on = false → exec (.pfcRepeat g) s = .next s)))
  ∧ Carries .fcGroupConfig cmdFcGroupConfig.ahead (fun c => ∀ p t d,
      let g := fld (c.w 4) 3 0
      let w := fun i => (c.msgs.headD []).getD i 0
      let depth := fun x : WGroup => sumBy (memberDepth d) x.members
      ∃ x, tget (cmdFcGroupConfig.apply c p t d).fab.wgs g = some x ∧ x.high = (w 5).toNat ∧ x.low = (w 6).toNat
        ∧ x.members = (c.msgs.flatMap groupMembers).eraseDups
        ∧ x.pfc = (if bitAt (w 7) 31 then some (1024 + fld (w 7) 7 0, fld (w 7) 18 16) else none)
        ∧ x.on = (!x.members.isEmpty
            && (if (tgetD d.fab.wgs g {}).on then decide (x.low ≤ depth x) else decide (x.high ≤ depth x))))
  ∧ Carries .xcConnect cmdXcConnect.ahead (fun c => ∀ t d, ((xcPairs c.w).map (·.2)).Nodup →
      ∀ e ∈ xcPairs c.w,
        let d' := cmdXcConnect.apply c (xcPart d e.2) t d
        (⟨e.1, e.2, fld (c.w 4) 31 30⟩ : Conn) ∈ d'.fab.xc ∧ (∀ y ∈ d'.fab.xc, y.dst = e.2 → y.src = e.1)
        ∧ ∀ y ∈ d.fab.xc, y.dst ∉ (xcPairs c.w).map (·.2) → y ∈ d'.fab.xc)
  ∧ Carries .xcDisconnect cmdXcDisconnect.ahead (fun c => ∀ t d,
      let n := fld (c.w 4) 16 0
      let d' := cmdXcDisconnect.apply c (xcPart d n) t d
      (∀ y ∈ d'.fab.xc, y ∈ d.fab.xc ∧ y.dst ≠ n) ∧ (∀ y ∈ d.fab.xc, y.dst ≠ n → ¬ (y.kind = 2 ∧ y.src = n) → y ∈ d'.fab.xc)
      ∧ ∀ x y, d.trib n = some x → y ∈ d.fab.xc → y.dst = n → ∃ z, d'.trib n = some z ∧ z.drain = some ⟨t, none⟩)

/-! ### Monitoring, protection and scheduling (10 R234, R240-R254; 11; 12) -/

/-- Performance monitoring: a second's end classifies every layer's second, holds it and folds what was counted into the
current bins; ten held seconds decide on unavailable time and commit the oldest; an interval's end judges degrade; a bin
boundary closes the 15-minute bins; the record of a boundary is signed and kept, the newest 96 of them (10 R234, R243, R244,
R247-R254). A failure is declared after 2.5 s and cleared after 10 s (10 R241). At a second's end the poisoned and discarded
words of each context count anew (07 R173; log entry 90).

PM_EPOCH_SET, PM_TCA_SET and DEFECT_CONFIG complete: the open bins close, marked, and the epoch and UTC are set; a
threshold is set, or removed where it is 0; a layer's actions and degrade limits are set (10 R232, R234, R249, R251). -/
def Obligations.PerformanceMonitoring : Prop :=
  (∀ (s : State), Runs s →
    let t := s.clock.now
    let run := fun (d : Dev) (i : Nat) => tgetD d.fab.pm.run i 0
    let bin := fun (d : Dev) (i : Nat) => tgetD (tgetD d.fab.pm.cur15 (i - i % 128) {}).vals (i % 128) 0
    (atFrame 8000 t = true → ∃ d, exec .pmSecondEnd s = .next (withDev s d)
      ∧ d.fab.layers = tmap s.dev.fab.layers (fun _ l => l.endSecond (secOf t - 1)) ∧ d.fab.pm.run = s.dev.fab.pm.run
      ∧ (∀ i, i ∈ s.dev.fab.pm.run.map (·.1) → run s.dev i ≠ tgetD s.dev.fab.pm.folded i 0 →
          bin d i = min (bin s.dev i + (run s.dev i - tgetD s.dev.fab.pm.folded i 0).toNat) (2 ^ 40 - 1)
          ∧ tgetD d.fab.pm.folded i 0 = run s.dev i)
      ∧ d.fab.tribs = tmap s.dev.fab.tribs (fun _ x => { x with poisonOut := 0, discard := 0 })
      ∧ d.fab.ports = s.dev.fab.ports)
    ∧ (atFrame 8000 t = false → exec .pmSecondEnd s = .next s ∧ exec .degradeIntervalEnd s = .next s)
    ∧ (∀ k l c r, (s.dev.fab.layers.map (·.1)).Nodup → (∀ e ∈ s.dev.fab.layers, e.1 % 128 = 0) →
        tget s.dev.fab.layers k = some l → l.held = c :: r → 10 ≤ l.held.length →
      ∃ d, exec .pmSecondCommit s = .next (withDev s d)
        ∧ (d.layer k).held = r ∧ (d.layer k).unavail = availStep l.unavail ((l.held.take 10).map (·.ses))
        ∧ (d.layer k).defs = l.defs
        ∧ ((d.layer k).unavail = true → run d (k + 5) = run s.dev (k + 5) + 1 ∧ run d (k + 3) = run s.dev (k + 3)
            ∧ run d (k + 4) = run s.dev (k + 4) ∧ run d (k + 2) = run s.dev (k + 2))
        ∧ ((d.layer k).unavail = false → run d (k + 5) = run s.dev (k + 5)
            ∧ run d (k + 3) = run s.dev (k + 3) + BitVec.ofNat 40 (b2n c.es)
            ∧ run d (k + 4) = run s.dev (k + 4) + BitVec.ofNat 40 (b2n c.ses)
            ∧ run d (k + 2) = run s.dev (k + 2) + BitVec.ofNat 40 c.bbe))
    ∧ (∀ k l, atFrame 8000 t = true → tget s.dev.fab.layers k = some l →
      ∃ d, exec .degradeIntervalEnd s = .next (withDev s d) ∧ (d.layer k).degEb = 0 ∧ (d.layer k).degBits = 0
        ∧ (d.layer k).degUsable = 0 ∧ (d.layer k).unavail = l.unavail ∧ (d.layer k).held = l.held
        ∧ d.fab.tribs = s.dev.fab.tribs ∧ d.fab.ports = s.dev.fab.ports)
    ∧ (∀ k x (d : Dev), degDef d k = some x → (d.layer k).ssf = false → portSuppressed d k x = false →
        (d.layer k).degFail = false → 0 < (d.layer k).degM →
      ((d.layer k).degThr ≤ (d.layer k).degEb → ((degRuns k t d).layer k).degBad = (d.layer k).degBad + 1
          ∧ ((degRuns k t d).layer k).degGood = 0
          ∧ ((d.layer k).degM ≤ (d.layer k).degBad + 1 → hasDef (degRuns k t d) k x = true))
      ∧ ((d.layer k).degEb < (d.layer k).degThr → (d.layer k).degM ≤ (d.layer k).degGood + 1 →
          hasDef (degRuns k t d) k x = false)
      ∧ ((d.layer k).degEb < (d.layer k).degThr → (d.layer k).degGood + 1 < (d.layer k).degM →
          hasDef (degRuns k t d) k x = hasDef d k x))
    ∧ (isBinBoundary s.dev t = true → (∀ i, run s.dev i = tgetD s.dev.fab.pm.folded i 0) →
        (s.dev.fab.pm.cur15.map (·.1)).Pairwise (· < ·) →
      ∃ d, exec .pmBinBoundary s = .next (withDev s d) ∧ d.fab.pm.cur15 = [] ∧ d.fab.pm.fired = []
        ∧ d.fab.pm.run = s.dev.fab.pm.run ∧ d.fab.layers = s.dev.fab.layers
        ∧ ((eOf t - s.dev.fab.fw.epochE) % 691200000 = 0 → d.fab.pm.cur24 = [])
        ∧ ((eOf t - s.dev.fab.fw.epochE) % 691200000 ≠ 0 → d.fab.pm.prev24 = s.dev.fab.pm.prev24)
        ∧ ∀ k b, tget s.dev.fab.pm.cur15 k = some b → tgetD d.fab.pm.hist15 k []
            = { b with flags := b.flags ||| (if (s.dev.layer k).unavail then 2 else 0) } :: (tgetD s.dev.fab.pm.hist15 k []).take 31)
    ∧ (FwRuns s → s.dev.fab.fw.epochE + 7200000 < eOf t → (eOf t - s.dev.fab.fw.epochE) % 7200000 = 80000 →
      ∃ d r, exec .ledgerRecordBuild s = .next (withDev s d) ∧ d.fab.fw.ledger.getLast? = some r
        ∧ r.octets = ledgerOctets s.dev (eOf t - 80000) ∧ (∀ q, s.dev.fab.fw.ledger.getLast? = some q → r.seq = q.seq + 1)
        ∧ d.fab.fw.ledger.length ≤ 96 ∧ d.fab.fw.epochChanged = false
        ∧ d.fab.tribs = s.dev.fab.tribs ∧ d.fab.pm = s.dev.fab.pm)
    ∧ (∀ x : FailureId, FwRuns s → defsOfBit s.dev x.layer x.bit ≠ [] → (s.dev.layer x.layer).ssf = false →
        (defsOfBit s.dev x.layer x.bit).all (portSuppressed s.dev x.layer) = false →
        bitTime s.dev x.layer x.bit + 20000 * frame ≤ t → (s.dev.layer x.layer).fails.contains x.bit = false →
      ∃ d, exec (.failureDeclare x) s = .next (withDev s d)
        ∧ d.layer x.layer = { s.dev.layer x.layer with fails := (s.dev.layer x.layer).fails ++ [x.bit] }
        ∧ (keyCls x.layer < 3 → run d (x.layer + 6) = run s.dev (x.layer + 6) + 1))
    ∧ (∀ x : FailureId, FwRuns s → (s.dev.layer x.layer).fails.contains x.bit = true → defsOfBit s.dev x.layer x.bit = [] →
        bitTime s.dev x.layer x.bit + 80000 * frame ≤ t →
      ∃ d, exec (.failureClear x) s = .next (withDev s d)
        ∧ d.layer x.layer = { s.dev.layer x.layer with fails := sdel (s.dev.layer x.layer).fails x.bit }
        ∧ d.fab.pm = s.dev.fab.pm))
  ∧ Carries .pmEpochSet cmdPmEpochSet.ahead (fun c => ∀ p t d,
      let d' := cmdPmEpochSet.apply c p t d
      d'.fab.pm.cur15 = [] ∧ d'.fab.pm.cur24 = [] ∧ d'.fab.pm.fired = []
      ∧ d'.fab.fw.epochE = epochOf (epochSfnOf c.w) c.accepted ∧ d'.fab.fw.epochSfn = epochSfnOf c.w
      ∧ d'.fab.fw.utc = BitVec.ofNat 64 ((c.w 6).toNat * 2 ^ 32 + (c.w 7).toNat) ∧ d'.fab.fw.epochChanged = true
      ∧ (∀ k b, (k, b) ∈ d'.fab.pm.prev24 → b.flags.getLsbD 0 = true)
      ∧ d'.fab.tribs = d.fab.tribs ∧ d'.fab.layers = d.fab.layers)
  ∧ Carries .pmTcaSet cmdPmTcaSet.ahead (fun c => ∀ p t d,
      let th := fld (c.w 5) 7 0 * 2 ^ 32 + (c.w 6).toNat
      let d' := cmdPmTcaSet.apply c p t d
      (th = 0 → d'.fab.fw.tca = tdel d.fab.fw.tca (c.w 4).toNat ∧ d'.fab.pm = d.fab.pm)
      ∧ (th ≠ 0 → d'.fab.fw.tca = tput d.fab.fw.tca (c.w 4).toNat (BitVec.ofNat 40 th))
      ∧ d'.fab.tribs = d.fab.tribs ∧ d'.fab.layers = d.fab.layers)
  ∧ Carries .defectConfig cmdDefectConfig.ahead (fun c => ∀ p t d,
      let l := (cmdDefectConfig.apply c p t d).layer (c.w 4).toNat
      l.timAct = some (bitAt (c.w 5) 31) ∧ l.plmAct = bitAt (c.w 5) 30 ∧ l.timMode = fld (c.w 5) 29 28
      ∧ l.erdi = bitAt (c.w 5) 27 ∧ l.degM = fld (c.w 5) 19 16 ∧ l.degThr = (c.w 6).toNat
      ∧ l.defs = (d.layer (c.w 4).toNat).defs ∧ (cmdDefectConfig.apply c p t d).fab.tribs = d.fab.tribs)

/-- Protection decisions: an evaluation takes the highest request present in the order LO, SF of P, FS, SF, SD, then WTR or
DNR after an SF or SD that has cleared, then NR, and decides selector and bridge for it; an errorless group is evaluated on
its own, the scan evaluates all; at the switch the feeds follow the decision (11 R257, R262-R267).

PG_CREATE, PG_MODIFY, PG_DELETE and PG_COMMAND complete: a group starts in NR on its working members with the parameters
and members of the command; its parameters change and nothing else of it; it goes, the feeds stay; its command is set, or
cleared with its WTR (11 R260-R264, R282). -/
def Obligations.ProtectionDecisions : Prop :=
  (∀ (n : Nat) (g : Pg) (s : State), Runs s → s.dev.pg n = some g →
    let t := s.clock.now
    let d := s.dev
    (g.errl.on = true → exec (.pgFastEvaluation n) s = .next (withDev s (evalPg n t d)))
    ∧ ((∀ c ∈ d.fab.fw.changes, c.code = 0x0504#16 → t < c.trig) →
        exec .pgEvaluation s = .next (withDev s (d.fab.pgs.foldl (fun d e => evalPg e.1 t d) d)))
    ∧ (g.bidir = false → ∃ y, (evalPg n t d).pg n = some y
      ∧ y.ws = g.ws ∧ y.p = g.p ∧ y.cmd = g.cmd ∧ y.selNow = g.selNow ∧ y.bridgeNow = g.bridgeNow
      ∧ (∀ m, g.cmd = some (.lo, m) → y.act = .lo ∧ y.sel = 0 ∧ y.bridge = 0)
      ∧ ((∀ m, g.cmd ≠ some (.lo, m)) → hasSf d g.p = true → y.act = .sfp ∧ y.sel = 0 ∧ y.bridge = 0)
      ∧ (∀ m, g.cmd = some (.fs, m) → hasSf d g.p = false → y.act = .fs ∧ y.sel = m ∧ y.bridge = m)
      ∧ (∀ w, g.cmd = none → g.ws = [w] → hasSf d g.p = false →
          (hasSf d w = true → y.act = .sf ∧ y.sel = 1 ∧ y.bridge = 1)
          ∧ (hasSf d w = false → hasSd g w = true → hasSd g g.p = false → y.act = .sd ∧ y.sel = 1 ∧ y.bridge = 1))
      ∧ (g.cmd = none → hasSf d g.p = false → (∀ w ∈ g.ws, hasSf d w = false ∧ hasSd g w = false) →
          g.wtrEnd = none → g.dnr = false →
          ((g.sel = 0 ∨ g.why = false) → y.act = .nr ∧ y.sel = (if g.typ = 0 ∧ g.revertive = false then g.sel else 0))
          ∧ (g.sel ≠ 0 → g.why = true → g.revertive = true → y.act = .wtr ∧ y.sel = g.sel
              ∧ y.wtrEnd = some (t + frames (480000 * g.wtr)))
          ∧ (g.sel ≠ 0 → g.why = true → g.revertive = false → y.act = .dnr ∧ y.sel = g.sel ∧ y.dnr = true)))
    ∧ (g.sel ≠ g.selNow → ¬(g.errorless = true ∧ g.errl.nsw.isSome = true) → ∃ d' y,
        exec (.selectorSwitch n) s = .next (withDev s d') ∧ d'.pg n = some y ∧ y.selNow = g.sel ∧ y.errl.nsw = none
        ∧ tgetD y.cnt 0 0 = tgetD g.cnt 0 0 + 1
        ∧ (∀ m, g.sel ≠ 0 → g.ws[g.sel - 1]? = some m → (m.o, g.p.o) ∈ d'.fab.feeds)
        ∧ (g.sel = 0 → ∀ e ∈ d'.fab.feeds, e.2 ≠ g.p.o))
    ∧ (g.sel = g.selNow → exec (.selectorSwitch n) s = .next s)
    ∧ (g.bridge ≠ g.bridgeNow → ∃ d', exec (.bridgeSwitch n) s = .next (withDev s d')
        ∧ d'.pg n = some { g with bridgeNow := g.bridge, times := tput g.times 2 t } ∧ d'.fab.feeds = d.fab.feeds)
    ∧ (g.bridge = g.bridgeNow → exec (.bridgeSwitch n) s = .next s))
  ∧ Carries .pgCreate cmdPgCreate.ahead (fun c => ∀ p t d,
      let n := fld (c.w 4) 11 0
      let d' := cmdPgCreate.apply c p t d
      (∃ y, d'.pg n = some y ∧ y.typ = fld (c.w 4) 30 28 ∧ y.point = fld (c.w 4) 26 24 ∧ y.tcm = fld (c.w 4) 23 21
        ∧ y.owner = c.sender ∧ y.bidir = bitAt (c.w 5) 31 ∧ y.revertive = bitAt (c.w 5) 30 ∧ y.sdEn = bitAt (c.w 5) 28
        ∧ y.holdOff = fld (c.w 5) 27 21 ∧ y.wtr = fld (c.w 5) 20 17
        ∧ y.p.o = memObj (c.w 6) ∧ y.ws.map (·.o) = (pgWords c.msgs).map (memObj ·.2)
        ∧ y.act = .nr ∧ y.cmd = none ∧ y.sel = 0 ∧ y.selNow = 0 ∧ y.bridge = 0 ∧ y.errl.on = bitAt (c.w 4) 27)
      ∧ (∀ m, m ≠ n → d'.pg m = d.pg m) ∧ d'.fab.xc = d.fab.xc)
  ∧ Carries .pgModify cmdPgModify.ahead (fun c => ∀ p t d y,
      let n := fld (c.w 4) 11 0
      let d' := cmdPgModify.apply c p t d
      d.pg n = some y →
      (∃ z, d'.pg n = some z ∧ z.bidir = bitAt (c.w 5) 31 ∧ z.revertive = bitAt (c.w 5) 30 ∧ z.sdEn = bitAt (c.w 5) 28
        ∧ z.holdOff = fld (c.w 5) 27 21 ∧ z.wtr = fld (c.w 5) 20 17 ∧ z.preWin = fld (c.w 5) 16 10
        ∧ z.maxDelay = fld (c.w 5) 6 0 ∧ z.p = y.p ∧ z.ws = y.ws ∧ z.cmd = y.cmd ∧ z.sel = y.sel ∧ z.selNow = y.selNow
        ∧ z.bridge = y.bridge ∧ z.typ = y.typ ∧ z.owner = y.owner)
      ∧ (∀ m, m ≠ n → d'.pg m = d.pg m) ∧ d'.fab.feeds = d.fab.feeds ∧ d'.fab.xc = d.fab.xc)
  ∧ Carries .pgDelete cmdPgDelete.ahead (fun c => ∀ p t d,
      let d' := cmdPgDelete.apply c p t d
      d'.pg (fld (c.w 4) 11 0) = none ∧ (∀ m, m ≠ fld (c.w 4) 11 0 → d'.pg m = d.pg m)
      ∧ d'.fab.feeds = d.fab.feeds ∧ d'.fab.xc = d.fab.xc)
  ∧ Carries .pgCommand cmdPgCommand.ahead (fun c => ∀ p t d y,
      let d' := cmdPgCommand.apply c p t d
      d.pg (fld (c.w 4) 11 0) = some y →
      (∀ r, cmdReq (fld (c.w 5) 31 28) = some r →
        d'.pg (fld (c.w 4) 11 0) = some { y with cmd := some (r, fld (c.w 5) 3 0) })
      ∧ (cmdReq (fld (c.w 5) 31 28) = none → d'.pg (fld (c.w 4) 11 0) = some { y with cmd := none, wtrEnd := none })
      ∧ ∀ m, m ≠ fld (c.w 4) 11 0 → d'.pg m = d.pg m)

/-- Protection inputs and timers: the present signals of a member's layer count at once without a hold-off and start it with
one, and take an aligned errorless group into HOLD; the APS value accepted on P is the far end's request; hold-off and WTR expire at their times, and not before; 50 ms of a wrong bridge
at the far end are NR; a parity error of a group's state restarts its timers (11 R259, R266-R269, R281; 10 R240). -/
def Obligations.ProtectionInputs : Prop :=
  ∀ (n : Nat) (g : Pg) (s : State), Runs s → s.dev.pg n = some g →
    let t := s.clock.now
    let goes := fun (c : Instr) (P : Pg → Prop) => ∃ d y, exec c s = .next (withDev s d) ∧ d.pg n = some y ∧ P y
    (∀ o i m, groupOf s.dev o = some n → g.memOf o = some i → g.mem i = some m →
      let x := s.dev.layer (memLayer g o)
      goes (.defectFastPath o) fun y => ∃ m2, y.mem i = some m2
        ∧ m2.o = m.o ∧ m2.tsf = x.tsf ∧ m2.ssf = x.ssf ∧ m2.tsd = x.tsd
        ∧ (m.tsf = x.tsf → m.ssf = x.ssf → m.tsd = x.tsd → m2 = m)
        ∧ ((m.tsf ≠ x.tsf ∨ m.ssf ≠ x.ssf ∨ m.tsd ≠ x.tsd) → g.holdOff = 0 →
            m2.rsf = memSf g m2 ∧ m2.rsd = memSd g m2 ∧ m2.hold = none)
        ∧ (g.holdOff ≠ 0 → m.hold = none → memSf g m = false → (x.ssf = true ∨ (g.point ≠ 1 ∧ x.tsf = true)) →
            m2.hold = some (t + frames (800 * g.holdOff)) ∧ (m.rsf = false → m2.rsf = false))
        ∧ (∀ w, i = 0 → apsAccepted s.dev g = some w → y.far = (farOf s.dev g w).1 ∧ y.fopInv = (farOf s.dev g w).2)
        ∧ ((i ≠ 0 ∨ apsAccepted s.dev g = none) → y.far = g.far)
        ∧ ((x.tsf = true ∨ x.ssf = true) → y.errl.freeSince = none ∧ (g.errl.st = .aligned → y.errl.st = .hold)))
    ∧ (∀ i m e, g.mem i = some m → m.hold = some e →
        (e ≤ t → goes (.holdOffExpiry n i) fun y =>
          y.mem i = some { m with hold := none, rsf := memSf g m, rsd := memSd g m } ∧ y.sel = g.sel)
        ∧ (t < e → goes (.holdOffExpiry n i) fun y => y = g))
    ∧ (∀ e, g.wtrEnd = some e →
        (e ≤ t → goes (.wtrExpiry n) fun y => y = { g with wtrEnd := none, times := tput g.times 3 t })
        ∧ (t < e → goes (.wtrExpiry n) fun y => y = g))
    ∧ (g.bidir = true → g.asks = true → g.far.bridged ≠ g.txMem → g.reqTime + frames 400 ≤ t →
        goes (.pgFopNrTimeout n) fun y => y.fopNr = true ∧ y.sel = g.sel ∧ y.txReq = g.txReq)
    ∧ (goes (.pgStateParity n) fun y => y.wtrEnd = none ∧ y.far = {} ∧ y.p.hold = none ∧ y.sel = g.sel ∧ y.cmd = g.cmd
        ∧ y.p.rsf = memSf g g.p ∧ (∀ w ∈ y.ws, w.hold = none ∧ w.rsf = memSf g w) ∧ y.ws.length = g.ws.length)

/-- Errorless switching: a frame's signature joins its member's history and moves the alignment state, its words go to the
buffer or the output; eight matching frames in CONFIRM align, four that differ or a delay above the greatest lose it; the
output switches at its switch frame without a change of source, and takes up a new lag at a frame; a group that lost its units
starts again once it has them (11 R274-R279; which free units it takes: log entry 83).

A frame that an empty buffer stores is read back with its payloads, the first word tagged as a frame start and the others as
data, and poison of a word poisons its whole line (11 R274). -/
def Obligations.ErrorlessSwitching : Prop :=
  (∀ (n : Nat) (g : Pg) (s : State), Runs s → s.dev.pg n = some g → g.errl.on = true →
    let t := s.clock.now
    let goes := fun (c : Instr) (P : Dev → Errl → Prop) => ∃ d y, exec c s = .next (withDev s d) ∧ d.pg n = some y ∧ P d y.errl
    (∀ f : ErrlFrame,
      let x : Trib := match (if f.prot then some g.p.o else g.ws.head?.map (·.o)) with
        | some (.trib k) => (s.dev.trib k).getD {}
        | _ => {}
      let r := sigRecOf x f
      let keep := fun l : List SigRec => (l.filter fun x => decide (r.at_ ≤ x.at_ + doubleDelay g)) ++ [r]
      let e : Errl := if f.prot then { g.errl with pSigs := keep g.errl.pSigs } else { g.errl with wSigs := keep g.errl.wSigs }
      let free8 := ∃ x, g.errl.freeSince = some x ∧ x + 8 * memFrame s.dev g ≤ t
      (goes (.errorlessFrame n f) fun _ y => y.pSigs = e.pSigs ∧ y.wSigs = e.wSigs
        ∧ y.lines = (errlWords x g f g.errl).lines ∧ y.guarded = (errlWords x g f g.errl).guarded
        ∧ y.out = (errlWords x g f g.errl).out)
      ∧ (g.errl.st = .notAligned → free8 → g.errl.units = g.errl.need → goes (.errorlessFrame n f) fun _ y => y.st = .search)
      ∧ (g.errl.st = .hold → free8 → goes (.errorlessFrame n f) fun _ y => y.st = .confirm ∧ y.run = 0)
      ∧ (∀ o k, g.errl.st = .search → (if f.prot then matchesOf { g with errl := e } e.pSigs e.wSigs
            else matchesOf { g with errl := e } e.wSigs e.pSigs) = [(o, k)] → withinDelay g 1 k = true →
          goes (.errorlessFrame n f) fun _ y => y.st = .confirm ∧ y.run = 0 ∧ y.d = (if f.prot then (k : Int) else -k))
      ∧ (∀ k, g.errl.st = .confirm → compared e f.prot r = some (true, k) → goes (.errorlessFrame n f) fun _ y =>
          y.st = (if g.errl.run + 1 = 8 then .aligned else .confirm) ∧ y.run = g.errl.run + 1 ∧ y.d = k)
      ∧ (∀ k, g.errl.st = .confirm → compared e f.prot r = some (false, k) →
          goes (.errorlessFrame n f) fun _ y => y.st = .search)
      ∧ (∀ k, g.errl.st = .aligned → compared e f.prot r = some (true, k) → withinDelay g 1 k.natAbs = true →
          goes (.errorlessFrame n f) fun _ y => y.st = .aligned ∧ y.miss = 0 ∧ y.d = k)
      ∧ (∀ k, g.errl.st = .aligned → compared e f.prot r = some (false, k) → g.errl.miss + 1 = 4 →
          goes (.errorlessFrame n f) fun _ y => y.st = .search ∧ y.nsw = none)
      ∧ (∀ ok k, g.errl.st = .aligned → compared e f.prot r = some (ok, k) → withinDelay g 1 k.natAbs = false →
          goes (.errorlessFrame n f) fun _ y => y.st = .search ∧ y.nsw = none))
    ∧ (∀ k, g.errl.nsw = some k → g.errorless = true → k ≤ outNum s.dev g t → ∃ d y,
        exec (.errorlessSwitch n) s = .next (withDev s d) ∧ d.pg n = some y ∧ y.selNow = g.sel ∧ y.errl.nsw = none
          ∧ tgetD y.cnt 0 0 = tgetD g.cnt 0 0 + 1
          ∧ tgetD y.cnt 1 0 = tgetD g.cnt 1 0 + (if g.errl.late then 0 else 1) ∧ d.fab.fifos = s.dev.fab.fifos)
    ∧ (∀ k, g.errl.nsw = some k → outNum s.dev g t < k → exec (.errorlessSwitch n) s = .next s)
    ∧ (∀ l, g.errl.buildOut = some l → ∃ d, exec (.pgBuildOut n) s = .next (withDev s d)
        ∧ d.pg n = some { g with cnt := tput g.cnt 3 (tgetD g.cnt 3 0 + 1), errl := { g.errl with lag := l, buildOut := none } })
    ∧ (g.errl.buildOut = none → exec (.pgBuildOut n) s = .next s)
    ∧ (FwRuns s → g.errl.units ≠ g.errl.need → (s.dev.fab.pgs.map (·.1)).Nodup →
        (∀ e ∈ s.dev.fab.pgs, e.1 ≠ n → e.2.errl.on = false ∨ e.2.errl.units = e.2.errl.need) →
        (unitsHeld s.dev + (g.errl.need - g.errl.units) ≤ regionUnits s.dev →
          goes .alignBufferReplace fun d y =>
            y = { g.errl with chans := fitUnits s.dev g.errl.chans g.errl.need, st := .search, noMatch := t }
            ∧ ∀ m, m ≠ n → d.pg m = s.dev.pg m)
        ∧ (regionUnits s.dev < unitsHeld s.dev + (g.errl.need - g.errl.units) → exec .alignBufferReplace s = .next s)))
  ∧ ∀ (cap num : Nat) (ws : List LaneWord), ws ≠ [] → ws.length ≤ 16 * cap →
      let out := readFrame ws.length num [] (addFrame cap num ws [])
      out.map lwPayload = ws.map lwPayload
      ∧ (∀ k w, out[k]? = some w → lwTag w = (if k = 0 then tagFrame else tagData))
      ∧ ((∃ w ∈ ws.take 16, lwPoison w = true) → ∀ w ∈ out.take 16, lwPoison w = true)

/-- A packet of a source stream's PKT_IN offered to a queue: it joins it with the gap marker due before it, counted with its
octets, where every limit admits it, and is dropped, counted and announced by a gap marker where one does not; a policer's red
packet is dropped; a disabled destination admits nothing; a FIFO without a whole packet offers none (12 R284-R289, R303,
R304; 08 R202).

CLASS_MAP_SET and POLICER_SET complete: a source's map and default class; a policer with full buckets, or none (12 R285,
R289). -/
def Obligations.PacketEnqueue : Prop :=
  (∀ (src n : Nat) (x : Trib) (s : State), Runs s → isStream s.dev src = true →
    destsOf s.dev src = [n] → s.dev.trib n = some x →
    let t := s.clock.now
    let f := fifoOf s.dev ⟨.pktIn, src⟩
    let a := takeGaps f.entries.length f 0
    let gaps := satGap ((tgetD s.dev.fab.maps src {}).gapIn + a.2)
    (nextPacket a.1 = none → ∃ d, exec (.packetEnqueue src) s = .next (withDev s d) ∧ d.fab.scheds = s.dev.fab.scheds
      ∧ d.fab.tribs = s.dev.fab.tribs)
    ∧ ∀ ws len f', nextPacket a.1 = some (ws, len, f') →
      let c := classOf s.dev src (pcpOf (packetOctets ws))
      let d0 := if gaps = 0 then s.dev else s.dev.modSched n fun z => z.modQ c fun q => q.addGap gaps
      let d1 := settle n t (d0.modSched n id)
      let q := qOf (d1.sched n) c
      let cfg := queueCfg s.dev n c q
      let pol := tget (tgetD s.dev.fab.maps src {}).pol c
      let col : Colour := match pol with | some z => (z.mark len t).1 | none => .green
      let goes := fun (P : Queue → Prop) => ∃ d, exec (.packetEnqueue src) s = .next (withDev s d) ∧ P (qOf (d.sched n) c)
        ∧ fifoOf d ⟨.pktIn, src⟩ = f'
        ∧ d.fab.tribs = s.dev.fab.tribs ∧ (∀ c', c' ≠ c → qOf (d.sched n) c' = qOf (d1.sched n) c')
        ∧ ∀ m, m ≠ n → d.sched m = s.dev.sched m
      (x.txEn = false → gaps = 0 → ∃ d, exec (.packetEnqueue src) s = .next (withDev s d) ∧ d.fab.scheds = s.dev.fab.scheds)
      ∧ (x.txEn = true → col = .red → goes fun y => y.pkts = q.pkts ∧ y.gap = satGap (q.gap + 1) ∧ y.cnt = q.cnt)
      ∧ (x.txEn = true → col ≠ .red → cfg.spill = false →
        (admission d1 cfg q col len false = .inBank → goes fun y =>
          y.pkts.map (·.len) = q.pkts.map (·.len) ++ [len] ∧ y.gap = 0
          ∧ (y.pkts.getLast?.map fun p => (p.gap, p.ws, p.spilled)) = some (q.gap, bankWords s.dev ws, false)
          ∧ tgetD y.cnt cEnqPkts 0 = tgetD q.cnt cEnqPkts 0 + 1
          ∧ tgetD y.cnt cEnqOct 0 = tgetD q.cnt cEnqOct 0 + BitVec.ofNat 40 len
          ∧ tgetD y.cnt cDropFull 0 = tgetD q.cnt cDropFull 0)
        ∧ (admission d1 cfg q col len false = .full → goes fun y => y.pkts = q.pkts ∧ y.gap = satGap (q.gap + 1)
          ∧ tgetD y.cnt cDropFull 0 = tgetD q.cnt cDropFull 0 + 1 ∧ tgetD y.cnt cEnqPkts 0 = tgetD q.cnt cEnqPkts 0)
        ∧ (admission d1 cfg q col len false = .yellow → goes fun y => y.pkts = q.pkts ∧ y.gap = satGap (q.gap + 1)
          ∧ tgetD y.cnt cDropYellow 0 = tgetD q.cnt cDropYellow 0 + 1 ∧ tgetD y.cnt cEnqPkts 0 = tgetD q.cnt cEnqPkts 0)))
  ∧ (∀ (d : Dev) (k : QCfg) (q : Queue) (col : Colour) (len : Nat) (hbm : Bool), admission d k q col len hbm = .inBank →
      q.octets + len ≤ k.maxOct ∧ q.inBank + len ≤ k.quota ∧ bankEntries d q.bank + pktEntries len ≤ 400000
      ∧ d.aon.coll.fenced.contains (0x30 + q.bank) = false ∧ (col ≠ .green → q.octets < k.yellow))
  ∧ Carries .classMapSet cmdClassMapSet.ahead (fun c => ∀ p t d,
      let d' := cmdClassMapSet.apply c p t d
      let y := tgetD d'.fab.maps (qStream c.w) {}
      y.map = (List.range 8).map (fun i => fld (c.w 5) (4 * i + 2) (4 * i)) ∧ y.dflt = fld (c.w 6) 2 0
      ∧ y.pol = (tgetD d.fab.maps (qStream c.w) {}).pol ∧ d'.fab.scheds = d.fab.scheds
      ∧ ∀ m, m ≠ qStream c.w → tgetD d'.fab.maps m {} = tgetD d.fab.maps m {})
  ∧ Carries .policerSet cmdPolicerSet.ahead (fun c => ∀ p t d,
      let d' := cmdPolicerSet.apply c p t d
      let y := (tgetD d'.fab.maps (qStream c.w) {}).pol
      (bitAt (c.w 4) 31 = true → tget y (qClass c.w) = some ⟨(c.w 5).toNat, (c.w 6).toNat, (c.w 7).toNat, (c.w 8).toNat,
        full (c.w 7).toNat, full (c.w 8).toNat, t⟩)
      ∧ (bitAt (c.w 4) 31 = false → tget y (qClass c.w) = none)
      ∧ (∀ k, k ≠ qClass c.w → tget y k = tget (tgetD d.fab.maps (qStream c.w) {}).pol k) ∧ d'.fab.scheds = d.fab.scheds)

/-- Selection: while the output is busy or held nothing starts; else the head of the highest eligible STRICT or CBS class
starts, leaves its queue, is counted and holds the output for its transmission time (12 R290-R293, R303). Gate lists take
effect at their start and move on at each entry's end (12 R294-R297); a batch instant releases what was held (12 R299).

SCHED_CONFIG, QUEUE_CONFIG and GATE_LIST_SET complete: hold and gating of a stream, a queue's parameters, its gate list;
what is queued stays (12 R286, R290, R294, R297). -/
def Obligations.Selection : Prop :=
  (∀ (n : Nat) (x : Trib) (s : State), Runs s → s.dev.trib n = some x → x.typ = 0x29 →
    let t := s.clock.now
    let z := s.dev.sched n
    (t < z.busyUntil → exec (.schedulerSelect n) s = .next s)
    ∧ (x.txEn = false → x.drain = none → exec (.schedulerSelect n) s = .next s)
    ∧ (z.busyUntil ≤ t → x.txEn = true → z.hold = true → z.gate = none → ∃ d,
        exec (.schedulerSelect n) s = .next (withDev s d) ∧ (d.sched n).sending = none
        ∧ ∀ c, (qOf (d.sched n) c).pkts.map (·.len) = (qOf z c).pkts.map (·.len))
    ∧ (∀ c p r, z.busyUntil ≤ t → x.txEn = true → z.hold = false → z.gate = none → c < 8 → (qOf z c).pkts = p :: r →
        (∀ k, k < 8 → k ≠ c → (qOf z k).pkts = []) → p.at_ ≤ t → pausedNow (qOf z c) t = false →
        (queueCfg s.dev n c (qOf z c)).kind = .strict → (qOf z c).bucket = none →
        p.len ≤ (queueCfg s.dev n c (qOf z c)).pbs → ∃ d,
        exec (.schedulerSelect n) s = .next (withDev s d) ∧ (d.sched n).sending = some c
        ∧ (d.sched n).busyUntil = t + txUnits (countedSize x p.len) (schedRate s.dev n) ∧ (qOf (d.sched n) c).pkts = r
        ∧ tgetD (qOf (d.sched n) c).cnt cDeqPkts 0 = tgetD (qOf z c).cnt cDeqPkts 0 + 1
        ∧ tgetD (qOf (d.sched n) c).cnt cDeqOct 0 = tgetD (qOf z c).cnt cDeqOct 0 + BitVec.ofNat 40 p.len
        ∧ ((∀ w ∈ p.ws, (stageRead w).2 = false) → d.fab.tribs = s.dev.fab.tribs))
    ∧ (∀ (d : Dev) (z : Sched) c, (choose d n x z t).1 = some c → isDwrr (queueCfg d n c (qOf z c)).kind = false →
        (eligible d n x z t c).isSome = true
        ∧ ∀ k, c < k → k < 8 → isDwrr (queueCfg d n k (qOf z k)).kind = false → eligible d n x z t k = none)
    ∧ (∀ g, z.gate = some g → z.gateEnd ≤ t → ∃ d, exec (.gateEntryChange n) s = .next (withDev s d)
        ∧ (d.sched n).gateIdx = (g.at_ t).1 ∧ (d.sched n).gateEnd = (g.at_ t).2 ∧ (d.sched n).gate = some g)
    ∧ (∀ g, z.gate = some g → t < z.gateEnd → exec (.gateEntryChange n) s = .next s)
    ∧ (∀ c, s.dev.fab.fw.changes.find? (fun c => c.code == 0x0605#16 && c.obj == .stream n) = some c →
        (t < c.trig → exec (.gateListStart n) s = .next s)
        ∧ (heldBack s.dev.fab.fw.changes c .own = true → exec (.gateListStart n) s = .next s)
        ∧ (ownReady s.dev c t = true → fld (c.w 4) 16 0 = n → c.parts = [.own] → ∃ d, exec (.gateListStart n) s = .next (withDev s d)
          ∧ (gateEntries c.msgs = [] → (d.sched n).gate = none)
          ∧ (gateEntries c.msgs ≠ [] → (d.sched n).gate = some ⟨gateEntries c.msgs, c.trig⟩
              ∧ (d.sched n).gateIdx = (Gate.at_ ⟨gateEntries c.msgs, c.trig⟩ t).1)
          ∧ ∀ e ∈ d.fab.fw.changes, e.handle ≠ c.handle ∨ e.mem ≠ c.mem))
    ∧ (s.dev.aon.gov.batch ≠ 0 → phaseOf t = 0 → eOf t % s.dev.aon.gov.batch = 0 → ∃ d,
        exec .batchInstant s = .next (withDev s d)
        ∧ ∀ m c, (queueCfg s.dev m c (tgetD (d.sched m).queues c {})).kind = .deferrable →
            ∀ p ∈ (tgetD (d.sched m).queues c {}).pkts, p.at_ < t → p.released = true)
    ∧ ((s.dev.aon.gov.batch = 0 ∨ phaseOf t ≠ 0) → exec .batchInstant s = .next s))
  ∧ Carries .schedConfig cmdSchedConfig.ahead (fun c => ∀ p t d,
      let n := qStream c.w
      let d' := cmdSchedConfig.apply c p t d
      (d'.sched n).hold = bitAt (c.w 5) 31 ∧ (d'.sched n).gateEn = bitAt (c.w 5) 30
      ∧ (∀ k, (qOf (d'.sched n) k).pkts = (qOf (d.sched n) k).pkts) ∧ ∀ m, m ≠ n → d'.sched m = d.sched m)
  ∧ Carries .queueConfig cmdQueueConfig.ahead (fun c => ∀ p t d,
      let n := qStream c.w
      let d' := cmdQueueConfig.apply c p t d
      (qOf (d'.sched n) (qClass c.w)).cfg = some (qcfgOf c.w)
      ∧ (∀ k, (qOf (d'.sched n) k).pkts = (qOf (d.sched n) k).pkts)
      ∧ (∀ k, k ≠ qClass c.w → (qOf (d'.sched n) k).cfg = (qOf (d.sched n) k).cfg) ∧ ∀ m, m ≠ n → d'.sched m = d.sched m)
  ∧ Carries .gateListSet cmdGateListSet.ahead (fun c => ∀ p t d,
      let n := fld (c.w 4) 16 0
      let d' := cmdGateListSet.apply c p t d
      (gateEntries c.msgs = [] → (d'.sched n).gate = none)
      ∧ (gateEntries c.msgs ≠ [] → (d'.sched n).gate = some ⟨gateEntries c.msgs, c.trig⟩
          ∧ (d'.sched n).gateIdx = (Gate.at_ ⟨gateEntries c.msgs, c.trig⟩ t).1)
      ∧ (∀ k, (qOf (d'.sched n) k).pkts.map (·.len) = (qOf (d.sched n) k).pkts.map (·.len)) ∧ ∀ m, m ≠ n → d'.sched m = d.sched m)

/-- The packet buffer's banks: a fenced bank's queues move to the banks that remain, what they held is counted as dropped;
a quiet bank rests until just before the batch instant, where the policy permits it (12 R288; 14 R350; 01 R33). -/
def Obligations.Banks : Prop :=
  ∀ (b : Nat) (s : State), Runs s → b < 8 →
    let t := s.clock.now
    let live := (List.range 8).filter fun k => !s.dev.aon.coll.fenced.contains (0x30 + k)
    (s.dev.aon.coll.fenced.contains (0x30 + b) = true → isOctet t = true → live ≠ [] → ∃ d,
      exec (.bankQueueRedistribute b) s = .next (withDev s d)
      ∧ (∀ n c q, tget (s.dev.sched n).queues c = some q → q.bank = b → ∃ y, tget (d.sched n).queues c = some y
          ∧ y.pkts = [] ∧ y.bank = live.getD (c % live.length) 0 ∧ y.gap = satGap (q.gap + (q.pkts.length + sumBy (·.gap) q.pkts))
          ∧ tgetD y.cnt cDropFull 0 = tgetD q.cnt cDropFull 0 + BitVec.ofNat 40 q.pkts.length)
      ∧ (∀ n c q, tget (s.dev.sched n).queues c = some q → q.bank ≠ b → ∃ y, tget (d.sched n).queues c = some y
          ∧ y.pkts = q.pkts ∧ y.bank = q.bank ∧ y.cnt = q.cnt))
    ∧ (s.dev.aon.coll.fenced.contains (0x30 + b) = false → exec (.bankQueueRedistribute b) s = .next s)
    ∧ (∀ u, (bankDom s.dev b).st = .on → bitAt s.dev.aon.pwr.policyIn 27 = true → nextInstant s.dev t = some u →
        t + bankClear < u →
        (∀ e ∈ allQueues s.dev, e.2.2.bank = b → ∀ p ∈ e.2.2.pkts, p.spilled = true
          ∨ ((queueCfg s.dev e.1 e.2.1 e.2.2).kind = .deferrable ∧ p.at_ ≤ t)) →
        exec (.bankRetain b) s = .next (withDev s (setBank b ⟨.retain, t⟩ s.dev)))
    ∧ (bitAt s.dev.aon.pwr.policyIn 27 = false → exec (.bankRetain b) s = .next s)
    ∧ ((bankDom s.dev b).st = .waking → (bankDom s.dev b).since ≤ t →
        exec (.bankWake b) s = .next (withDev s (setBank b ⟨.on, t⟩ s.dev)))
    ∧ (∀ u, (bankDom s.dev b).st = .retain → nextInstant s.dev t = some u →
        (u ≤ t + bankWake → exec (.bankWake b) s = .next (withDev s (setBank b ⟨.on, t⟩ s.dev)))
        ∧ (t + bankWake < u → exec (.bankWake b) s = .next s))

/-! ### The block as a whole (02 R35-R43; 14 R331; 18 R427, R428; 19 R444) -/

/-- A step takes the command at the front of the queue and runs its effect with the queue's rest; on an empty queue one
phase unit passes, and after the last of a frame DFE_FRAME's effect (log entry 1). -/
def Obligations.StepRunsFront : Prop :=
  (∀ (c : Instr) (r : List Instr) (s : State), s.pending = c :: r → step s = exec c { s with pending := r })
  ∧ (∀ s : State, s.pending = [] →
      (s.clock.phase ≠ 32767#15 → step s = .next { s with clock := { s.clock with phase := s.clock.phase + 1 } })
      ∧ (s.clock.phase = 32767#15 → step s = exec .dfeFrame s))

/-- The state after reset: device time 0, no command waiting, out of standby and Snowdrop, every fault source at its initial
class with nothing fenced, the governor's registers at their reset values, every DPLL in FREE_RUN without an input, cores
held, nothing configured, an empty FIFO's last word the idle word (02 R37; 13 R317; 14 R337; 15 R362; 08 R198; 18 R416). -/
def Obligations.ResetValues : Prop :=
  let s := State.reset
  s.clock.e = 0 ∧ s.clock.phase = 0 ∧ s.pending = [] ∧ s.dev.aon.standby = false ∧ s.dev.aon.snowdrop = false
    ∧ (∀ n i, srcInfo n = some i → srcClass s.dev n = i.init) ∧ s.dev.aon.coll.fenced = []
    ∧ s.dev.aon.pwr.cap = 0x06401464#32 ∧ s.dev.aon.pwr.policy = 0xF80A0108#32 ∧ s.dev.aon.pwr.pack = 0xB40A0618#32
    ∧ (∀ n, (s.dev.dpll n).st = .freeRun ∧ (s.dev.dpll n).input = 0x1F) ∧ (∀ k, (s.dev.core k).running = false ∧ (s.dev.core k).remap = true)
    ∧ s.dev.fab.boot.stage = 0 ∧ s.dev.fab.boot.running = false ∧ s.dev.aon.arbStep ≤ 128
    ∧ (∀ p, s.dev.port p = none) ∧ (∀ n, s.dev.trib n = none) ∧ (∀ n, s.dev.pg n = none)
    ∧ (∀ f, (s.dev.fifo f).last = 0xB700000000#40 ∧ (s.dev.fifo f).entries = [])

/-- The frame count is 0 at phase 0 after the AON power-on reset; every other command leaves it untouched but DFE_FRAME,
which counts one (02 R37). -/
def Obligations.FrameCount : Prop :=
  (∀ cause pins (s : State), (s.dev.aon.snowdrop = false ∨ cause ≠ .porPin) → ∃ d,
      exec (.aonPowerOnReset cause pins) s = .next { clock := { e := 0, phase := 0 }, dev := d, pending := s.pending })
  ∧ (∀ s : State, ∃ d, exec .dfeFrame s
      = .next { clock := { e := s.clock.e + 1, phase := 0 }, dev := d, pending := s.pending })
  ∧ (∀ (c : Instr) (s s' : State), c ≠ .dfeFrame → (∀ cause pins, c ≠ .aonPowerOnReset cause pins) →
      exec c s = .next s' → s'.clock = s.clock)

/-- Whatever the command, the rest of the queue stays, no command is refused, and none but RAIL_SAMPLE stops the model; the ticks to a frame's end are a
DFE_FRAME; DFE_FRAME changes only device time, the frame times of Ethernet ports and the overhead frames that FlexE groups
have sent (02 R35, R37, R41-R43; log entry 1). -/
def Obligations.TimeAndQueue : Prop :=
  (∀ (c : Instr) (s s' : State), exec c s = .next s' → s'.pending = s.pending)
  ∧ (∀ (c : Instr) (s : State) (r : Refusal), exec c s ≠ .refused r)
  ∧ (∀ (c : Instr) (s : State) (f : Fault), exec c s = .fault f → ∃ x, c = .railSample x)
  ∧ (∀ s : State, ∃ d, exec .dfeFrame s = .next { clock := { e := s.clock.e + 1, phase := 0 }, dev := d, pending := s.pending }
      ∧ d.aon = s.dev.aon ∧ d.fab = { s.dev.fab with ports := d.fab.ports }
      ∧ ∀ p x, s.dev.port p = some x → isEth x.typ = false → isFlexe x.typ = false → d.port p = some x)
  ∧ (∀ (s : State) (n : Nat), n + s.clock.phase.toNat = 32768 → Nat.repeat tick n s = nextFrame s)

/-- In standby only what AON holds acts: any other command leaves the state as it is. No step ends standby but that of a
reset or a wake: from every state in standby whose queue holds neither, a step leads to such a state again
(14 R331; 19 R436). -/
def Obligations.StandbyHolds : Prop :=
  (∀ (c : Instr) (s : State), s.dev.aon.standby = true → aonActs c = false → exec c s = .next s)
  ∧ (∀ s s' : State, s.dev.aon.standby = true → (∀ c ∈ s.pending, leavesStandby c = false) → step s = .next s' →
      s'.dev.aon.standby = true ∧ ∀ c ∈ s'.pending, leavesStandby c = false)

/-- Only the removal of AON power ends Snowdrop: no other command does, neither POR_N, a system reset nor a wake has an
effect, and a further event of a source only adds to its total. Firmware and what the rules say stops do nothing
(18 R427, R428). -/
def Obligations.SnowdropHolds : Prop :=
  ∀ s : State, s.dev.aon.snowdrop = true →
    (∀ (c : Instr) (s' : State), (∀ cause pins, c = .aonPowerOnReset cause pins → cause = .porPin) →
        exec c s = .next s' → s'.dev.aon.snowdrop = true)
    ∧ (∀ cause pins, cause ≠ .porPin → ∃ s', exec (.aonPowerOnReset cause pins) s = .next s' ∧ s'.dev.aon.snowdrop = false)
    ∧ (∀ c : Instr, stopsInSnowdrop c = true → exec c s = .next s)
    ∧ (∀ pins, exec (.aonPowerOnReset .porPin pins) s = .next s)
    ∧ (∀ b, exec (.systemReset b) s = .next s ∧ exec (.wakeN b) s = .next s ∧ exec (.i2cWakeCommand b) s = .next s)
    ∧ (∀ n i detail, srcInfo n = some i → fault n detail s.clock.now s.dev
        = s.dev.setSrc n { s.dev.src n with total := (s.dev.src n).total + 1 })

/-- The one-time programmable memory: the anti-rollback step stays within its 128 steps and never falls, and a revoked key
slot stays revoked, at every step from every state (19 R444). -/
def Obligations.AntiRollbackKept : Prop :=
  ∀ s s' : State, s.dev.aon.arbStep ≤ 128 → step s = .next s' →
    s'.dev.aon.arbStep ≤ 128 ∧ s.dev.aon.arbStep ≤ s'.dev.aon.arbStep ∧ ∀ k ∈ s.dev.aon.revoked, k ∈ s'.dev.aon.revoked
end

