-- ==== Sys2Proof/Laws/Tables.lean ====
section
/-!
SUPPORT. Laws of tables and of the flash: a read after a write, other entries unchanged, the canonical form kept.
-/
namespace Sys2Proof.Machine

@[simp] theorem tget_tput_self {α : Type} (t : Tbl α) (n : Nat) (v : α) : tget (tput t n v) n = some v := by
  induction t with
  | nil => simp [tput, tget]
  | cons e r ih =>
    obtain ⟨k, w⟩ := e
    simp only [tput]
    split
    · simp [tget]
    · split
      · simp [tget]
      · rename_i h1 h2; simp [tget, Ne.symm h2, ih]

theorem tget_tput_ne {α : Type} (t : Tbl α) {n m : Nat} (v : α) (h : m ≠ n) : tget (tput t n v) m = tget t m := by
  induction t with
  | nil => simp [tput, tget, Ne.symm h]
  | cons e r ih =>
    obtain ⟨k, w⟩ := e
    simp only [tput]
    split
    · simp [tget, Ne.symm h]
    · split
      · rename_i h1 h2; subst h2; simp [tget, Ne.symm h]
      · simp [tget, ih]

theorem tget_tput {α : Type} (t : Tbl α) (n m : Nat) (v : α) :
    tget (tput t n v) m = if m = n then some v else tget t m := by
  split
  · rename_i h; subst h; simp
  · rename_i h; exact tget_tput_ne t v h

@[simp] theorem tgetD_tput_self {α : Type} (t : Tbl α) (n : Nat) (v d : α) : tgetD (tput t n v) n d = v := by
  simp [tgetD]

theorem tgetD_tput_ne {α : Type} (t : Tbl α) {n m : Nat} (v d : α) (h : m ≠ n) :
    tgetD (tput t n v) m d = tgetD t m d := by simp [tgetD, tget_tput_ne t v h]

@[simp] theorem tgetD_tmod_self {α : Type} (t : Tbl α) (n : Nat) (d : α) (f : α → α) :
    tgetD (tmod t n d f) n d = f (tgetD t n d) := by simp [tmod]

theorem tgetD_tmod_ne {α : Type} (t : Tbl α) {n m : Nat} (d e : α) (f : α → α) (h : m ≠ n) :
    tgetD (tmod t n d f) m e = tgetD t m e := by simp [tmod, tgetD_tput_ne _ _ _ h]

theorem tgetD_tmod {α : Type} (t : Tbl α) (n m : Nat) (d : α) (f : α → α) :
    tgetD (tmod t n d f) m d = if m = n then f (tgetD t n d) else tgetD t m d := by
  split
  · rename_i h; subst h; simp
  · rename_i h; exact tgetD_tmod_ne t d d f h

theorem tget_tupd {α : Type} (t : Tbl α) (n m : Nat) (f : α → α) :
    tget (tupd t n f) m = if m = n then (tget t n).map f else tget t m := by
  unfold tupd
  split
  · rename_i v hv; rw [tget_tput, hv]; rfl
  · rename_i hn; split
    · rename_i h; subst h; simp [hn]
    · rfl

theorem tget_tdel_self {α : Type} (t : Tbl α) (n : Nat) : tget (tdel t n) n = none := by
  induction t with
  | nil => rfl
  | cons e r ih =>
    obtain ⟨k, w⟩ := e
    by_cases h : k = n
    · subst h; simpa [tdel] using ih
    · simp only [tdel] at ih; simp [tdel, tget, h, ih]

/-! ### Rising keys -/

/-- Every key of a table is above a bound. -/
def keysAbove {α : Type} (k : Nat) (t : Tbl α) : Prop := ∀ e ∈ t, k < e.1

theorem wf_cons {α : Type} (k : Nat) (v : α) (t : Tbl α) :
    Tbl.wf ((k, v) :: t) = true ↔ keysAbove k t ∧ Tbl.wf t = true := by
  induction t generalizing k v with
  | nil => simp [Tbl.wf, keysAbove]
  | cons e r ih =>
    obtain ⟨j, w⟩ := e
    simp only [Tbl.wf, Bool.and_eq_true, decide_eq_true_eq]
    constructor
    · rintro ⟨h1, h2⟩
      refine ⟨?_, h2⟩
      intro e he
      rcases List.mem_cons.1 he with h | h
      · subst h; exact h1
      · exact Nat.lt_trans h1 (((ih j w).1 h2).1 e h)
    · rintro ⟨h1, h2⟩
      exact ⟨h1 (j, w) (by simp), h2⟩

theorem keysAbove_tput {α : Type} {k n : Nat} (v : α) {t : Tbl α} (h : keysAbove k t) (hn : k < n) :
    keysAbove k (tput t n v) := by
  induction t with
  | nil => intro e he; simp [tput] at he; subst he; exact hn
  | cons e r ih =>
    obtain ⟨j, w⟩ := e
    have hr : keysAbove k r := fun e he => h e (by simp [he])
    have hj : k < j := h (j, w) (by simp)
    simp only [tput]
    split
    · intro e he
      rcases List.mem_cons.1 he with h' | h'
      · subst h'; exact hn
      · exact h e h'
    · split
      · intro e he
        rcases List.mem_cons.1 he with h' | h'
        · subst h'; exact hn
        · exact hr e h'
      · intro e he
        rcases List.mem_cons.1 he with h' | h'
        · subst h'; exact hj
        · exact ih hr e h'

/-- Setting an entry keeps the keys rising. -/
theorem wf_tput {α : Type} (t : Tbl α) (n : Nat) (v : α) (h : Tbl.wf t = true) : Tbl.wf (tput t n v) = true := by
  induction t with
  | nil => rfl
  | cons e r ih =>
    obtain ⟨j, w⟩ := e
    have hw := (wf_cons j w r).1 h
    simp only [tput]
    split
    · rename_i hlt
      refine (wf_cons _ _ _).2 ⟨?_, h⟩
      intro e he
      rcases List.mem_cons.1 he with h' | h'
      · subst h'; exact hlt
      · exact Nat.lt_trans hlt (hw.1 e h')
    · split
      · rename_i _ he; subst he; exact (wf_cons _ _ _).2 hw
      · rename_i h1 h2
        exact (wf_cons _ _ _).2 ⟨keysAbove_tput v hw.1 (by omega), ih hw.2⟩

theorem wf_tmod {α : Type} (t : Tbl α) (n : Nat) (d : α) (f : α → α) (h : Tbl.wf t = true) :
    Tbl.wf (tmod t n d f) = true := wf_tput t n _ h

theorem wf_tupd {α : Type} (t : Tbl α) (n : Nat) (f : α → α) (h : Tbl.wf t = true) : Tbl.wf (tupd t n f) = true := by
  unfold tupd; split
  · exact wf_tput t n _ h
  · exact h

theorem wf_filter {α : Type} (t : Tbl α) (p : Nat × α → Bool) (h : Tbl.wf t = true) : Tbl.wf (t.filter p) = true := by
  induction t with
  | nil => rfl
  | cons e r ih =>
    obtain ⟨j, w⟩ := e
    have hw := (wf_cons j w r).1 h
    simp only [List.filter]
    split
    · exact (wf_cons _ _ _).2 ⟨fun e he => hw.1 e ((List.mem_filter.1 he).1), ih hw.2⟩
    · exact ih hw.2

theorem wf_tdel {α : Type} (t : Tbl α) (n : Nat) (h : Tbl.wf t = true) : Tbl.wf (tdel t n) = true := wf_filter t _ h

/-! ### Flash -/

@[simp] theorem flashGet_put_self (m : List (Nat × Octet)) (n : Nat) (v : Octet) (h : Memory.wf m = true) :
    flashGet (flashPut m n v) n = v := by
  induction m with
  | nil => simp only [flashPut]; split <;> simp_all [flashGet]
  | cons e r ih =>
    obtain ⟨k, w⟩ := e
    have hw : Memory.wf r = true := by
      cases r with
      | nil => rfl
      | cons a b => simp only [Memory.wf, Bool.and_eq_true] at h; exact h.2
    have hab : ∀ e ∈ r, k < e.1 := by
      clear ih
      induction r generalizing k w with
      | nil => simp
      | cons a b ihb =>
        simp only [Memory.wf, Bool.and_eq_true, decide_eq_true_eq] at h
        intro e he
        rcases List.mem_cons.1 he with h' | h'
        · subst h'; exact h.1.2
        · have hb : Memory.wf b = true := by
            cases b with
            | nil => rfl
            | cons x y => have := h.2; simp only [Memory.wf, Bool.and_eq_true] at this; exact this.2
          have := ihb a.1 a.2 h.2 hb e h'
          omega
    have hnone : ∀ (l : List (Nat × Octet)), (∀ e ∈ l, n < e.1) → flashGet l n = 0xFF := by
      intro l hl
      induction l with
      | nil => rfl
      | cons a b ihl =>
        obtain ⟨x, y⟩ := a
        have hx : n < x := hl (x, y) (by simp)
        have : x ≠ n := by omega
        simp [flashGet, this, ihl (fun e he => hl e (by simp [he]))]
    simp only [flashPut]
    split
    · rename_i hlt
      split
      · rename_i hv
        have hk : k ≠ n := by omega
        rw [hv]
        simpa [flashGet, hk] using hnone r (fun e he => Nat.lt_trans hlt (hab e he))
      · simp [flashGet]
    · split
      · rename_i _ he
        subst he
        split
        · rename_i hv; rw [hv]; exact hnone r hab
        · simp [flashGet]
      · rename_i h1 h2
        have hk : k ≠ n := fun h' => h2 h'.symm
        simp [flashGet, hk, ih hw]

theorem flashGet_put_ne (m : List (Nat × Octet)) {n a : Nat} (v : Octet) (h : a ≠ n) :
    flashGet (flashPut m n v) a = flashGet m a := by
  induction m with
  | nil => simp only [flashPut]; split <;> simp_all [flashGet, Ne.symm h]
  | cons e r ih =>
    obtain ⟨k, w⟩ := e
    simp only [flashPut]
    split
    · split
      · rfl
      · simp [flashGet, Ne.symm h]
    · split
      · rename_i _ he
        subst he
        split
        · simp [flashGet, Ne.symm h]
        · simp [flashGet, Ne.symm h]
      · simp [flashGet, ih]

/-- The canonical form as a fact about all octets listed. -/
theorem memory_wf_cons (k : Nat) (v : Octet) (m : List (Nat × Octet)) :
    Memory.wf ((k, v) :: m) = true ↔ v ≠ 0xFF ∧ (∀ e ∈ m, k < e.1) ∧ Memory.wf m = true := by
  induction m generalizing k v with
  | nil => simp [Memory.wf]
  | cons e r ih =>
    obtain ⟨j, w⟩ := e
    have hstep : Memory.wf ((k, v) :: (j, w) :: r) = true ↔ v ≠ 0xFF ∧ k < j ∧ Memory.wf ((j, w) :: r) = true := by
      simp [Memory.wf, and_assoc]
    rw [hstep]
    constructor
    · rintro ⟨h1, h2, h3⟩
      refine ⟨h1, ?_, h3⟩
      intro e he
      rcases List.mem_cons.1 he with h' | h'
      · subst h'; exact h2
      · exact Nat.lt_trans h2 (((ih j w).1 h3).2.1 e h')
    · rintro ⟨h1, h2, h3⟩
      exact ⟨h1, h2 (j, w) (by simp), h3⟩

theorem flashPut_above {k n : Nat} (v : Octet) {m : List (Nat × Octet)} (h : ∀ e ∈ m, k < e.1) (hn : k < n) :
    ∀ e ∈ flashPut m n v, k < e.1 := by
  induction m with
  | nil =>
    intro e he
    simp only [flashPut] at he
    split at he
    · simp at he
    · simp at he; subst he; exact hn
  | cons e r ih =>
    obtain ⟨j, w⟩ := e
    have hr : ∀ e ∈ r, k < e.1 := fun e he => h e (by simp [he])
    have hj : k < j := h (j, w) (by simp)
    intro e he
    simp only [flashPut] at he
    split at he
    · split at he
      · exact h e he
      · rcases List.mem_cons.1 he with h' | h'
        · subst h'; exact hn
        · exact h e h'
    · split at he
      · split at he
        · exact hr e he
        · rcases List.mem_cons.1 he with h' | h'
          · subst h'; exact hn
          · exact hr e h'
      · rcases List.mem_cons.1 he with h' | h'
        · subst h'; exact hj
        · exact ih hr e h'

/-- A store keeps the flash canonical. -/
theorem flashPut_wf (m : List (Nat × Octet)) (n : Nat) (v : Octet) (h : Memory.wf m = true) :
    Memory.wf (flashPut m n v) = true := by
  induction m with
  | nil => simp only [flashPut]; split <;> simp_all [Memory.wf]
  | cons e r ih =>
    obtain ⟨j, w⟩ := e
    have hw := (memory_wf_cons j w r).1 h
    simp only [flashPut]
    split
    · rename_i hlt
      split
      · exact h
      · rename_i hv
        refine (memory_wf_cons _ _ _).2 ⟨hv, ?_, h⟩
        intro e he
        rcases List.mem_cons.1 he with h' | h'
        · subst h'; exact hlt
        · exact Nat.lt_trans hlt (hw.2.1 e h')
    · split
      · rename_i _ he
        subst he
        split
        · exact hw.2.2
        · rename_i hv; exact (memory_wf_cons _ _ _).2 ⟨hv, hw.2.1, hw.2.2⟩
      · rename_i h1 h2
        exact (memory_wf_cons _ _ _).2 ⟨hw.1, flashPut_above v hw.2.1 (by omega), ih hw.2.2⟩

theorem memory_wf_filter (m : List (Nat × Octet)) (p : Nat × Octet → Bool) (h : Memory.wf m = true) :
    Memory.wf (m.filter p) = true := by
  induction m with
  | nil => rfl
  | cons e r ih =>
    obtain ⟨j, w⟩ := e
    have hw := (memory_wf_cons j w r).1 h
    simp only [List.filter]
    split
    · exact (memory_wf_cons _ _ _).2 ⟨hw.1, fun e he => hw.2.1 e ((List.mem_filter.1 he).1), ih hw.2.2⟩
    · exact ih hw.2.2

/-- Storing octets keeps the flash canonical. -/
theorem flashWrite_wf (os : List Octet) (m : List (Nat × Octet)) (a : Nat) (h : Memory.wf m = true) :
    Memory.wf (flashWrite m a os) = true := by
  induction os generalizing m a with
  | nil => exact h
  | cons o r ih => exact ih _ _ (flashPut_wf m a o h)

/-- Erasing and storing keeps the flash canonical. -/
theorem flashProgram_wf (m : List (Nat × Octet)) (a n : Nat) (os : List Octet) (h : Memory.wf m = true) :
    Memory.wf (flashProgram m a n os) = true := flashWrite_wf os _ a (memory_wf_filter m _ h)

/-- Octets outside the octets stored keep their value. -/
theorem flashGet_write_out (os : List Octet) (m : List (Nat × Octet)) (a b : Nat)
    (h : b < a ∨ a + os.length ≤ b) : flashGet (flashWrite m a os) b = flashGet m b := by
  induction os generalizing m a with
  | nil => rfl
  | cons o r ih =>
    simp only [List.length_cons] at h
    rw [flashWrite, ih _ _ (by omega), flashGet_put_ne _ _ (by omega)]

end Sys2Proof.Machine
end

