-- ==== Sys2Proof/Laws/State.lean ====
section
/-!
SUPPORT. What each named update of the device leaves in each part of it, by rfl; a record update is never unfolded
later. Each updater changes one part: of `Aon` or of `Fab`.
-/
namespace Sys2Proof.Machine

@[simp] theorem onDev_dev (s : State) (f : Op) : (s.onDev f).dev = f s.clock.now s.dev := rfl
@[simp] theorem onDev_clock (s : State) (f : Op) : (s.onDev f).clock = s.clock := rfl
@[simp] theorem onDev_pending (s : State) (f : Op) : (s.onDev f).pending = s.pending := rfl
@[simp] theorem run_eq (s : State) (f : Op) : s.run f = .next (s.onDev f) := rfl

@[simp] theorem onAon_aon (d : Dev) (f : Aon → Aon) : (d.onAon f).aon = f d.aon := rfl
@[simp] theorem onAon_fab (d : Dev) (f : Aon → Aon) : (d.onAon f).fab = d.fab := rfl
@[simp] theorem onFab_aon (d : Dev) (f : Fab → Fab) : (d.onFab f).aon = d.aon := rfl
@[simp] theorem onFab_fab (d : Dev) (f : Fab → Fab) : (d.onFab f).fab = f d.fab := rfl
@[simp] theorem onColl_aon (d : Dev) (f : Coll → Coll) : (d.onColl f).aon = { d.aon with coll := f d.aon.coll } := rfl
@[simp] theorem onColl_fab (d : Dev) (f : Coll → Coll) : (d.onColl f).fab = d.fab := rfl
@[simp] theorem onFmn_aon (d : Dev) (f : Recorder → Recorder) : (d.onFmn f).aon = { d.aon with fmn := f d.aon.fmn } := rfl
@[simp] theorem onFmn_fab (d : Dev) (f : Recorder → Recorder) : (d.onFmn f).fab = d.fab := rfl
@[simp] theorem onClk_aon (d : Dev) (f : Clk → Clk) : (d.onClk f).aon = { d.aon with clk := f d.aon.clk } := rfl
@[simp] theorem onClk_fab (d : Dev) (f : Clk → Clk) : (d.onClk f).fab = d.fab := rfl
@[simp] theorem onPwr_aon (d : Dev) (f : PwrRegs → PwrRegs) : (d.onPwr f).aon = { d.aon with pwr := f d.aon.pwr } := rfl
@[simp] theorem onPwr_fab (d : Dev) (f : PwrRegs → PwrRegs) : (d.onPwr f).fab = d.fab := rfl
@[simp] theorem onGov_aon (d : Dev) (f : Gov → Gov) : (d.onGov f).aon = { d.aon with gov := f d.aon.gov } := rfl
@[simp] theorem onGov_fab (d : Dev) (f : Gov → Gov) : (d.onGov f).fab = d.fab := rfl
@[simp] theorem onSense_aon (d : Dev) (f : Sense → Sense) : (d.onSense f).aon = { d.aon with sense := f d.aon.sense } := rfl
@[simp] theorem onSense_fab (d : Dev) (f : Sense → Sense) : (d.onSense f).fab = d.fab := rfl
@[simp] theorem onIrq_aon (d : Dev) (f : Irq → Irq) : (d.onIrq f).aon = d.aon := rfl
@[simp] theorem onIrq_fab (d : Dev) (f : Irq → Irq) : (d.onIrq f).fab = { d.fab with irq := f d.fab.irq } := rfl
@[simp] theorem onBoot_aon (d : Dev) (f : Boot → Boot) : (d.onBoot f).aon = d.aon := rfl
@[simp] theorem onBoot_fab (d : Dev) (f : Boot → Boot) : (d.onBoot f).fab = { d.fab with boot := f d.fab.boot } := rfl
@[simp] theorem onFw_aon (d : Dev) (f : Fw → Fw) : (d.onFw f).aon = d.aon := rfl
@[simp] theorem onFw_fab (d : Dev) (f : Fw → Fw) : (d.onFw f).fab = { d.fab with fw := f d.fab.fw } := rfl
@[simp] theorem onPd_aon (d : Dev) (f : Pd → Pd) : (d.onPd f).aon = d.aon := rfl
@[simp] theorem onPd_fab (d : Dev) (f : Pd → Pd) : (d.onPd f).fab = { d.fab with pd := f d.fab.pd } := rfl
@[simp] theorem onPm_aon (d : Dev) (f : Pm → Pm) : (d.onPm f).aon = d.aon := rfl
@[simp] theorem onPm_fab (d : Dev) (f : Pm → Pm) : (d.onPm f).fab = { d.fab with pm := f d.fab.pm } := rfl
@[simp] theorem onClkCfg_aon (d : Dev) (f : ClkCfg → ClkCfg) : (d.onClkCfg f).aon = d.aon := rfl
@[simp] theorem onClkCfg_fab (d : Dev) (f : ClkCfg → ClkCfg) : (d.onClkCfg f).fab = { d.fab with clk := f d.fab.clk } := rfl
@[simp] theorem setBus_aon (d : Dev) (w : Word) (e : Bool) : (d.setBus w e).aon = d.aon := rfl
@[simp] theorem setBus_fab (d : Dev) (w : Word) (e : Bool) : (d.setBus w e).fab = { d.fab with bus := ⟨w, e⟩ } := rfl
@[simp] theorem modLane_aon (d : Dev) (n : Nat) (f : Lane → Lane) : (d.modLane n f).aon = d.aon := rfl
@[simp] theorem modLane_fab (d : Dev) (n : Nat) (f : Lane → Lane) : (d.modLane n f).fab = { d.fab with lanes := tmod d.fab.lanes n {} f } := rfl
@[simp] theorem modPort_aon (d : Dev) (n : Nat) (f : Port → Port) : (d.modPort n f).aon = d.aon := rfl
@[simp] theorem modPort_fab (d : Dev) (n : Nat) (f : Port → Port) : (d.modPort n f).fab = { d.fab with ports := tupd d.fab.ports n f } := rfl
@[simp] theorem modTrib_aon (d : Dev) (n : Nat) (f : Trib → Trib) : (d.modTrib n f).aon = d.aon := rfl
@[simp] theorem modTrib_fab (d : Dev) (n : Nat) (f : Trib → Trib) : (d.modTrib n f).fab = { d.fab with tribs := tupd d.fab.tribs n f } := rfl
@[simp] theorem modPg_aon (d : Dev) (n : Nat) (f : Pg → Pg) : (d.modPg n f).aon = d.aon := rfl
@[simp] theorem modPg_fab (d : Dev) (n : Nat) (f : Pg → Pg) : (d.modPg n f).fab = { d.fab with pgs := tupd d.fab.pgs n f } := rfl
@[simp] theorem modCore_aon (d : Dev) (n : Nat) (f : Core → Core) : (d.modCore n f).aon = d.aon := rfl
@[simp] theorem modCore_fab (d : Dev) (n : Nat) (f : Core → Core) : (d.modCore n f).fab = { d.fab with cores := tmod d.fab.cores n {} f } := rfl
@[simp] theorem modLayer_aon (d : Dev) (n : Nat) (f : Layer → Layer) : (d.modLayer n f).aon = d.aon := rfl
@[simp] theorem modLayer_fab (d : Dev) (n : Nat) (f : Layer → Layer) : (d.modLayer n f).fab = { d.fab with layers := tmod d.fab.layers n {} f } := rfl
@[simp] theorem modSched_aon (d : Dev) (n : Nat) (f : Sched → Sched) : (d.modSched n f).aon = d.aon := rfl
@[simp] theorem modSched_fab (d : Dev) (n : Nat) (f : Sched → Sched) : (d.modSched n f).fab = { d.fab with scheds := tmod d.fab.scheds n {} f } := rfl
@[simp] theorem modChan_aon (d : Dev) (n : Nat) (f : Chan → Chan) : (d.modChan n f).aon = d.aon := rfl
@[simp] theorem modChan_fab (d : Dev) (n : Nat) (f : Chan → Chan) : (d.modChan n f).fab = { d.fab with mbx := { d.fab.mbx with chans := tmod d.fab.mbx.chans n {} f } } := rfl
@[simp] theorem modDpll_aon (d : Dev) (n : Nat) (f : Dpll → Dpll) : (d.modDpll n f).aon = { d.aon with clk := { d.aon.clk with dplls := tmod d.aon.clk.dplls n {} f } } := rfl
@[simp] theorem modDpll_fab (d : Dev) (n : Nat) (f : Dpll → Dpll) : (d.modDpll n f).fab = d.fab := rfl
@[simp] theorem modSlot_aon (d : Dev) (n : Nat) (f : Slot → Slot) : (d.modSlot n f).aon = { d.aon with clk := { d.aon.clk with slots := tmod d.aon.clk.slots n {} f } } := rfl
@[simp] theorem modSlot_fab (d : Dev) (n : Nat) (f : Slot → Slot) : (d.modSlot n f).fab = d.fab := rfl
@[simp] theorem setSlice_aon (d : Dev) (n : Nat) (x : Dom) : (d.setSlice n x).aon = d.aon := rfl
@[simp] theorem setSlice_fab (d : Dev) (n : Nat) (x : Dom) : (d.setSlice n x).fab = { d.fab with pd := { d.fab.pd with slices := tput d.fab.pd.slices n x } } := rfl
@[simp] theorem modFifo_aon (d : Dev) (n : FifoId) (f : Fifo → Fifo) : (d.modFifo n f).aon = d.aon := rfl
@[simp] theorem modFifo_fab (d : Dev) (n : FifoId) (f : Fifo → Fifo) : (d.modFifo n f).fab = { d.fab with fifos := tmod d.fab.fifos (fifoKey n) {} f } := rfl
@[simp] theorem onFlash_aon (d : Dev) (f : List (Nat × Octet) → List (Nat × Octet)) : (d.onFlash f).aon = { d.aon with flash := { d.aon.flash with mem := f d.aon.flash.mem } } := rfl
@[simp] theorem onFlash_fab (d : Dev) (f : List (Nat × Octet) → List (Nat × Octet)) : (d.onFlash f).fab = d.fab := rfl
@[simp] theorem used_aon (d : Dev) : (d.used).aon = { d.aon with fresh := d.aon.fresh + 1 } := rfl
@[simp] theorem used_fab (d : Dev) : (d.used).fab = d.fab := rfl

/-! ### An entry after its change -/

@[simp] theorem lane_modLane_self (d : Dev) (n : Nat) (f : Lane → Lane) : (d.modLane n f).lane n = f (d.lane n) := by simp [Dev.lane, Dev.modLane]
theorem lane_modLane_ne (d : Dev) {n m : Nat} (f : Lane → Lane) (h : m ≠ n) : (d.modLane n f).lane m = d.lane m := by
  simp [Dev.lane, Dev.modLane, tgetD_tmod_ne _ _ _ _ h]
@[simp] theorem layer_modLayer_self (d : Dev) (n : Nat) (f : Layer → Layer) : (d.modLayer n f).layer n = f (d.layer n) := by simp [Dev.layer, Dev.modLayer]
theorem layer_modLayer_ne (d : Dev) {n m : Nat} (f : Layer → Layer) (h : m ≠ n) : (d.modLayer n f).layer m = d.layer m := by
  simp [Dev.layer, Dev.modLayer, tgetD_tmod_ne _ _ _ _ h]
@[simp] theorem sched_modSched_self (d : Dev) (n : Nat) (f : Sched → Sched) : (d.modSched n f).sched n = f (d.sched n) := by simp [Dev.sched, Dev.modSched]
theorem sched_modSched_ne (d : Dev) {n m : Nat} (f : Sched → Sched) (h : m ≠ n) : (d.modSched n f).sched m = d.sched m := by
  simp [Dev.sched, Dev.modSched, tgetD_tmod_ne _ _ _ _ h]
@[simp] theorem core_modCore_self (d : Dev) (n : Nat) (f : Core → Core) : (d.modCore n f).core n = f (d.core n) := by simp [Dev.core, Dev.modCore]
theorem core_modCore_ne (d : Dev) {n m : Nat} (f : Core → Core) (h : m ≠ n) : (d.modCore n f).core m = d.core m := by
  simp [Dev.core, Dev.modCore, tgetD_tmod_ne _ _ _ _ h]
@[simp] theorem chan_modChan_self (d : Dev) (n : Nat) (f : Chan → Chan) : (d.modChan n f).chan n = f (d.chan n) := by simp [Dev.chan, Dev.modChan]
theorem chan_modChan_ne (d : Dev) {n m : Nat} (f : Chan → Chan) (h : m ≠ n) : (d.modChan n f).chan m = d.chan m := by
  simp [Dev.chan, Dev.modChan, tgetD_tmod_ne _ _ _ _ h]
@[simp] theorem dpll_modDpll_self (d : Dev) (n : Nat) (f : Dpll → Dpll) : (d.modDpll n f).dpll n = f (d.dpll n) := by simp [Dev.dpll, Dev.modDpll]
theorem dpll_modDpll_ne (d : Dev) {n m : Nat} (f : Dpll → Dpll) (h : m ≠ n) : (d.modDpll n f).dpll m = d.dpll m := by
  simp [Dev.dpll, Dev.modDpll, tgetD_tmod_ne _ _ _ _ h]
@[simp] theorem slot_modSlot_self (d : Dev) (n : Nat) (f : Slot → Slot) : (d.modSlot n f).slot n = f (d.slot n) := by simp [Dev.slot, Dev.modSlot]
theorem slot_modSlot_ne (d : Dev) {n m : Nat} (f : Slot → Slot) (h : m ≠ n) : (d.modSlot n f).slot m = d.slot m := by
  simp [Dev.slot, Dev.modSlot, tgetD_tmod_ne _ _ _ _ h]
theorem port_modPort (d : Dev) (n m : Nat) (f : Port → Port) : (d.modPort n f).port m = if m = n then (d.port n).map f else d.port m := by
  simp [Dev.port, Dev.modPort, tget_tupd]
theorem trib_modTrib (d : Dev) (n m : Nat) (f : Trib → Trib) : (d.modTrib n f).trib m = if m = n then (d.trib n).map f else d.trib m := by
  simp [Dev.trib, Dev.modTrib, tget_tupd]
theorem pg_modPg (d : Dev) (n m : Nat) (f : Pg → Pg) : (d.modPg n f).pg m = if m = n then (d.pg n).map f else d.pg m := by
  simp [Dev.pg, Dev.modPg, tget_tupd]

@[simp] theorem fifo_modFifo_self (d : Dev) (n : FifoId) (f : Fifo → Fifo) : (d.modFifo n f).fifo n = f (d.fifo n) := by
  simp [Dev.fifo, Dev.modFifo]

end Sys2Proof.Machine
end

