-- ==== Sys2Proof/Laws/Mailbox.lean ====
section
/-!
SUPPORT. What interrupts, posts, acknowledges and records can change: the mailboxes, the interrupt block and the
recorder, and in a channel the fields each names.
-/
namespace Sys2Proof.Safety
open Machine

theorem OnlyTalk.refl (d : Dev) : OnlyTalk d d := ⟨rfl, rfl⟩

theorem OnlyTalk.trans {a b c : Dev} (h : OnlyTalk a b) (k : OnlyTalk b c) : OnlyTalk a c := by
  obtain ⟨h1, h2⟩ := h
  obtain ⟨k1, k2⟩ := k
  exact ⟨by rw [k1, h1], by rw [k2, h2]⟩

end Sys2Proof.Safety

namespace Sys2Proof.Machine
open Safety

/-! ### Interrupts touch the interrupt block alone -/

theorem msixEvent_only (fn v : Nat) (d : Dev) : ∃ q, msixEvent fn v d = d.onIrq fun _ => q := by
  unfold msixEvent; dsimp only
  split
  · exact ⟨_, rfl⟩
  · split <;> exact ⟨_, rfl⟩

theorem irqLatch_only (b : Nat) (d : Dev) : ∃ q, irqLatch b d = d.onIrq fun _ => q := by
  unfold irqLatch; dsimp only
  split
  · obtain ⟨q, h⟩ := msixEvent_only 0 (23 - b) (d.onIrq fun q => { q with sts := q.sts.latch b })
    exact ⟨q, by rw [h]; rfl⟩
  · exact ⟨_, rfl⟩

theorem masterEvent_only (m v : Nat) (d : Dev) : ∃ q, masterEvent m v d = d.onIrq fun _ => q := by
  unfold masterEvent
  split
  · exact msixEvent_only _ _ _
  · split
    · exact msixEvent_only _ _ _
    · exact ⟨d.fab.irq, rfl⟩

theorem ackEvent_only (c : Nat) (d : Dev) : ∃ q, ackEvent c d = d.onIrq fun _ => q := by
  unfold ackEvent; dsimp only
  split
  · exact irqLatch_only _ _
  · exact masterEvent_only _ _ _

theorem postEvent_only (c : Nat) (d : Dev) : ∃ q, postEvent c d = d.onIrq fun _ => q := by
  unfold postEvent; dsimp only
  split
  · exact irqLatch_only _ _
  · exact masterEvent_only _ _ _

/-! ### OnlyTalk -/

theorem onlyTalk_onIrq (d : Dev) (f : Irq → Irq) : OnlyTalk d (d.onIrq f) := ⟨rfl, rfl⟩
theorem onlyTalk_onFmn (d : Dev) (f : Recorder → Recorder) : OnlyTalk d (d.onFmn f) := ⟨rfl, rfl⟩
theorem onlyTalk_modChan (d : Dev) (n : Nat) (f : Chan → Chan) : OnlyTalk d (d.modChan n f) := ⟨rfl, rfl⟩

theorem onlyTalk_irqLatch (b : Nat) (d : Dev) : OnlyTalk d (irqLatch b d) := by
  obtain ⟨q, h⟩ := irqLatch_only b d; rw [h]; exact onlyTalk_onIrq _ _
theorem onlyTalk_ackEvent (c : Nat) (d : Dev) : OnlyTalk d (ackEvent c d) := by
  obtain ⟨q, h⟩ := ackEvent_only c d; rw [h]; exact onlyTalk_onIrq _ _
theorem onlyTalk_postEvent (c : Nat) (d : Dev) : OnlyTalk d (postEvent c d) := by
  obtain ⟨q, h⟩ := postEvent_only c d; rw [h]; exact onlyTalk_onIrq _ _
theorem onlyTalk_endEpisode (c : Nat) (d : Dev) : OnlyTalk d (endEpisode c d) := by
  unfold endEpisode; dsimp only; split
  · exact OnlyTalk.trans (onlyTalk_modChan _ _ _) (onlyTalk_modChan _ _ _)
  · exact .refl d
theorem onlyTalk_startCross (c : Nat) (t : Time) (d : Dev) : OnlyTalk d (startCross c t d) := by
  unfold startCross; dsimp only; split
  · split
    · split
      · exact .refl d
      · exact onlyTalk_modChan _ _ _
    · split
      · exact .refl d
      · exact onlyTalk_modChan _ _ _
  · exact .refl d

theorem onlyTalk_acknowledge (c : Nat) (v : Word) (d : Dev) : OnlyTalk d (acknowledge c v d) := by
  unfold acknowledge; dsimp only; split
  · exact (OnlyTalk.trans (onlyTalk_modChan _ _ _) (onlyTalk_endEpisode _ _)).trans (onlyTalk_modChan _ _ _)
  · exact ((OnlyTalk.trans (onlyTalk_modChan _ _ _) (onlyTalk_endEpisode _ _)).trans (onlyTalk_modChan _ _ _)).trans
      (onlyTalk_ackEvent _ _)

theorem onlyTalk_addRecord (k s u : Nat) (t : Time) (e : List Word) (d : Dev) : OnlyTalk d (addRecord k s u t e d) := by
  unfold addRecord; dsimp only; split
  · exact .refl d
  · split
    · exact (onlyTalk_onFmn d _).trans ⟨by obtain ⟨q, h⟩ := irqLatch_only 19 ((d.onFmn fun r => { r with dropped := r.dropped + 1 }).onFmn fun r => { r with sts := r.sts.latch 21 }); unfold recLatch; rw [h]; rfl,
        by obtain ⟨q, h⟩ := irqLatch_only 19 ((d.onFmn fun r => { r with dropped := r.dropped + 1 }).onFmn fun r => { r with sts := r.sts.latch 21 }); unfold recLatch; rw [h]; rfl⟩
    · split <;> exact onlyTalk_onFmn _ _

theorem onlyTalk_sendOut (c : Nat) (k : OutKind) (ws : List Word) (d : Dev) : OnlyTalk d (sendOut c k ws d) :=
  onlyTalk_modChan _ _ _

/-! ### Channels -/

@[simp] theorem chan_onIrq (d : Dev) (f : Irq → Irq) (c : Nat) : (d.onIrq f).chan c = d.chan c := rfl
@[simp] theorem chan_onFmn (d : Dev) (f : Recorder → Recorder) (c : Nat) : (d.onFmn f).chan c = d.chan c := rfl
@[simp] theorem chan_ackEvent (c e : Nat) (d : Dev) : (ackEvent c d).chan e = d.chan e := by
  obtain ⟨q, h⟩ := ackEvent_only c d; rw [h]; rfl
@[simp] theorem chan_postEvent (c e : Nat) (d : Dev) : (postEvent c d).chan e = d.chan e := by
  obtain ⟨q, h⟩ := postEvent_only c d; rw [h]; rfl
@[simp] theorem chan_irqLatch (b e : Nat) (d : Dev) : (irqLatch b d).chan e = d.chan e := by
  obtain ⟨q, h⟩ := irqLatch_only b d; rw [h]; rfl
@[simp] theorem chan_addRecord (k s u : Nat) (t : Time) (e : List Word) (d : Dev) (c : Nat) :
    (addRecord k s u t e d).chan c = d.chan c := by
  unfold addRecord recLatch; dsimp only; split
  · rfl
  · split
    · simp
    · split <;> simp

/-- A change of one channel changes, of any channel, only what the change changes. -/
theorem chan_modChan (d : Dev) (n m : Nat) (f : Chan → Chan) :
    (d.modChan n f).chan m = if m = n then f (d.chan n) else d.chan m := by
  simp [Dev.chan, Dev.modChan, tgetD_tmod]

/-- The end of an episode touches the crossed-post timers alone. -/
theorem chan_endEpisode (c e : Nat) (d : Dev) :
    ∃ a b, (endEpisode c d).chan e = { d.chan e with crossTimer := a, crossDone := b } := by
  unfold endEpisode; dsimp only; split
  · by_cases hp : e = (d.chan c).bind.pair
    · by_cases hc : (d.chan c).bind.pair = c
      · exact ⟨none, false, by rw [chan_modChan, if_pos hp, chan_modChan, if_pos hc, hp, hc]⟩
      · exact ⟨none, false, by rw [chan_modChan, if_pos hp, chan_modChan, if_neg hc, hp]⟩
    · by_cases hc : e = c
      · exact ⟨none, false, by rw [chan_modChan, if_neg hp, chan_modChan, if_pos hc, hc]⟩
      · exact ⟨(d.chan e).crossTimer, (d.chan e).crossDone, by rw [chan_modChan, if_neg hp, chan_modChan, if_neg hc]⟩
  · exact ⟨_, _, rfl⟩

theorem chan_startCross (c e : Nat) (t : Time) (d : Dev) :
    ∃ a, (startCross c t d).chan e = { d.chan e with crossTimer := a } := by
  unfold startCross; dsimp only; split
  · split
    · split
      · exact ⟨_, rfl⟩
      · rw [chan_modChan]; split
        · rename_i h; subst h; exact ⟨_, rfl⟩
        · exact ⟨_, rfl⟩
    · split
      · exact ⟨_, rfl⟩
      · rw [chan_modChan]; split
        · rename_i h; subst h; exact ⟨_, rfl⟩
        · exact ⟨_, rfl⟩
  · exact ⟨_, rfl⟩

/-- An acknowledge that is not discarded: the channel is free and holds the word. -/
theorem chan_acknowledge_self (c : Nat) (v : Word) (d : Dev) (h : (d.chan c).orphan = false) :
    ∃ a b, (acknowledge c v d).chan c = { d.chan c with
      posted := false, taken := false, crossed := false, ack := v, ackValid := true, crossTimer := a, crossDone := b } := by
  obtain ⟨a, b, e⟩ := chan_endEpisode c c (d.modChan c fun x => { x with posted := false, taken := false, crossed := false })
  rw [chan_modChan, if_pos rfl] at e
  unfold acknowledge
  dsimp only
  rw [if_neg (by simp [h]), chan_ackEvent, chan_modChan, if_pos rfl, e]
  exact ⟨a, b, rfl⟩

theorem chan_acknowledge_ne (c e : Nat) (v : Word) (d : Dev) (h : e ≠ c) :
    ∃ a b, (acknowledge c v d).chan e = { d.chan e with crossTimer := a, crossDone := b } := by
  obtain ⟨a, b, k⟩ := chan_endEpisode c e (d.modChan c fun x => { x with posted := false, taken := false, crossed := false })
  rw [chan_modChan, if_neg h] at k
  unfold acknowledge
  dsimp only
  split
  · rw [chan_modChan, if_neg h, k]; exact ⟨a, b, rfl⟩
  · rw [chan_ackEvent, chan_modChan, if_neg h, k]; exact ⟨a, b, rfl⟩

/-- A post while the cluster serves: the channel is posted and its acknowledge gone. -/
theorem chan_post_self (c : Nat) (t : Time) (d : Dev) (h : d.aon.coll.clusterLost = false) (k : d.aon.snowdrop = false) :
    ∃ a w, (post c t d).chan c = { d.chan c with
      posted := true, ackValid := false, taken := false, crossed := false, crossTimer := a, waking := w } := by
  obtain ⟨a, e⟩ := chan_startCross c c t (d.modChan c fun x => { x with
    posted := true, ackValid := false, taken := false, crossed := false })
  rw [chan_modChan, if_pos rfl] at e
  unfold post
  simp only [modChan_aon, h, k, Bool.or_false, Bool.false_eq_true, if_false]
  split
  · rw [chan_modChan, if_pos rfl, chan_postEvent, e]; exact ⟨a, true, rfl⟩
  · rw [chan_postEvent, e]; exact ⟨a, _, rfl⟩

theorem chan_post_ne (c e : Nat) (t : Time) (d : Dev) (hne : e ≠ c)
    (h : d.aon.coll.clusterLost = false) (k : d.aon.snowdrop = false) :
    ∃ a, (post c t d).chan e = { d.chan e with crossTimer := a } := by
  obtain ⟨a, q⟩ := chan_startCross c e t (d.modChan c fun x => { x with
    posted := true, ackValid := false, taken := false, crossed := false })
  rw [chan_modChan, if_neg hne] at q
  unfold post
  simp only [modChan_aon, h, k, Bool.or_false, Bool.false_eq_true, if_false]
  split
  · rw [chan_modChan, if_neg hne, chan_postEvent, q]; exact ⟨a, rfl⟩
  · rw [chan_postEvent, q]; exact ⟨a, rfl⟩

theorem onlyTalk_post (c : Nat) (t : Time) (d : Dev) (h : d.aon.coll.clusterLost = false) (k : d.aon.snowdrop = false) :
    OnlyTalk d (post c t d) ∧ (post c t d).aon = d.aon := by
  have haon : ∀ d' : Dev, (postEvent c (startCross c t d')).aon = d'.aon := by
    intro d'
    obtain ⟨q, e⟩ := postEvent_only c (startCross c t d'); rw [e]
    unfold startCross; dsimp only
    split
    · split <;> split <;> rfl
    · rfl
  unfold post
  simp only [modChan_aon, h, k, Bool.or_false, Bool.false_eq_true, if_false]
  split
  · exact ⟨((OnlyTalk.trans (onlyTalk_modChan _ _ _) (onlyTalk_startCross _ _ _)).trans (onlyTalk_postEvent _ _)).trans
      (onlyTalk_modChan _ _ _), haon _⟩
  · exact ⟨(OnlyTalk.trans (onlyTalk_modChan _ _ _) (onlyTalk_startCross _ _ _)).trans (onlyTalk_postEvent _ _), haon _⟩

/-- A notification touches the notices of one channel alone. -/
theorem chan_noteRecord (m nk obj kind sub unit : Nat) (t : Time) (e : List Word) (d : Dev) (c : Nat) :
    ∃ n l, (noteRecord m nk obj kind sub unit t e d).chan c = { d.chan c with notes := n, lostNotes := l } := by
  unfold noteRecord; dsimp only
  split
  · rw [chan_addRecord]; exact ⟨_, _, rfl⟩
  · rename_i o _
    unfold sendOut; dsimp only
    rw [chan_modChan]
    split
    · rename_i h; subst h
      rw [chan_addRecord]; split <;> exact ⟨_, _, rfl⟩
    · rw [chan_addRecord]; exact ⟨_, _, rfl⟩

theorem onlyTalk_noteRecord (m nk obj kind sub unit : Nat) (t : Time) (e : List Word) (d : Dev) :
    OnlyTalk d (noteRecord m nk obj kind sub unit t e d) := by
  unfold noteRecord; dsimp only
  split
  · exact onlyTalk_addRecord _ _ _ _ _ _
  · exact (onlyTalk_addRecord _ _ _ _ _ _).trans (onlyTalk_sendOut _ _ _ _)

/-- A slice's change of state: its domain, and the traffic of its event. -/
theorem sliceTo_facts (s : Nat) (st : Pw) (since t : Time) (d : Dev) :
    OnlyTalk (d.setSlice s ⟨st, since⟩) (sliceTo s st since t d)
      ∧ ∀ c, ∃ n l, (sliceTo s st since t d).chan c = { d.chan c with notes := n, lostNotes := l } := by
  unfold sliceTo govEvent; dsimp only
  split
  · exact ⟨.refl _, fun c => ⟨_, _, rfl⟩⟩
  · exact ⟨onlyTalk_noteRecord _ _ _ _ _ _ _ _ _, fun c => chan_noteRecord _ _ _ _ _ _ _ _ _ c⟩

end Sys2Proof.Machine
end

