-- ==== Sys2Proof/Laws/Effects.lean ====
section
/-!
SUPPORT. What the gates let through, and what counters, defects and FIFO updates change and leave.
-/
namespace Sys2Proof.Machine
open Safety

/-! ### Gates: an operation under its gate, and in the states that shut it -/

theorem run_gFab (f : Op) (s : State) (h : FabOn s) : s.run (gFab f) = .next (withDev s (f s.clock.now s.dev)) := by
  simp [State.run, State.onDev, gFab, withDev, show s.dev.aon.standby = false from h]

theorem run_gRun (f : Op) (s : State) (h : Runs s) : s.run (gRun f) = .next (withDev s (f s.clock.now s.dev)) := by
  simp [State.run, State.onDev, gRun, withDev, show s.dev.aon.standby = false from h.1, h.2]

theorem run_gFab_standby (f : Op) (s : State) (h : s.dev.aon.standby = true) : s.run (gFab f) = .next s := by
  simp [State.run, State.onDev, gFab, h]

theorem run_gRun_standby (f : Op) (s : State) (h : s.dev.aon.standby = true) : s.run (gRun f) = .next s := by
  simp [State.run, State.onDev, gRun, h]

theorem run_gFw_standby (f : Op) (s : State) (h : s.dev.aon.standby = true) : s.run (gFw f) = .next s := by
  simp [State.run, State.onDev, gFw, h]

theorem run_gRun_snowdrop (f : Op) (s : State) (h : s.dev.aon.snowdrop = true) : s.run (gRun f) = .next s := by
  simp [State.run, State.onDev, gRun, h]

theorem run_gFw_snowdrop (f : Op) (s : State) (h : s.dev.aon.snowdrop = true) : s.run (gFw f) = .next s := by
  simp [State.run, State.onDev, gFw, h]

theorem run_gFw_stopped (f : Op) (s : State) (h : s.dev.fab.boot.running = false) : s.run (gFw f) = .next s := by
  simp [State.run, State.onDev, gFw, h]

/-! ### Maps over a table -/

theorem tget_tmap {α : Type} (t : Tbl α) (f : Nat → α → α) (n : Nat) : tget (tmap t f) n = (tget t n).map (f n) := by
  induction t with
  | nil => rfl
  | cons e r ih =>
    obtain ⟨k, v⟩ := e
    by_cases h : k = n
    · subst h; simp [tmap, tget]
    · simpa [tmap, tget, h] using ih

theorem tgetD_tmap {α : Type} (t : Tbl α) (f : Nat → α → α) (n : Nat) (v : α) :
    tgetD (tmap t f) n v = ((tget t n).map (f n)).getD v := by rw [tgetD, tget_tmap]

/-! ### Counters -/

@[simp] theorem addCnt_aon (k num n : Nat) (d : Dev) : (addCnt k num n d).aon = d.aon := by
  unfold addCnt; split <;> rfl

/-- A counter changes the running values alone. -/
theorem addCnt_fab (k num n : Nat) (d : Dev) :
    (addCnt k num n d).fab = { d.fab with pm := { d.fab.pm with run := (addCnt k num n d).fab.pm.run } } := by
  unfold addCnt; split <;> rfl

theorem addCnt_self (k num n : Nat) (d : Dev) (h : d.aon.snowdrop = false) :
    tgetD (addCnt k num n d).fab.pm.run (k + num) 0 = tgetD d.fab.pm.run (k + num) 0 + BitVec.ofNat 40 n := by
  unfold addCnt
  by_cases hn : n = 0
  · simp [hn]
  · simp [h, hn]

theorem addCnt_ne (k num n i : Nat) (d : Dev) (h : i ≠ k + num) :
    tgetD (addCnt k num n d).fab.pm.run i 0 = tgetD d.fab.pm.run i 0 := by
  unfold addCnt
  split
  · rfl
  · simp [tgetD_tput_ne _ _ _ h]

/-! ### Defects -/

@[simp] theorem refresh_aon (t : Time) (d : Dev) : (refresh t d).aon = d.aon := rfl

/-- Signal fail runs through the layers and touches nothing else. -/
theorem refresh_fab (t : Time) (d : Dev) : (refresh t d).fab = { d.fab with layers := (refresh t d).fab.layers } := rfl

theorem refreshOnce_defs (t : Time) (d : Dev) (k : Nat) : ((refreshOnce t d).layer k).defs = (d.layer k).defs := by
  unfold Dev.layer refreshOnce
  rw [show (d.onFab fun f => { f with layers := tmap f.layers fun k l => refreshLayer d t k l }).fab.layers
    = tmap d.fab.layers (fun k l => refreshLayer d t k l) from rfl, tgetD_tmap, tgetD]
  cases tget d.fab.layers k <;> rfl

@[simp] theorem refresh_defs (t : Time) (d : Dev) (k : Nat) : ((refresh t d).layer k).defs = (d.layer k).defs := by
  rw [refresh, refreshOnce_defs, refreshOnce_defs]

@[simp] theorem addRecord_fab_layers (kind sub unit : Nat) (t : Time) (e : List Word) (d : Dev) (k : Nat) :
    (addRecord kind sub unit t e d).layer k = d.layer k := by
  unfold Dev.layer; rw [(onlyTalk_addRecord kind sub unit t e d).1]

theorem defs_modLayer (d : Dev) (k j : Nat) (f : Layer → Layer) (h : ∀ l, (f l).defs = l.defs) :
    ((d.modLayer k f).layer j).defs = (d.layer j).defs := by
  by_cases e : j = k
  · subst e; rw [layer_modLayer_self, h]
  · rw [layer_modLayer_ne _ _ e]

theorem recordDef_defs (k old : Nat) (t : Time) (d : Dev) (j : Nat) :
    ((recordDef k old t d).layer j).defs = (d.layer j).defs := by
  unfold recordDef
  by_cases h : layerBits k (d.layer k) = old
  · rw [if_pos h]
  · rw [if_neg h]
    dsimp only
    generalize (if (d.layer k).sentSec = secOf t then (d.layer k).sent else 0) = n
    by_cases hn : n < 4
    · rw [if_pos hn, defs_modLayer, addRecord_fab_layers]
      intro l; rfl
    · rw [if_neg hn]; exact defs_modLayer _ _ _ _ fun l => rfl

/-- A defect is raised or cleared as it is set, unless R233 holds it. -/
theorem hasDef_setDef (k : Nat) (x : Def) (on : Bool) (t : Time) (d : Dev)
    (h : ((decide (4 ≤ keyCls k) && (d.layer k).ssf && contentDef x) || (decide (keyCls k ≤ 3) && portSuppressed d k x)) = false) :
    hasDef (setDef k x on t d) k x = on := by
  unfold setDef
  dsimp only
  rw [h]
  by_cases hc : (d.layer k).defs.contains x = on
  · rw [hc]; simpa [hasDef] using hc
  · rw [if_neg (by simpa using hc), hasDef, recordDef_defs, refresh_defs, layer_modLayer_self]
    cases on <;> simp

/-- Another defect of the layer, and every defect of another, stays. -/
theorem hasDef_setDef_ne (k j : Nat) (x y : Def) (on : Bool) (t : Time) (d : Dev) (h : j ≠ k ∨ y ≠ x) :
    hasDef (setDef k x on t d) j y = hasDef d j y := by
  unfold setDef
  dsimp only
  split
  · rfl
  · rw [hasDef, recordDef_defs, refresh_defs, hasDef]
    by_cases hj : j = k
    · subst hj
      have hy : y ≠ x := by simpa using h
      rw [layer_modLayer_self]
      cases on <;> simp [hy]
    · rw [layer_modLayer_ne _ _ hj]

/-! ### FIFOs -/

@[simp] theorem setFifo_aon (f : FifoId) (q : Fifo) (d : Dev) : (setFifo f q d).aon = d.aon := rfl
@[simp] theorem setFifo_fab (f : FifoId) (q : Fifo) (d : Dev) :
    (setFifo f q d).fab = { d.fab with fifos := tput d.fab.fifos (fifoKey f) q } := rfl

@[simp] theorem fifoOf_setFifo (f : FifoId) (q : Fifo) (d : Dev) : fifoOf (setFifo f q d) f = q := by
  simp [fifoOf]

theorem fifoOf_setFifo_ne (f g : FifoId) (q : Fifo) (d : Dev) (h : fifoKey g ≠ fifoKey f) :
    fifoOf (setFifo f q d) g = fifoOf d g := by
  simp [fifoOf, tgetD_tput_ne _ _ _ h]

/-- A word written to a word FIFO with room stands at its end, behind the marker of what was dropped. -/
theorem putWord_room (q : Fifo) (w : LaneWord) (hw : lwTag w ≠ tagGap) (h : 1 + b2n q.gapFlag ≤ q.room) :
    (q.putWord w).entries = q.entries ++ (if q.gapFlag then [gapWord q.gap q.gapBad] else []) ++ [w]
      ∧ (q.putWord w).gapFlag = false ∧ (q.putWord w).drops = q.drops := by
  unfold Fifo.putWord
  rw [if_neg hw, if_neg (by omega)]
  cases hg : q.gapFlag <;> simp [Fifo.flushGap, gapEntries, hg]

/-- A full word FIFO drops the word and counts it in the marker to come. -/
theorem putWord_full (q : Fifo) (w : LaneWord) (hw : lwTag w ≠ tagGap) (h : q.room < 1 + b2n q.gapFlag) :
    q.putWord w = q.dropItem := by
  unfold Fifo.putWord; rw [if_neg hw, if_pos h]

end Sys2Proof.Machine
end

