-- ==== Sys2Proof/Laws/Etlum.lean ====
section
/-!
SUPPORT. What an Etlum row does when firmware serves its message: the words as posted, the device firmware acts on, and
the answer's traffic.
-/
namespace Sys2Proof.Machine
open Safety

theorem w0_fields (code : Nat) (h : code < 65536) (m : Msg) :
    fld ((messageWords code m).headD 0) 7 4 = m.count.toNat ∧ fld ((messageWords code m).headD 0) 15 8 = m.tag.toNat
      ∧ fld ((messageWords code m).headD 0) 3 0 = m.ver.toNat := by
  have ht := m.tag.isLt; have hc := m.count.isLt; have hv := m.ver.isLt
  have e : (wd (code * 65536 + m.tag.toNat * 256 + m.count.toNat * 16 + m.ver.toNat)).toNat
      = code * 65536 + m.tag.toNat * 256 + m.count.toNat * 16 + m.ver.toNat := by
    simp [wd]; omega
  simp only [messageWords, List.headD_cons, fld, e, Nat.shiftRight_eq_div_pow]
  refine ⟨?_, ?_, ?_⟩ <;> simp only [Nat.reducePow, Nat.reduceSub, Nat.reduceAdd] <;> omega

theorem len_messageWords (code : Nat) (m : Msg) : (messageWords code m).length = m.count.toNat + 8 := by
  have h := m.count.isLt
  simp only [messageWords, pad, List.length_append, List.length_cons, List.length_take,
    List.length_replicate]
  omega

theorem clientPost_free (ch : Nat) (ws : List Word) (t : Time) (d : Dev) (hp : (d.chan ch).posted = false)
    (hs : d.aon.snowdrop = false) :
    clientPost ch ws t d = post ch t (d.modChan ch fun x => { x with data := ws ++ x.data.drop ws.length }) := by
  unfold clientPost; simp [hp, hs]

theorem posted_facts (c : Cmd) (m : Msg) (s : State) (h1 : s.dev.aon.coll.clusterLost = false) (h2 : s.dev.aon.snowdrop = false)
    (hp : (s.dev.chan m.ch).posted = false) :
    let d := clientPost m.ch (messageWords c.code m) s.clock.now s.dev
    OnlyTalk s.dev d ∧ d.aon = s.dev.aon
    ∧ (∃ a w, d.chan m.ch = { s.dev.chan m.ch with data := messageWords c.code m ++ (s.dev.chan m.ch).data.drop (messageWords c.code m).length, posted := true, ackValid := false, taken := false, crossed := false, crossTimer := a, waking := w })
    ∧ (∀ e, e ≠ m.ch → ∃ a, d.chan e = { s.dev.chan e with crossTimer := a }) := by
  intro d
  have e : d = _ := clientPost_free m.ch (messageWords c.code m) s.clock.now s.dev hp h2
  have k := onlyTalk_post m.ch s.clock.now (s.dev.modChan m.ch fun x => { x with data := messageWords c.code m ++ x.data.drop (messageWords c.code m).length }) h1 h2
  refine ⟨?_, ?_, ?_, ?_⟩
  · rw [e]; exact OnlyTalk.trans (onlyTalk_modChan _ _ _) k.1
  · rw [e, k.2]; rfl
  · obtain ⟨a, w, q⟩ := chan_post_self m.ch s.clock.now (s.dev.modChan m.ch fun x => { x with data := messageWords c.code m ++ x.data.drop (messageWords c.code m).length }) h1 h2
    rw [e, q, chan_modChan, if_pos rfl]; exact ⟨a, w, rfl⟩
  · intro x hx
    obtain ⟨a, q⟩ := chan_post_ne m.ch x s.clock.now (s.dev.modChan m.ch fun x => { x with data := messageWords c.code m ++ x.data.drop (messageWords c.code m).length }) hx h1 h2
    rw [e, q, chan_modChan, if_neg hx]; exact ⟨a, rfl⟩

theorem receiverOf_eq (d d' : Dev) (c : Nat) (hb : (d'.chan c).bind = (d.chan c).bind) (ha : d'.aon.coll = d.aon.coll)
    (hk : d'.fab.cores = d.fab.cores) : receiverOf d' c = receiverOf d c := by
  unfold receiverOf lowestRunning coreRuns Dev.core
  rw [hb, ha, hk]

theorem servingCore_eq (d d' : Dev) (c : Nat) (hb : (d'.chan c).bind = (d.chan c).bind) (ha : d'.aon.coll = d.aon.coll)
    (hk : d'.fab.cores = d.fab.cores) : servingCore d' c = servingCore d c := by
  unfold servingCore
  rw [receiverOf_eq d d' c hb ha hk]
  unfold coreRuns Dev.core; rw [hk]

/-- The words of a message are the last ones of what firmware acts on. -/
@[simp] theorem ctxOf_w (c : Cmd) (m : Msg) (s : State) (i : Nat) : (ctxOf c m s).w i = (messageWords c.code m).getD i 0 := by
  simp [ctxOf, Ctx.w]

/-- An answer goes by the channel, the sender and the words of the last message alone. -/
theorem finish_ctx (x y : Ctx) (a : Answer) (ht : x.t = y.t) (hc : x.ch = y.ch) (hm : x.m = y.m) (hw : x.w 0 = y.w 0) :
    finish x a = finish y a := by
  unfold finish; rw [ht, hc, hm, hw]

/-- A served row ends with firmware's handling of the message by itself and its answer (15 R366, R369; 16 R380). -/
theorem etlum_served (c : Cmd) (m : Msg) (s : State) (h : Serves m s) (hc : c.code < 65536) :
    etlumRow c m s.clock.now s.dev = finish (ctxOf c m s) (handleFrag c
      ⟨s.clock.now, m.ch, (s.dev.chan m.ch).bind.sender, [messageWords c.code m]⟩ (afterPost c m s)) := by
  obtain ⟨⟨⟨h1, h2⟩, h3, h4⟩, h5, h6, h7, h8, h9, h10⟩ := h
  obtain ⟨k1, k2, ⟨a, w, k3⟩, k4⟩ := posted_facts c m s h5 h2 h7
  change OnlyTalk s.dev (afterPost c m s) at k1
  change (afterPost c m s).aon = _ at k2
  change (afterPost c m s).chan m.ch = _ at k3
  have hfw : (afterPost c m s).fab.fw = s.dev.fab.fw := by rw [k1.1]
  have hbt : (afterPost c m s).fab.boot = s.dev.fab.boot := by rw [k1.1]
  have hco : (afterPost c m s).fab.cores = s.dev.fab.cores := by rw [k1.1]
  have hsv : servingCore (afterPost c m s) m.ch = servingCore s.dev m.ch :=
    servingCore_eq _ _ _ (by rw [k3]) (by rw [k2]) hco
  unfold etlumRow gFab
  rw [h1]
  simp only [Bool.false_eq_true, if_false, h6, Bool.not_true]
  change (if !((afterPost c m s).chan m.ch).posted || ((afterPost c m s).chan m.ch).data.take (messageWords c.code m).length != messageWords c.code m then afterPost c m s
    else if (afterPost c m s).aon.snowdrop || (afterPost c m s).fab.fw.activating.isSome then afterPost c m s
    else if (afterPost c m s).fab.boot.running then
      if (servingCore (afterPost c m s) m.ch).isSome then serveAs c m.ch s.clock.now (afterPost c m s) else afterPost c m s
    else _) = _
  rw [hfw, hbt, hsv, k2, h2, h3, h4, h9, k3]
  have ht : (messageWords c.code m ++ (s.dev.chan m.ch).data.drop (messageWords c.code m).length).take (messageWords c.code m).length = messageWords c.code m := by
    simp
  simp only [ht, bne_self_eq_false, Bool.not_true, Bool.or_false, Bool.false_eq_true, if_false, if_true, Option.isSome_none]
  unfold serveAs
  simp only [k3]
  have hn : fld ((messageWords c.code m ++ (s.dev.chan m.ch).data.drop (messageWords c.code m).length).headD 0) 7 4 + 8 = (messageWords c.code m).length := by
    rw [len_messageWords, ← (w0_fields c.code hc m).1]
    simp [messageWords]
  rw [hn, ht]
  have htag : BitVec.ofNat 8 (fld ((messageWords c.code m).headD 0) 15 8) = m.tag := by
    rw [(w0_fields c.code hc m).2.1]; simp
  rw [htag]
  have hx : ∀ a, finish ⟨s.clock.now, m.ch, (s.dev.chan m.ch).bind.sender, [messageWords c.code m]⟩ a = finish (ctxOf c m s) a :=
    fun a => finish_ctx _ _ a rfl rfl rfl (by rw [ctxOf_w]; rfl)
  cases hla : (s.dev.chan m.ch).lastAck with
  | none => exact hx _
  | some p =>
    obtain ⟨g, v⟩ := p
    rw [hla] at h10
    simp at h10
    simp only [if_neg h10]
    exact hx _

/-- A message that completes its object is handled with the fragments before it (16 R392). -/
theorem handleFrag_whole (c : Cmd) (m : Msg) (s : State) (h : Serves m s) (hv : m.ver = 1) (hc : c.code < 65536)
    (ha : whole c m s = true) (hl : layoutErr c (messageWords c.code m) = none) :
    handleFrag c ⟨s.clock.now, m.ch, (s.dev.chan m.ch).bind.sender, [messageWords c.code m]⟩ (afterPost c m s)
      = handle c (ctxOf c m s) (posted c m s) := by
  obtain ⟨⟨⟨h1, h2⟩, h3, h4⟩, h5, h6, h7, h8, h9, h10⟩ := h
  obtain ⟨-, -, ⟨a, w, k3⟩, -⟩ := posted_facts c m s h5 h2 h7
  have hfr : ((afterPost c m s).chan m.ch).frag = (s.dev.chan m.ch).frag := by
    unfold afterPost; rw [k3]
  unfold whole at ha
  unfold handleFrag
  cases hf : c.frag with
  | none => simp only [hf, heldMsgs, ctxOf, posted]; rfl
  | some f =>
    have hver : fld ((messageWords c.code m).headD 0) 3 0 = 1 := by rw [(w0_fields c.code hc m).2.2, hv]; rfl
    simp only [follows, hf, Bool.and_eq_true, heldMsgs] at ha
    obtain ⟨hfo, hlast, hcov⟩ := ha
    have hw : [messageWords c.code m].getLastD [] = messageWords c.code m := rfl
    simp only [hw, hver, hl, hfr, bne_self_eq_false, Bool.false_eq_true, if_false, hlast, Bool.true_and]
    rw [if_neg, if_neg]
    · simp only [if_true, ctxOf, heldMsgs, hf, posted] <;> rfl
    · intro hne
      have hne := bne_iff_ne.1 hne
      exact hne (eq_of_beq hcov)
    · revert hfo
      cases (f (messageWords c.code m)).opening
      · cases (s.dev.chan m.ch).frag <;> simp
      · simp

theorem posted_chan (c : Cmd) (m : Msg) (s : State) (h : Serves m s) :
    ((posted c m s).chan m.ch).orphan = false ∧ ((posted c m s).chan m.ch).bind = (s.dev.chan m.ch).bind
      ∧ (∀ e, ((posted c m s).chan e).outs = (s.dev.chan e).outs) ∧ (∀ e, ((posted c m s).chan e).bind = (s.dev.chan e).bind)
      ∧ OnlyTalk s.dev (posted c m s) ∧ (posted c m s).aon = s.dev.aon := by
  obtain ⟨⟨⟨h1, h2⟩, h3, h4⟩, h5, h6, h7, h8, h9, h10⟩ := h
  obtain ⟨k1, k2, ⟨a, w, k3⟩, k4⟩ := posted_facts c m s h5 h2 h7
  have ho : ∀ e, ((posted c m s).chan e).outs = (s.dev.chan e).outs ∧ ((posted c m s).chan e).bind = (s.dev.chan e).bind
      ∧ ((posted c m s).chan e).orphan = (s.dev.chan e).orphan := by
    intro e
    unfold posted afterPost; rw [chan_modChan]
    split
    · rename_i he; subst he; rw [k3]; exact ⟨rfl, rfl, rfl⟩
    · rename_i he; obtain ⟨q, k5⟩ := k4 e he; rw [k5]; exact ⟨rfl, rfl, rfl⟩
  refine ⟨by rw [(ho _).2.2, h8], (ho _).2.1, fun e => (ho e).1, fun e => (ho e).2.1, ?_, ?_⟩
  · exact OnlyTalk.trans k1 (onlyTalk_modChan _ _ _)
  · unfold posted afterPost; rw [modChan_aon, k2]

/-- The answer's traffic on a channel that is no orphan. -/
theorem finish_facts (x : Ctx) (a : Answer) (h : (a.dev.chan x.ch).orphan = false) :
    OnlyTalk a.dev (finish x a) ∧ ((finish x a).chan x.ch).posted = false ∧ ((finish x a).chan x.ch).ackValid = true
      ∧ ((finish x a).chan x.ch).ack = ackWord a.code (fld (x.w 0) 15 8) a.detail
      ∧ (∀ e, ((finish x a).chan e).outs = (a.dev.chan e).outs) := by
  unfold finish
  simp only [h, Bool.false_eq_true, if_false]
  generalize hd1 : a.dev.modChan x.ch _ = d1
  have ht : OnlyTalk a.dev d1 := by rw [← hd1]; exact onlyTalk_modChan _ _ _
  have ho : (d1.chan x.ch).orphan = false := by rw [← hd1, chan_modChan, if_pos rfl]; exact h
  have hout : ∀ e, (d1.chan e).outs = (a.dev.chan e).outs := by
    intro e; rw [← hd1, chan_modChan]; split
    · rename_i he; rw [he]
    · rfl
  generalize hd2 : (if a.code = rcOk ∨ a.code = rcDeferred then addRecord 4 1 _ x.t _ d1 else addRecord 4 3 _ x.t _ d1) = d2
  have ht2 : OnlyTalk d1 d2 := by rw [← hd2]; split <;> exact onlyTalk_addRecord _ _ _ _ _ _
  have hc2 : ∀ e, d2.chan e = d1.chan e := by intro e; rw [← hd2]; split <;> exact chan_addRecord _ _ _ _ _ _ _
  obtain ⟨p, q, k⟩ := chan_acknowledge_self x.ch (ackWord a.code (fld (x.w 0) 15 8) a.detail) d2 (by rw [hc2]; exact ho)
  refine ⟨(ht.trans ht2).trans (onlyTalk_acknowledge _ _ _), ?_, ?_, ?_, ?_⟩
  · rw [k]
  · rw [k]
  · rw [k]
  · intro e
    by_cases he : e = x.ch
    · rw [he, k]; show (d2.chan x.ch).outs = _; rw [hc2, hout]
    · obtain ⟨p, q, k'⟩ := chan_acknowledge_ne x.ch e (ackWord a.code (fld (x.w 0) 15 8) a.detail) d2 he
      rw [k']; show (d2.chan e).outs = _; rw [hc2, hout]

end Sys2Proof.Machine
end

