-- ==== Sys2Proof/Laws/Words.lean ====
section
/-!
SUPPORT. What the hand-over of lane words changes and leaves: the attachments of the cross-connect, the words that await a
transmitter, and the pointers of elastic stores.
-/
namespace Sys2Proof.Machine

@[simp] theorem setTxWaiting_aon (n : Nat) (ws : List LaneWord) (d : Dev) : (setTxWaiting n ws d).aon = d.aon := rfl
@[simp] theorem setTxWaiting_fab (n : Nat) (ws : List LaneWord) (d : Dev) :
    (setTxWaiting n ws d).fab = { d.fab with txq := tput d.fab.txq n ws } := rfl

@[simp] theorem txWaiting_setTxWaiting (n : Nat) (ws : List LaneWord) (d : Dev) :
    txWaiting (setTxWaiting n ws d) n = ws := by
  simp [txWaiting]

theorem txWaiting_setTxWaiting_ne (n m : Nat) (ws : List LaneWord) (d : Dev) (h : m ≠ n) :
    txWaiting (setTxWaiting n ws d) m = txWaiting d m := by
  simp [txWaiting, tgetD_tput_ne _ _ _ h]

/-- Words sent to an attachment wait there, behind a context-boundary word; nothing else changes. -/
theorem xcSend_eq (inst n : Nat) (ws : List LaneWord) (d : Dev) (h : ws ≠ []) (hi : inst < 96) :
    xcSend inst n ws d
      = d.onFab fun f => { f with xcOut := tmod f.xcOut inst [] fun l => l ++ lw tagCtx (wd (n % 2 ^ 17)) :: ws } := by
  unfold xcSend; rw [if_neg (by simp [h]; omega)]

theorem xcSend_fab (inst n : Nat) (ws : List LaneWord) (d : Dev) :
    (xcSend inst n ws d).aon = d.aon ∧ ∃ q, (xcSend inst n ws d).fab = { d.fab with xcOut := q } := by
  unfold xcSend; split
  · exact ⟨rfl, _, rfl⟩
  · exact ⟨rfl, _, rfl⟩

theorem toOwner_fab (n : Nat) (ws : List LaneWord) (d : Dev) :
    (toOwner n ws d).aon = d.aon ∧ ∃ q, (toOwner n ws d).fab = { d.fab with xcOut := q } := by
  unfold toOwner; split
  · split
    · exact xcSend_fab ..
    · exact ⟨rfl, _, rfl⟩
  · exact ⟨rfl, _, rfl⟩

theorem toCarrier_fab (n : Nat) (ws : List LaneWord) (d : Dev) :
    (toCarrier n ws d).aon = d.aon ∧ ∃ q, (toCarrier n ws d).fab = { d.fab with xcOut := q } := by
  unfold toCarrier; split
  · exact xcSend_fab ..
  · exact ⟨rfl, _, rfl⟩

@[simp] theorem firstRead_none (ws : List LaneWord) : firstRead none ws = (ws, false) := rfl
@[simp] theorem firstRead_nil (hit : Option LaneWord) : firstRead hit [] = ([], false) := by cases hit <;> rfl
@[simp] theorem firstRead_cons (v w : LaneWord) (ws : List LaneWord) :
    firstRead (some v) (w :: ws) = ((stageRead v).1 :: ws, (stageRead v).2) := rfl
@[simp] theorem readWaiting_nil (u det : Nat) (carried : Trib → Nat → Bool) (t : Time) (d : Dev) :
    readWaiting u det carried [] t d = d := rfl

/-- Words that read without error change only what waits. -/
theorem readWaiting_clean (u det : Nat) (carried : Trib → Nat → Bool) (hits : List (Nat × LaneWord)) (t : Time) (d : Dev)
    (h : ∀ e ∈ hits, (stageRead e.2).2 = false) :
    (readWaiting u det carried hits t d).aon = d.aon
      ∧ ∃ q, (readWaiting u det carried hits t d).fab = { d.fab with txq := q } := by
  induction hits generalizing d with
  | nil => exact ⟨rfl, _, rfl⟩
  | cons e r ih =>
    have he := h e (by simp)
    have step : ∀ d', d'.aon = d.aon → (∃ q, d'.fab = { d.fab with txq := q }) →
        (readWaiting u det carried r t d').aon = d.aon ∧ ∃ q, (readWaiting u det carried r t d').fab = { d.fab with txq := q } := by
      intro d' ha ⟨q, hq⟩
      obtain ⟨h1, q', h2⟩ := ih d' (fun x hx => h x (by simp [hx]))
      exact ⟨h1.trans ha, q', by rw [h2, hq]⟩
    unfold readWaiting
    rw [List.foldl_cons]
    apply step
    all_goals
      split
      · split
        · first | rfl | exact ⟨_, rfl⟩
        · cases txWaiting d e.1 <;> simp [firstRead, he] <;> exact ⟨_, rfl⟩
      · first | rfl | exact ⟨_, rfl⟩

/-- Moving an elastic store's pointers changes its context only. -/
theorem esMove_fab (f : FifoId) (wr rd : Nat) (d : Dev) :
    (esMove f wr rd d).aon = d.aon ∧ ∃ ts, (esMove f wr rd d).fab = { d.fab with tribs := ts } := by
  unfold esMove; split
  · exact ⟨rfl, _, rfl⟩
  · exact ⟨rfl, _, rfl⟩
  · exact ⟨rfl, _, rfl⟩

@[simp] theorem setSrc_fab (d : Dev) (n : Nat) (x : Src) : (d.setSrc n x).fab = d.fab := rfl
@[simp] theorem setBank_aon (b : Nat) (x : Dom) (d : Dev) : (setBank b x d).aon = d.aon := rfl
@[simp] theorem modErrl_aon (g : Nat) (f : Errl → Errl) (d : Dev) : (modErrl g f d).aon = d.aon := rfl

end Sys2Proof.Machine
end

