-- ==== Sys2Proof/Tests/Slice0.lean ====
section
/-!
SUPPORT. Tests: ill-formed commands that the check refuses, the spec's worked examples, and for every statement with
hypotheses a witness of states and commands that meet them, each clause at the boundaries of its ranges.
-/
namespace Sys2Proof.Tests
open Sys2Proof.Machine Sys2Proof.Safety

set_option Elab.async false

/-! ### Fixtures -/

def up : Dev :=
  let ch : Bind := { valid := true, pairEn := true, pair := 32, sender := 0, receiver := 16 }
  { fab := { boot := { running := true, stage := 8 }, cores := [(0, { running := true })]
             mbx := { chans := [(0, { bind := ch }), (32, { bind := { valid := true, sender := 16, receiver := 0, pair := 0 } })] } } }

def at_ (t : Nat) (d : Dev) : State := { clock := ⟨BitVec.ofNat 64 (t / 32768), BitVec.ofNat 15 (t % 32768)⟩, dev := d }

/-- What a property makes of the device after a command. -/
def after (c : Instr) (s : State) (p : Dev → Bool) : Bool :=
  match exec c s with
  | .next s' => p s'.dev
  | _ => false

def mk (n : Nat) (args : List Word) : Msg := ⟨0, 2, BitVec.ofNat 4 (n - 8), 1, [0, 0, 0] ++ args⟩
def trigOf (c : Cmd) (m : Msg) (s : State) : Option Time :=
  (c.trigger (ctxOf c m s) (posted c m s)).or (triggerOf (ctxOf c m s))

/-- Lanes, ports, tributaries and a group of each kind, on the running device. -/
def dv : Dev := { up with fab := { up.fab with
  lanes := [(0, { cfg := { set := true, enable := true, rate := 0, ilf := true } }),
    (8, { cfg := { set := true, enable := true, rate := 4 } }), (16, { cfg := { set := true, enable := true, rate := 4 } }),
    (17, { cfg := { set := true, enable := true, rate := 4 } }), (18, { cfg := { set := true, enable := true, rate := 4 } }),
    (19, { cfg := { set := true, enable := true, rate := 4 } }),
    (40, { cfg := { set := true, enable := true, rate := 6, ilf := true } }), (64, { cfg := { set := true, enable := true, rate := 4 } })]
  ports := [(0, { typ := 2, first := 0, mask := 1, sdh := { aug := [0, 0, 0, 0], augTx := [0, 0, 0, 0] } }),
    (128, { typ := 0x13, first := 8, lanes := 1 }),
    (256, { typ := 0x18, first := 16, lanes := 2, phys := 1, flx := { calA := List.replicate 40 0 } }),
    (288, { typ := 0x19, first := 18, lanes := 2, phys := 1, flx := { mtn := true, calA := 1 :: 2 :: List.replicate 38 0 } }),
    (640, { typ := 0x0C, first := 40, mask := 0x1FF }), (1024, { typ := 0x13, first := 64, lanes := 1 })]
  tribs := [(3, { typ := 0x11, port := some 0, parent := 3, rate := 150336, unit := 32, tug3 := [1, 1, 1] }),
    (10, { typ := 6, port := some 640, parent := 10, rate := 104794446, unit := 37, structPt := 0x21 }),
    (11, { typ := 8, parent := 10, rate := 2500000, method := 3, tsMap := [0xC0000000, 0, 0, 0, 0], pos := 0x0200, mOct := 2, unit := 0
           pServer := 15200, cmMin := 1, cmMax := 15000 }),
    (20, { typ := 0x2A, port := some 256, parent := 20, pos := 1, unit := 34 }),
    (21, { typ := 0x2B, port := some 288, parent := 21, pos := 1, rate := 5156250, unit := 34 }),
    (22, { typ := 0x2B, port := some 288, parent := 22, pos := 2, rate := 5156250, unit := 34, opts := 0x800 }),
    (23, { typ := 0x2C, parent := 22, pos := 0x0A01, rate := 103125, unit := 0 }),
    (30, { typ := 0x29, port := some 1024, parent := 30, rate := 100000000, unit := 40 }),
    (31, { typ := 0x29, method := 7, parent := 21, rate := 1000000, unit := 0 }),
    (50, { typ := 0x11, port := some 0, parent := 50, pos := 1, rate := 150336, unit := 32 }),
    (51, { typ := 0x11, port := some 0, parent := 51, pos := 2, rate := 150336, unit := 32 })]
  layers := [(pathKey 3, {}), (pathKey 10, {}), (pathKey 11, {}), (secKey 640, {})]
  pd := { up.fab.pd with slices := [(0, ⟨.on, 0⟩)] }
  pgs := [(1, { owner := 0, point := 1, p := { o := .trib 70 }, ws := [{ o := .trib 71 }] })] } }

/-! ### Ill-formed commands that the check refuses, one for each check -/

theorem test_wf_ok : Instr.wf (.echo ⟨63, 0, 0, 1, List.replicate 15 0⟩) = true := by decide
/-- Messages and masters. -/
theorem test_wf_access : Instr.wf (.echo ⟨64, 0, 0, 1, []⟩) = false ∧ Instr.wf (.echo ⟨0, 0, 0, 1, List.replicate 16 0⟩) = false
    ∧ Instr.wf (.mbxDataWrite ⟨0, 0, true⟩ 0 16) = false ∧ Instr.wf (.mbxGoWrite ⟨0, 0, true⟩ 64) = false
    ∧ Instr.wf (.irqStsWrite ⟨23, 0, true⟩) = false ∧ Instr.wf (.registerWrite ⟨0, 0, true⟩ 67108864) = false
    ∧ Instr.wf (.remapClrWrite 4 0) = false ∧ Instr.wf (.wvSelWrite ⟨0, 0, true⟩ 16) = false
    ∧ Instr.wf (.decodeMiss ⟨16, 2 ^ 40, true, true⟩) = false ∧ Instr.wf (.decodeMiss ⟨0, 0x34000000, true, true⟩) = false ∧ Instr.wf (.vfFlr 16) = false ∧ Instr.wf (.msixHoldEnd 0 49) = false := by decide
/-- Samples, sources and firmware. -/
theorem test_wf_device : Instr.wf (.thermalSample (List.replicate 63 0)) = false ∧ Instr.wf (.railSample []) = false
    ∧ Instr.wf (.mpsenseSample []) = false ∧ Instr.wf (.droop 97) = false ∧ Instr.wf (.modulePresenceChange 32) = false
    ∧ Instr.wf (.faultEvent 512 0) = false ∧ Instr.wf (.coreWdog 4) = false ∧ Instr.wf (.changeArm 65536 0) = false
    ∧ Instr.wf (.changeArm 0 256) = false ∧ Instr.wf (.csTimeout 256) = false ∧ Instr.wf (.completionPost 64) = false
    ∧ Instr.wf (.bootStage ⟨true, [16]⟩) = false ∧ Instr.wf (.contextRecreate 131072) = false := by decide
/-- Lanes, ports and tributaries. -/
theorem test_wf_objects : Instr.wf (.cdrLock 128) = false ∧ Instr.wf (.laneGroupPowerDown 16) = false
    ∧ Instr.wf (.sdhPatternFound ⟨1280, List.replicate 48 false⟩) = false ∧ Instr.wf (.sdhPatternFound ⟨0, []⟩) = false
    ∧ Instr.wf (.otnPatternFound ⟨0, []⟩) = false ∧ Instr.wf (.ilfMarkerPeriod 0 ⟨[], []⟩) = false ∧ Instr.wf (.ilfControlBlock ⟨0, 8192⟩) = false ∧ Instr.wf (.flexoLof 0 16) = false ∧ Instr.wf (.otnLofChange (.trib 131072)) = false
    ∧ Instr.wf (.otnLofChange (.lane 128)) = false ∧ Instr.wf (.otnLofChange (.port 1280)) = false
    ∧ Instr.wf (.otnLofChange (.group 4096)) = false ∧ Instr.wf (.otnLofChange (.stream 131072)) = false
    ∧ Instr.wf (.pauseFrameRx 0 65536) = false ∧ Instr.wf (.pauseExpiry 0 8) = false ∧ Instr.wf (.drainEnd 131072) = false
    ∧ Instr.wf (.segmentRx 131072 0 0) = false ∧ Instr.wf (.segmentRx 0 16 0) = false ∧ Instr.wf (.contextRewrite 0 32) = false
    ∧ Instr.wf (.sliceContextVisit 0 ⟨[(32, 0)], 0, false⟩) = false ∧ Instr.wf (.ilEstimateRefresh [⟨128, 0⟩]) = false := by decide
/-- FIFOs, groups, queues, clocks and power. -/
theorem test_wf_units : Instr.wf (.xcWord 96 none) = false ∧ Instr.wf (.fifoStallLong ⟨.xc, 2 ^ 20⟩) = false
    ∧ Instr.wf (.pbEntryRead 8 0) = false ∧ Instr.wf (.watermarkEvaluation 16) = false ∧ Instr.wf (.wtrExpiry 4096) = false
    ∧ Instr.wf (.holdOffExpiry 0 15) = false ∧ Instr.wf (.failureDeclare ⟨0, 32⟩) = false
    ∧ Instr.wf (.packetEnqueue 131072) = false
    ∧ Instr.wf (.bankWake 8) = false ∧ Instr.wf (.clkActivityWindowEnd 12 true) = false ∧ Instr.wf (.dpllLock 4) = false
    ∧ Instr.wf (.sliceOff 32) = false ∧ Instr.wf (.migrationArm 0 32) = false ∧ Instr.wf (.flexeOhFrame 1280 0
      ⟨false, false, false, false, 0, [], false, 0, 0, [], false, [], false, false⟩) = false := by decide

/-! ### Worked examples and tables of the spec: the expected values stand there -/

/-- 01, Lane words: a packet ends with the octets A5 C3; the idle word. -/
theorem test_lane_words : lw tagEnd 0xA5C30000 false 1 = 0x95A5C30000#40 ∧ lw tagIdle 0 = 0xB700000000#40 := by decide

/-- 03, ILF: the slot map words of LL17's ports P272 to P285. -/
theorem test_ilf_map :
    let port := fun n m => (n, ({ first := 17, mask := m } : Port))
    let stm16 := [1, 2, 3, 5, 6, 7, 9, 10, 11, 13, 14, 15]
    let ps := (List.range 12).map fun k => port (274 + k) (BitVec.ofNat 16 (2 ^ stm16.getD k 0))
    let d : Dev := { fab := { ports := port 272 0x0101 :: port 273 0x1010 :: ps } }
    ((ilfMarkerOf d 17 0 fun _ => 0).drop 3).take 4 = [0x80828384, 0x81858687, 0x8088898A, 0x818B8C8D] := by decide +kernel

/-- 04, pointers: the active values of the example's frames 0 to 9. -/
theorem test_au_pointer :
    let ws : List (BitVec 16) := [0x6A0A, 0x68A0, 0x6A0B, 0x6A0B, 0x6A0B, 0x9864, 0x6864, 0x68C8, 0x68C8, 0x6864]
    let p0 : PtrRx := { st := .norm, act := 522, normRun := 3 }
    (ws.foldl (fun (a : PtrRx × List Nat) w => let q := (a.1.step 782 w).1; (q, a.2 ++ [q.act])) (p0, [])).2
      = [522, 523, 523, 523, 523, 100, 100, 100, 100, 100] := by decide +kernel

/-- 06, fine grain: the overhead grain of seq 37 with ms 1. -/
theorem test_grain : grainSeq (some ⟨0x4B4B0000A10002FF#64, false⟩) = some 37 := by decide +kernel

/-- 07, GMP: the 100GE client in an ODU4 at tol_ppm 100, and frames 1 and 7 of the table. -/
theorem test_gmp : gmpServer 0x06 0x28 0 = (80, 1, 190) ∧ (gmpLimits 103125000 104794446 100 80 1).1 = 188
    ∧ (gmpLimits 103125000 104794446 100 80 1).2.1 = 189
    ∧ gmpPeriod 80 188 189 0 15052 = (12, 188, 12) ∧ gmpPeriod 80 188 189 74 15052 = (6, 189, 6) := by decide +kernel
theorem test_gmp_stuff : gmpData 188 190 1 = false ∧ gmpData 188 190 96 = false ∧ gmpData 188 190 95 = true
    ∧ gmpData 189 190 1 = false ∧ gmpData 189 190 2 = true := by decide

/-- 08 R196: store sizes of the example. -/
theorem test_store : storeSize (4 * 20 + 8) = 128 ∧ storeSize (4 * 80 + 8) = 512 := by decide

/-- 08, packet FIFOs: steps 6, 7 and 9 of the example in a shorter FIFO: two packets dropped, then a gap marker of count 2. -/
theorem test_packet_drops :
    let a := lw tagStart 1
    let q : Fifo := { depth := 20, entries := List.replicate 19 0, committed := 19 }
    let q2 := (q.put true 1 a).put true 1 (lw tagEnd 0)
    let q3 := (q2.put true 1 a)
    (q3.gap == 2 && q3.entries.length == 19
    && (({ q3 with entries := [], committed := 0 } : Fifo).put true 1 a).entries == [gapWord 2, lw tagData 0, a]) = true := by
  decide +kernel

/-- 08 R217, R218: an entry of the compatibility layout, and the bit error that it corrects. -/
theorem test_ham : hamEntry 1 false = 0x8600000001#40 ∧ eccRead 0x8600000000#40 = ⟨1, false, true, false⟩ := by decide +kernel

/-- 09: the core header of a 64-octet packet, and the ODU BIP-8 of the example. -/
theorem test_core_header : hec 0x0044#16 = 0x0840 ∧ (0x00440840#32 ^^^ coreXor) = 0xB6EF39A0#32
    ∧ bip8 [0x3C, 0x5A, 0x0F, 0xF1] = 0x98 := by decide +kernel

/-- 11 R272: HBM units and guard words of PG17. -/
theorem test_errorless_units : errlUnits 2 10037274 50 = 1590 ∧ errlGuard 2 10037274 = 7648 := by decide +kernel

/-- 12 R290: the transmission times of packets A, B and C. -/
theorem test_tx_units : txUnits 1520 9999000 = 319 ∧ txUnits 1020 9999000 = 214 ∧ txUnits 220 9999000 = 47 := by decide

/-- 12 R296: the start of the example's gate list is 19 cycles after the time it names. -/
theorem test_gate_start :
    let x : Ctx := { ctxOf cmdGateListSet ⟨0, 2, 0, 1, [0x80000000, 0, 49999990]⟩ (at_ 0 up) with t := 50000000 * frame + 1000 }
    gateStart x frame = some (50000009 * frame) := by decide +kernel

/-- 14 R351, 20: the ageing factors at 95 °C, 80 °C and 100 °C, to the fourth place (in 1/65,536 of 256 wu). -/
theorem test_ageing :
    let af := fun t : Int => (afInc (t * 8) 1) * 10000 / (256 * 65536)
    (af 95 = 13550 ∨ af 95 = 13549) ∧ (af 80 = 5308 ∨ af 80 = 5307) ∧ (af 100 = 18212 ∨ af 100 = 18211) := by decide +kernel

/-- 15: CROSSED with tag 0x5A and pair channel 33, and RX_RESET. -/
theorem test_acks : ackWord 0xE1 0x5A 33 = 0xE15A0021#32 ∧ ackWord 0xE0 0x5A 0 = 0xE05A0000#32
    ∧ ackWord rcDeferred 0x0B 0x31 = 0x010B0031#32 := by decide

/-- 16: DEVICE_INFO_GET with tag 0x01 is answered OK with one fragment; LANE_CONFIG of LL8 joins set 7 as member 0, and
its words set enable and rate code 4. -/
theorem test_device_info :
    after (.deviceInfoGet ⟨0, 1, 0, 1, [0]⟩) (at_ 0 up) (fun d => (d.chan 0).ack == 0x00010001#32)
    ∧ after (.laneConfig ⟨0, 2, 0, 1, [0x40070000, 0, 0, 8, 0x90000000]⟩) (at_ 0 up) (fun d => (d.chan 0).ack == 0x00020000#32) := by
  decide +kernel

/-- 17 R399: PWR_STS takes an event in the cycle of a stale clear, and clears under its number. -/
theorem test_sequence : ((Sq.mk 0x3A 0x800000).latch 21).write 0x3A800000#32 = ⟨0x3B, 0xA00000⟩
    ∧ (Sq.mk 0x3B 0xA00000).write 0x3BA00000#32 = ⟨0x3B, 0⟩ := by decide

/-- 17 R404: a write of 0 to 0x0100_0158 takes bit 22 of IRQ_ALERT_EN away and leaves the others. -/
theorem test_alias :
    let r := regValue up 0 0x20008
    r.getLsbD 22 = true ∧ after (.bitAliasWrite ⟨0, 0, true⟩ 0x01000158) (at_ 0 up) (fun d => regValue d 0 0x20008 == r - 0x400000) := by
  decide +kernel

/-- 18: the 1,000th LW_PARITY event of SL7 within 0.5 s makes it Minor, and it is the first fault: 0x9007_0007. -/
theorem test_first_fault :
    let d := up.setSrc 0x007 { up.src 0x007 with count := 999, winStart := some (60000000 * frame) }
    after (.faultEvent 0x007 0) (at_ (60004000 * frame + 12000) d) (fun d => regValue d 0 0x30008 == 0x90070007#32
      && regValue d 0 0x3000C == 0x2EE00000#32 && regValue d 0 0x30010 == 0x039396A0#32) := by decide +kernel

/-- FIPS 180-4's digest of "abc", by which the spec's SHA-256 is named (19 R442). -/
theorem test_sha : beNat (sha256 [0x61, 0x62, 0x63])
    = 0xba7816bf8f01cfea414140de5dae2223b00361a396177a9cb410ff61f20015ad := by decide +kernel

/-! ### Hypotheses that rest on what the part fixes (Config): met where its keys and signature are these -/

/-- An image with an empty body, key slot 0, svn 0. -/
def image0 : List Octet :=
  natBe 4 0x45544C4D ++ [0, 1, 0, 0] ++ natBe 4 0 ++ natBe 4 1 ++ [0, 1, 0, 0] ++ natBe 4 0 ++ List.replicate 8 0 ++ sha256 []
    ++ List.replicate 192 0

theorem test_image_checks : (imgHeaderOk image0 && decide (imgKey image0 = 0) && sha256 (image0.drop 256) == (image0.drop 32).take 32
    && imgSvn image0 == 0 && !(imgFlags image0).testBit 1) = true := by decide +kernel

/-- A device whose key slot 0 holds the image's key, and whose verification accepts its signature, takes the image. -/
theorem wit_image_passes (d : Dev) (hs : d.aon.revoked = []) (ha : d.aon.arbStep = 0)
    (hk : Config.keyHash 0 = sha256 ((image0.drop 64).take 64))
    (hv : Config.verifySig ((image0.drop 64).take 64) ((image0.drop 128).take 64) (sha256 (image0.take 128)) = true) :
    imageFault image0 d = none := by
  have h := test_image_checks
  simp only [Bool.and_eq_true, decide_eq_true_eq, beq_iff_eq, Bool.not_eq_true'] at h
  obtain ⟨⟨⟨⟨h1, h2⟩, h3⟩, h4⟩, h5⟩ := h
  simp [imageFault, h1, h2, h3, h4, h5, hs, ha, hk, hv]

/-- ImageLoadStarts: the hypotheses on the message and the state, where the image passes. -/
theorem wit_ImageLoadStarts :
    let m := mk 8 [0, 0, 256, 1]
    let s := at_ 0 up
    let c := cmdFwImageLoad image0
    let x := ctxOf c m s
    Serves m s ∧ LayoutOk c m s ∧ (image0.take (x.w 6).toNat = image0) ∧ s.dev.fab.boot.bank ≠ fld (x.w 7) 0 0
      ∧ s.dev.fab.fw.load = none ∧ (posted c m s).aon.arbStep = 0 ∧ (posted c m s).aon.revoked = [] := by
  decide +kernel

/-- A flash bank that holds the image: what Primrose and FW_ACTIVATE read of it. -/
theorem wit_bank_image : (bankImage (flashWrite [] (bankAddr 1) image0) 1 == image0) = true := by decide +kernel

/-- FW_ACTIVATE of bank 1 with that image: every hypothesis but the image's checks, which wit_image_passes gives. -/
theorem wit_fw_activate :
    let m := mk 8 [1]
    let s := at_ 0 { up with aon := { up.aon with flash := { mem := flashWrite [] (bankAddr 1) image0 } } }
    let c := cmdFwActivate
    Serves m s ∧ LayoutOk c m s ∧ isMember (ctxOf c m s) = false ∧ lockErr (posted c m s) = none ∧ (trigOf c m s).isSome
      ∧ (posted c m s).aon.arbStep = 0 ∧ (posted c m s).aon.revoked = [] ∧ imgProto image0 = 1 ∧ imgDbFormat image0 = 0 := by
  decide +kernel

/-! ### Witnesses -/

def cfgOk (c : Msg → Instr) (e0 : Cmd) (m : Msg) (d : Dev) : Bool :=
  let s := at_ 0 d
  let e := e0.ahead
  decide (Serves m s) && decide (LayoutOk e m s) && !isMember (ctxOf e m s) && (lockErr (posted e m s)).isNone
    && (trigOf e m s).isSome && (changeErr e (ctxOf e m s) (trigOf e m s) (posted e m s)).isNone
    && after (c m) s fun d => (d.chan 0).ack == ackWord rcDeferred 2 0 && d.fab.fw.changes.length == 1
def qryOk (c : Msg → Instr) (e0 : Cmd) (m : Msg) (d : Dev) : Bool :=
  let s := at_ 0 d
  let e := e0.ahead
  let r := e.run (ctxOf e m s) (posted e m s)
  decide (Serves m s) && decide (LayoutOk e m s) && (e.chk (ctxOf e m s) (posted e m s)).isNone && r.code == 0
    && (e.code == 0x0B04 || e.code == 0x0B05 || e.code == 0x0B06 || after (c m) s fun d => (d.chan 0).ack == ackWord rcOk 2 (fragCount r.items))
def actOk (c : Msg → Instr) (e0 : Cmd) (m : Msg) (d : Dev) (code : Nat) : Bool :=
  let s := at_ 0 d
  let e := e0.ahead
  decide (Serves m s) && decide (LayoutOk e m s) && (e.chk (ctxOf e m s) (posted e m s)).isNone
    && (e.code == 0x0A04 || after (c m) s fun d => (d.chan 0).ack == ackWord code 2 0)
def members : Dev := { up with fab := { up.fab with fw := { up.fab.fw with
  sets := [⟨7, 0, [⟨0, 0x0201, 1, [messageWords 0x0201 (mk 8 [8, 0x90000000])]⟩], 0⟩] } } }
def badMembers : Dev := { up with fab := { up.fab with fw := { up.fab.fw with
  sets := [⟨7, 0, [⟨0, 0x0203, 1, [messageWords 0x0203 (mk 8 [8])]⟩], 0⟩] } } }
def commit : Msg := ⟨0, 2, 0, 1, [0x80070000, 0, 0x20]⟩
def vf1 : Dev := { up with fab := { up.fab with mbx := { chans := [(0, { bind := { valid := true, pairEn := true, pair := 32, sender := 1, receiver := 16 } })] } } }

/-- ConfigCommandAccepted: Etlum rows that their hypotheses admit, and their acknowledge ACCEPTED_DEFERRED with handle
0 (16 R383, R395): classes 0x01 and 0x02. -/
theorem wit_config_device_and_lanes :
    (cfgOk .ownerSet cmdOwnerSet (mk 8 [0x01000008, 1]) up) ∧
    (cfgOk .laneConfig cmdLaneConfig (mk 8 [8, 0x90000000]) up) ∧
    (cfgOk .portCreate cmdPortCreate (mk 8 [0x80, 0x13100008]) { dv with fab := { dv.fab with ports := [] } }) ∧
    (cfgOk .portDelete cmdPortDelete (mk 8 [0x80]) dv) ∧
    (cfgOk .traceSet cmdTraceSet (mk 16 [0x80000003, 0x02A00080]) dv) ∧
    (cfgOk .sdhPortConfig cmdSdhPortConfig (mk 8 [0, 0xC0000000]) dv) ∧
    (cfgOk .sdhOhConfig cmdSdhOhConfig (mk 8 [0, 0x13100002]) dv) ∧
    (cfgOk .sdhStructSet cmdSdhStructSet (mk 16 [0, 0x80000000]) dv) ∧
    (cfgOk .otnPortConfig cmdOtnPortConfig (mk 14 [640]) dv) ∧
    (cfgOk .otnStructSet cmdOtnStructSet (mk 8 [10, 0x21]) dv) ∧
    (cfgOk .otnOhConfig cmdOtnOhConfig (mk 8 [640, 0x05200000]) dv) ∧
    (cfgOk .oduTcmConfig cmdOduTcmConfig (mk 8 [10, 0x15000000]) dv) ∧
    (cfgOk .ethPortConfig cmdEthPortConfig (mk 8 [128, 0x80002580]) dv) := by decide +kernel

/-- ConfigCommandAccepted: The FlexE, MTN and watermark rows of class 0x02. -/
theorem wit_config_flexe :
    (cfgOk .flexeGroupConfig cmdFlexeGroupConfig (mk 11 [256, 0x50000001, 1, 0x01000000, 0, 0x01000000, 0]) dv) ∧
    (cfgOk .flexeClientSet cmdFlexeClientSet (mk 16 [256, 20, 0x80000000]) dv) ∧
    (cfgOk .mtnPathConfig cmdMtnPathConfig (mk 8 [21, 0x80000000]) dv) ∧
    (cfgOk .fgChanCreate cmdFgChanCreate (mk 8 [24, 22, 0x000A0002, 1]) dv) ∧
    (cfgOk .fgChanResize cmdFgChanResize (mk 8 [23, 0, 0x00140000]) dv) ∧
    (cfgOk .fgChanDelete cmdFgChanDelete (mk 8 [23]) dv) ∧
    (cfgOk .fcGroupConfig cmdFcGroupConfig (mk 16 [1, 100, 50, 0, 0x80000000 + 30]) dv) := by decide +kernel

/-- ConfigCommandAccepted: Classes 0x03 and 0x04. -/
theorem wit_config_tributaries :
    (cfgOk .tribCreate cmdTribCreate (mk 16 [60, 0x4458003C, 3, 0, 0, 0, 0, 0, 0, 0, 0x80000000, 0]) dv) ∧
    (cfgOk .tribModify cmdTribModify (mk 8 [10, 0xC0000000]) dv) ∧
    (cfgOk .tribEnable cmdTribEnable (mk 8 [10]) dv) ∧
    (cfgOk .tribDisable cmdTribDisable (mk 8 [10]) dv) ∧
    (cfgOk .tribDelete cmdTribDelete (mk 8 [11]) dv) ∧
    (cfgOk .oduflexResize cmdOduflexResize (mk 8 [11, 3700000]) dv) ∧
    (cfgOk .xcConnect cmdXcConnect (mk 16 [0x40000000 + 50, 0x80000000 + 51]) dv) ∧
    (cfgOk .xcDisconnect cmdXcDisconnect (mk 8 [51]) { dv with fab := { dv.fab with xc := [⟨50, 51, 1⟩] } }) := by decide +kernel

/-- ConfigCommandAccepted: Classes 0x05 and 0x06. -/
theorem wit_config_protection_and_queues :
    (cfgOk .pgCreate cmdPgCreate (mk 16 [0x01000002, 0x000A0000, 0x20000033, 0x20000032]) dv) ∧
    (cfgOk .pgModify cmdPgModify (mk 8 [1, 0x400A0000]) dv) ∧
    (cfgOk .pgDelete cmdPgDelete (mk 8 [1]) dv) ∧
    (cfgOk .pgCommand cmdPgCommand (mk 8 [1, 0x20000001]) dv) ∧
    (cfgOk .schedConfig cmdSchedConfig (mk 8 [30, 0x80000000]) dv) ∧
    (cfgOk .queueConfig cmdQueueConfig (mk 15 [30, 0, 16384, 16384, 16384, 1000, 20000, 0, 0, 0, 16384]) dv) ∧
    (cfgOk .classMapSet cmdClassMapSet (mk 8 [30, 0x76543210, 0]) dv) ∧
    (cfgOk .policerSet cmdPolicerSet (mk 9 [0x80000000 + 30, 1000, 2000, 20000, 20000]) dv) ∧
    (cfgOk .gateListSet cmdGateListSet ⟨0, 2, 8, 1, [0x80000000, 0, 100, 30, 0x80010001, 0xFF000100]⟩ dv) := by decide +kernel

/-- ConfigCommandAccepted: Classes 0x07 and 0x08. -/
theorem wit_config_monitoring_and_clocks :
    (cfgOk .pmEpochSet cmdPmEpochSet (mk 8 [0, 0, 0, 0]) up) ∧
    (cfgOk .pmTcaSet cmdPmTcaSet (mk 8 [wd (pathKey 3 + 1), 0, 5]) dv) ∧
    (cfgOk .defectConfig cmdDefectConfig (mk 8 [wd (pathKey 3), 0x50070000, 100]) dv) ∧
    (cfgOk .clkSlotConfig cmdClkSlotConfig (mk 8 [0, 0x10001111, 0]) up) ∧
    (cfgOk .clkDpllConfig cmdClkDpllConfig (mk 8 [1, 0x20000000, 0x80000000]) up) ∧
    (cfgOk .clkOutConfig cmdClkOutConfig (mk 8 [0, 1]) up) ∧
    (cfgOk .clkHistoryReset cmdClkHistoryReset (mk 8 [1]) up) ∧
    (cfgOk .clkDeviceConfig cmdClkDeviceConfig (mk 8 [0, 0x40000020]) up) := by decide +kernel

/-- QueriesAnswered: Queries in mailbox mode that their hypotheses admit, and their acknowledge OK with the fragment
count. -/
theorem wit_queries :
    (qryOk .deviceInfoGet cmdDeviceInfoGet (mk 8 []) up) ∧
    (qryOk .lastErrorGet cmdLastErrorGet (mk 8 []) up) ∧
    (qryOk .laneStatusGet cmdLaneStatusGet (mk 8 [8]) dv) ∧
    (qryOk .portStatusGet cmdPortStatusGet (mk 8 [0]) dv) ∧
    (qryOk .portPartnerGet cmdPortPartnerGet (mk 8 [0]) dv) ∧
    (qryOk .otnPortStatusGet cmdOtnPortStatusGet (mk 8 [640]) dv) ∧
    (qryOk .flexeStatusGet cmdFlexeStatusGet (mk 8 [256]) dv) ∧
    (qryOk .tribStatusGet cmdTribStatusGet (mk 8 [10]) dv) ∧
    (qryOk .xcGet cmdXcGet (mk 8 [10]) dv) ∧
    (qryOk .pgStatusGet cmdPgStatusGet (mk 8 [1]) dv) ∧
    (qryOk .queueStatsGet cmdQueueStatsGet (mk 8 [30]) dv) ∧
    (qryOk .queueHwmGet cmdQueueHwmGet (mk 8 [30, 1]) dv) := by decide +kernel

/-- QueriesAnswered: The same of the rest of the queries; of the three that carry what the part fixes, the hypotheses.
-/
theorem wit_queries_of_the_device :
    (qryOk .pmBinGet cmdPmBinGet (mk 8 [wd (pathKey 3), 0x01000000]) dv) ∧
    (qryOk .pmLedgerGet cmdPmLedgerGet (mk 8 [0, 0, 1]) dv) ∧
    (qryOk .clkStatusGet cmdClkStatusGet (mk 8 []) up) ∧
    (qryOk .govStatusGet cmdGovStatusGet (mk 8 []) up) ∧
    (qryOk .govLedgerGet cmdGovLedgerGet (mk 8 []) up) ∧
    (qryOk .recRead cmdRecRead (mk 8 [0, 0, 1]) { up with aon := { up.aon with fmn := { log := [⟨0, 0, [], false⟩], next := 1 } } }) ∧
    (qryOk .recDumpRead cmdRecDumpRead (mk 8 [0, 1]) up) ∧
    (qryOk .certGet cmdCertGet (mk 8 []) up) ∧
    (qryOk .attestQuote cmdAttestQuote (mk 13 []) up) ∧
    (qryOk .cfgDigestGet cmdCfgDigestGet (mk 8 []) up) := by decide +kernel

/-- QueriesAnswered: FW_INFO_GET over two banks whose headers give an empty body. -/
theorem wit_query_of_firmware :
    (qryOk .fwInfoGet cmdFwInfoGet (mk 8 []) { up with aon := { up.aon with flash := { mem := (List.range 12).map (fun i => (0x100000 + i, 0)) ++ (List.range 12).map (fun i => (0x500000 + i, 0)) } } }) := by decide +kernel

/-- QueriesAnswered: A query in host-memory mode with room for its result, at address 0x1000. -/
theorem wit_query_in_host_memory :
    (let m : Msg := ⟨0, 2, 0, 1, [0x40000010, 0, 0x1000, 0]⟩
     let s := at_ 0 up
     let r := cmdLastErrorGet.run (ctxOf cmdLastErrorGet m s) (posted cmdLastErrorGet m s)
     Serves m s
     ∧ LayoutOk cmdLastErrorGet m s
     ∧ fld ((ctxOf cmdLastErrorGet m s).w 1) 31 30 = 1
     ∧ hostUnits r.items ≤ fld ((ctxOf cmdLastErrorGet m s).w 1) 15 0
     ∧ after (.lastErrorGet m) s (fun d => d.fab.hostMem.length == 1 && (d.fab.hostMem.headD (0, [])).1 == 0x1000)) := by decide +kernel

/-- Actions: Actions that their hypotheses admit, with their acknowledges. -/
theorem wit_actions :
    (actOk .csAbort cmdCsAbort (mk 8 [7]) members rcOk) ∧
    (actOk .cfgLock cmdCfgLock (mk 8 [1]) up rcOk) ∧
    (actOk .deviceConfig cmdDeviceConfig (mk 8 [0x80000000]) up rcOk) ∧
    (actOk .deviceStandby cmdDeviceStandby (mk 8 [0x53544259]) up rcOk) ∧
    (actOk .echo cmdEcho (mk 8 [1, 2, 3, 4]) up rcOk) ∧
    (actOk .govMigrate cmdGovMigrate (mk 8 [31, 1]) { dv with fab := { dv.fab with pd := { dv.fab.pd with slices := [(0, ⟨.on, 0⟩), (1, ⟨.on, 0⟩)] } } } rcDeferred) ∧
    (actOk .recMark cmdRecMark (mk 8 [1, 2, 3, 4]) up rcOk) ∧
    (actOk .recDumpClear cmdRecDumpClear (mk 8 [0x434C5244]) up rcOk) ∧
    (actOk .debugUnlock cmdDebugUnlock (mk 8 [0x44424755]) up rcOk) := by decide +kernel

/-- ChangeSets: 16 R390: the first member opens the set, a second joins it; a commit accepts every member, or names
the one that fails. -/
theorem wit_change_sets :
    (let m : Msg := ⟨0, 2, 0, 1, [0x40070000, 0, 0, 8, 0x90000000]⟩
     isMember (ctxOf cmdLaneConfig.ahead m (at_ 0 up))
     ∧ Serves m (at_ 0 up)
     ∧ LayoutOk cmdLaneConfig.ahead m (at_ 0 up)
     ∧ after (.laneConfig m) (at_ 0 up) (fun d => (d.chan 0).ack == 0x00020000#32 && d.fab.fw.sets.length == 1)
     ∧ after (.laneConfig m) (at_ 0 members) (fun d => (d.chan 0).ack == 0x00020001#32)) ∧
    (Serves commit (at_ 0 members)
     ∧ LayoutOk (cmdCsCommit cmdFor) commit (at_ 0 members)
     ∧ after (.csCommit commit) (at_ 0 members) (fun d => (d.chan 0).ack == ackWord rcDeferred 2 0 && d.fab.fw.changes.map (fun c => (c.handle, c.mem)) == [(nextHandle members, 0)] && d.fab.fw.sets.isEmpty)) ∧
    (Serves commit (at_ 0 badMembers)
     ∧ LayoutOk (cmdCsCommit cmdFor) commit (at_ 0 badMembers)
     ∧ after (.csCommit commit) (at_ 0 badMembers) (fun d => (d.chan 0).ack == ackWord rcBadArg 2 0 && d.fab.fw.changes.isEmpty && d.fab.fw.sets.isEmpty)) := by decide +kernel

/-- ChangeSets: 16 R392: a fragment that is not the last is held. -/
theorem wit_held_fragment :
    (let c := cmdTraceSet.ahead
     let m := mk 16 [0x80000003, 0x02A00000]
     let ws := messageWords c.code m
     Serves m (at_ 0 dv)
     ∧ (traceFrag ws).last = false
     ∧ follows c m (at_ 0 dv)
     ∧ layoutErr c ws = none
     ∧ permitted c ⟨0, 0, 0, [ws]⟩ (afterPost c m (at_ 0 dv))
     ∧ after (.traceSet m) (at_ 0 dv) (fun d => (d.chan 0).ack == ackWord rcOk 2 0 && (d.chan 0).frag == some ⟨0x0209, 0x80000003, [ws], 0⟩)) := by decide +kernel

/-- RefusalOrder: 16 R380: version, layout, permission, lock; 15 R369: a repeated tag. -/
theorem wit_refusals :
    (whole cmdLaneConfig.ahead ⟨0, 2, 0, 2, []⟩ (at_ 0 up)
     ∧ after (.laneConfig ⟨0, 2, 0, 2, []⟩) (at_ 0 up) (fun d => (d.chan 0).ack == ackWord rcBadOpcode 2 0)) ∧
    (layoutErr cmdLaneConfig.ahead (messageWords 0x0201 (mk 8 [0x00000080, 0])) = some (badArg 4 7)
     ∧ after (.laneConfig (mk 8 [0x00000080, 0])) (at_ 0 up) (fun d => (d.chan 0).ack == ackWord rcBadArg 2 0x0407)) ∧
    (permitted cmdLaneConfig.ahead (ctxOf cmdLaneConfig.ahead (mk 8 [8]) (at_ 0 vf1)) (posted cmdLaneConfig.ahead (mk 8 [8]) (at_ 0 vf1)) = false
     ∧ Serves (mk 8 [8]) (at_ 0 vf1)
     ∧ after (.laneConfig (mk 8 [8])) (at_ 0 vf1) (fun d => (d.chan 0).ack == ackWord rcNotPermitted 2 0)) ∧
    (let d : Dev := { up with fab := { up.fab with fw := { up.fab.fw with cfgLock := true } } }
     LayoutOk cmdLaneConfig.ahead (mk 8 [8]) (at_ 0 d)
     ∧ after (.laneConfig (mk 8 [8])) (at_ 0 d) (fun d => (d.chan 0).ack == ackWord rcLocked 2 0)) ∧
    (let d := up.modChan 0 fun x => { x with lastAck := some (2, 0x00021234) }
     FwRuns (at_ 0 d)
     ∧ mayPost d 0
     ∧ (servingCore d 0).isSome
     ∧ after (.laneConfig (mk 8 [8, 0x90000000])) (at_ 0 d) (fun d => (d.chan 0).ack == 0x00021234 && d.fab.fw.changes.isEmpty)) := by decide +kernel

def acc (data : Word) : Acc := ⟨0, data, true⟩
/-- A message of tag 0x55 stands on channel 0. -/
def held : Dev := up.modChan 0 fun x => { x with posted := true, data := lset x.data 0 0x01095511 }
def onAon (f : Aon → Aon) (d : Dev) : Dev := { d with aon := f d.aon }
def coll (f : Coll → Coll) : Dev := onAon (fun a => { a with coll := f a.coll }) up
/-- The device with its first image still to boot. -/
def boot (b : Boot) : Dev := { fab := { boot := b } }

/-- MailboxAccesses: 15 R365-R368. -/
theorem wit_mailbox_accesses :
    (let a := acc 7
     Runs (at_ 0 up)
     ∧ admits up 0 0x1003C true
     ∧ after (.mbxDataWrite a 0 15) (at_ 0 up) (fun d => (d.chan 0).data.getD 15 0 == 7)
     ∧ (held.chan 0).posted
     ∧ after (.mbxDataWrite a 0 15) (at_ 0 held) (fun d => (d.chan 0).data.getD 15 0 == 0 && d.aon.lateWrite == 1 && (d.chan 0).sts.has 20)) ∧
    (let a := acc 0x80000000
     admits up 0 0x10040 true
     ∧ bitAt a.data 31
     ∧ after (.mbxGoWrite a 0) (at_ 0 up) (fun d => (d.chan 0).posted && !(d.chan 0).ackValid)
     ∧ after (.mbxGoWrite a 0) (at_ 0 held) (fun d => (d.chan 0).posted && (d.chan 0).sts.has 19)) ∧
    (let a : Acc := ⟨16, 0x00550000, true⟩
     admits held 16 0x1004C true
     ∧ after (.mbxAckwWrite a 0) (at_ 0 held) (fun d => !(d.chan 0).posted && (d.chan 0).ackValid && (d.chan 0).ack == 0x00550000)
     ∧ after (.mbxAckwWrite a 0) (at_ 0 up) (fun d => (d.chan 0).sts.has 18)) ∧
    (admits held 16 0x10000 false
     ∧ isReceiver held 16 0
     ∧ after (.mbxData0Read ⟨16, 0, true⟩ 0) (at_ 0 held) (fun d => (d.chan 0).taken && d.fab.bus == ⟨0x01095511, false⟩)) ∧
    (let d := up.modChan 63 fun x => { x with sts := ⟨0x3A, 0x100000⟩ }
     admits d 0 (0x10048 + 63 * 0x100) true
     ∧ after (.mbxStsWrite (acc 0x3A100000) 63) (at_ 0 d) (fun d => (d.chan 63).sts == ⟨0x3A, 0⟩)) := by decide +kernel

/-- SequencedStatusWrites: 17 R399, R409: the sequenced status registers, and 18 R420. -/
theorem wit_status_writes :
    (admits up 0 0x20000 true
     ∧ after (.irqStsWrite (acc 0x01800000)) (at_ 0 { up with fab := { up.fab with irq := { sts := ⟨1, 0xC00000⟩ } } }) (fun d => d.fab.irq.sts == ⟨1, 0x400000⟩)) ∧
    (admits up 0 0x50010 true
     ∧ after (.pwrStsWrite (acc 0x02800000)) (at_ 0 (onAon (fun a => { a with pwr := { sts := ⟨1, 0xC00000⟩ } }) up)) (fun d => d.aon.pwr.sts == ⟨1, 0xC00000⟩)) ∧
    (admits up 0 0x60030 true
     ∧ after (.clkStsWrite (acc 0x01800000)) (at_ 0 (onAon (fun a => { a with clk := { sts := ⟨1, 0x800000⟩ } }) up)) (fun d => d.aon.clk.sts == ⟨1, 0⟩)) ∧
    (admits up 0 0x70000 true
     ∧ after (.recStsWrite (acc 0x01400000)) (at_ 0 (onAon (fun a => { a with fmn := { sts := ⟨1, 0x400000⟩ } }) up)) (fun d => d.aon.fmn.sts == ⟨1, 0⟩)) ∧
    (admits up 0 0x30000 true
     ∧ after (.fltStsWrite (acc 0x01040000)) (at_ 0 (coll fun c => { c with sts := ⟨1, 0x040000⟩, first := ⟨true, 2, 3, 9, 1⟩ })) (fun d => d.aon.coll.sts == ⟨1, 0⟩ && d.aon.coll.first == {})) := by decide +kernel

/-- RegisterWrites: 17 R402, R404, R412-R414. -/
theorem wit_register_writes :
    (after (.registerWrite (acc 0xFFFFFFFF) 0x20) (at_ 0 up) (fun d => d.fab.scratch == 0xFFFFFFFF)
     ∧ after (.registerWrite (acc 0xFFFFFFFF) 0x50000) (at_ 0 up) (fun d => d.aon.pwr.cap == 0x8FFFFFFF)
     ∧ after (.registerWrite (acc 0xFFFFFFFF) 0x50004) (at_ 0 up) (fun d => d.aon.pwr.policy == 0xF8FFFFFF)
     ∧ after (.registerWrite (acc 5) 0x50008) (at_ 0 up) (fun d => d.aon.pwr.pack == 5)
     ∧ after (.registerWrite (acc 0) 0x20008) (at_ 0 up) (fun d => d.fab.irq.alertEn == 0)
     ∧ after (.registerWrite (acc 5) 0x70010) (at_ 0 up) (fun d => d.aon.fmn.slot == up.aon.fmn.slot && d.fab.scratch == 0)) ∧
    (after (.bitAliasWrite (acc 1) (0x1000000 + 0x30000 * 32 + 4 * 31)) (at_ 0 up) (fun d => d.aon.pwr.cap == 0x86401464)
     ∧ after (.bitAliasWrite (acc 0) (0x1000000 + 0x30000 * 32 + 4 * 2)) (at_ 0 up) (fun d => d.aon.pwr.cap == 0x06401460)) ∧
    (after (.idnLockWrite (acc 0xC0000000)) (at_ 0 up) (fun d => d.fab.dbgLock && d.fab.i2cLock && d.aon.lockViolation == 0)) ∧
    (let d : Dev := { up with fab := { up.fab with dbgLock := true } }
     after (.idnLockWrite (acc 0)) (at_ 0 d) (fun d => d.fab.dbgLock && d.aon.lockViolation == 1)) := by decide +kernel

/-- Captures: 17 R405, R406; 18 R431, R435. -/
theorem wit_captures :
    (let d : Dev := { up with fab := { up.fab with wv := [(11, { index := 0, busy := true })] } }
     (tgetD up.fab.wv 11 {}).busy = false
     ∧ after (.wvSelWrite (acc 5) 11) (at_ 0 up) (fun d => (tgetD d.fab.wv 11 {}).busy)
     ∧ (tgetD d.fab.wv 11 {}).busy
     ∧ after (.wvSelWrite (acc 5) 11) (at_ 0 d) (fun d => (tgetD d.fab.wv 11 {}).index == 0 && d.aon.lateWrite == 1)
     ∧ after (.wvCaptureComplete 11) (at_ 70000 d) (fun d => (tgetD d.fab.wv 11 {}).valid && !(tgetD d.fab.wv 11 {}).busy)) ∧
    (let d := coll fun c => { c with sel := { c.sel with source := 0x162, busy := true }, src := [(0x162, { total := 4, pending := true })] }
     after (.fltSrcSelWrite (acc 0x162)) (at_ 0 up) (fun d => d.aon.coll.sel.busy && d.aon.coll.sel.source == 0x162)
     ∧ after .fltSrcCaptureComplete (at_ 0 d) (fun d => d.aon.coll.sel.valid && d.aon.coll.sel.total == 4 && d.aon.coll.sel.pending)) ∧
    (let d := onAon (fun a => { a with fmn := { log := [⟨3, 9, [1, 2], false⟩], next := 4, slot := 3, busy := true } }) up
     after (.recSelWrite (acc 3)) (at_ 0 up) (fun d => d.aon.fmn.busy && d.aon.fmn.slot == 3)
     ∧ (ringRecord d 3).isSome
     ∧ after .recCaptureComplete (at_ 0 d) (fun d => d.aon.fmn.valid && d.aon.fmn.data == [1, 2])
     ∧ after (.recData7Read (acc 0)) (at_ 0 up) (fun d => d.aon.fmn.busy && d.aon.fmn.slot == 65535)
     ∧ after (.recHeadHiRead (acc 0)) (at_ 0 d) (fun d => d.aon.fmn.headLo == wd d.aon.fmn.newest)) := by decide +kernel

/-- CollectorWrites: 18 R421, R423, R430. -/
theorem wit_collector_writes :
    (let d := coll fun c => { c with src := [(5, { pending := true })], fenced := [1], lost := [2] }
     after (.fltAckWrite (acc 5)) (at_ 0 d) (fun d => !(d.src 5).pending)
     ∧ d.aon.coll.ret.busy = false
     ∧ returnRefused 1 d = false
     ∧ after (.fltReturnWrite (acc 1)) (at_ 0 d) (fun d => d.aon.coll.ret.busy && d.aon.coll.ret.unit == 1)
     ∧ returnRefused 3 d
     ∧ after (.fltReturnWrite (acc 3)) (at_ 0 d) (fun d => d.aon.coll.ret.result == 3 && d.aon.coll.sts.has 19)) ∧
    (after (.fltInjWrite (acc 0x00030005)) (at_ 0 up) (fun d => d.aon.coll == up.aon.coll)
     ∧ after (.fltInjWrite (acc 0x00030005)) (at_ 0 (coll fun c => { c with factory := true })) (fun d => d.aon.coll.injUnit == 3 && d.aon.coll.injSource == 5)) ∧
    (let d := coll fun c => { c with ret := ⟨1, true, 0, 0⟩, fenced := [1], src := [(1, { rise := 1, count := 2, winStart := some 0 })] }
     d.aon.coll.ret.busy
     ∧ after (.selfTestComplete true) (at_ (16 * frame) d) (fun d => d.aon.coll.fenced == [] && d.aon.coll.ret.result == 1 && (d.src 1).rise == 0)
     ∧ after (.selfTestComplete false) (at_ (16 * frame) d) (fun d => d.aon.coll.fenced == [1] && d.aon.coll.ret.result == 2)) := by decide +kernel

/-- MissRemapHold: 15 R361, R362; 17 R410. -/
theorem wit_miss_remap_hold :
    (let x : Miss := ⟨16, 0x50000, false, true⟩
     fencedMaster up 16 = false
     ∧ busAdmits up x = false
     ∧ after (.decodeMiss x) (at_ 0 up) (fun d => d.fab.bus == ⟨0, true⟩ && d.aon.coll.miss == ⟨true, false, 16, 0x50000⟩)
     ∧ after (.decodeMiss ⟨0, 0x30100000, true, false⟩) (at_ 0 up) (fun d => d.fab.bus == up.fab.bus && d.aon.coll.miss == ⟨true, true, 0, 0x30100000⟩)
     ∧ busAdmits up ⟨0, 0x30000020, true, true⟩
     ∧ fencedMaster (coll fun c => { c with fenced := [0x38] }) 16) ∧
    (coreRuns up 0
     ∧ after (.remapClrWrite 0 1) (at_ 0 up) (fun d => !(d.core 0).remap)) ∧
    (let d := fun b => { up with fab := { up.fab with irq := { msix := [(3, { holds := [(7, b)], table := (List.range 196).map fun i => (i, 0) })] } } }
     (tgetD (d true).fab.irq.msix 3 {}).holds.find? (·.1 == 7) = some (7, true)
     ∧ (tgetD (d true).fab.irq.msix 3 {}).masked 7 = false
     ∧ after (.msixHoldEnd 3 7) (at_ 0 (d true)) (fun d => d.fab.irq.sent == [(3, 7)])
     ∧ after (.msixHoldEnd 3 7) (at_ 0 (d false)) (fun d => d.fab.irq.sent == [] && (tgetD d.fab.irq.msix 3 {}).holds.isEmpty)) := by decide +kernel

/-- Resets: 19 R436, R437; 18 R428. -/
theorem wit_resets :
    (let d := onAon (fun a => { a with arbStep := 3, revoked := [1], snowdrop := false }) up
     let p : PorPins := ⟨true, false, 2, 4, true⟩
     after (.aonPowerOnReset .porPin p) (at_ 99 d) (fun d => d.aon.bootCount == 2 && d.aon.arbStep == 3 && d.fab.boot.bootsel && d.aon.oscsel)
     ∧ after (.aonPowerOnReset .aonSupply p) (at_ 99 (onAon (fun a => { a with snowdrop := true }) up)) (fun d => !d.aon.snowdrop)
     ∧ after (.aonPowerOnReset .porPin p) (at_ 99 (onAon (fun a => { a with snowdrop := true }) up)) (fun d => d.aon.snowdrop && d.fab.boot.running)) ∧
    (let d := onAon (fun a => { a with coll := { a.coll with fenced := [1], src := [(0x158, { rise := 1 }), (2, { rise := 1, total := 5, pending := true })] } }) up
     after (.systemReset true) (at_ 99 d) (fun d => d.fab.boot == { afterPor := false, bootsel := true } && d.aon.coll.fenced.isEmpty && (d.src 0x158).rise == 0 && (d.src 2).rise == 1 && (d.src 2).total == 5 && !(d.src 2).pending)) ∧
    (let d := onAon (fun a => { a with standby := true }) up
     after (.wakeN false) (at_ 99 d) (fun d => !d.aon.standby)
     ∧ after (.i2cWakeCommand true) (at_ 99 d) (fun d => !d.aon.standby && d.fab.boot.bootsel)
     ∧ after (.wakeN false) (at_ 99 up) (fun d => d.fab.boot.running)) := by decide +kernel

/-- MasterResets: 15 R373-R375; 16 R390: the receiver, the sender, both and neither. -/
theorem wit_master_resets :
    (let b := fun tx rx : Nat => ({ valid := true, sender := tx, receiver := rx } : Bind)
     let ch := fun tx rx : Nat => ({ bind := b tx rx, posted := true, data := lset (List.replicate 16 0) 0 0x01095511 } : Chan)
     let d : Dev := { up with fab := { up.fab with mbx := { chans := [(0, ch 16 3), (1, ch 3 16), (2, ch 3 3), (63, ch 20 16)] }, fw := { sets := [⟨1, 3, [], 0⟩] } } }
     let k := fun (d : Dev) => (d.chan 0).ack == 0xE0550000 && !(d.chan 0).posted && (d.chan 1).orphan && (d.chan 1).posted && !(d.chan 2).posted && (d.chan 2).ack == 0
     && (d.chan 63).posted && !(d.chan 63).orphan && d.fab.fw.sets.isEmpty
     Runs (at_ 0 d)
     ∧ after (.vfFlr 3) (at_ 0 d) k
     ∧ after (.pcieReset .linkDown) (at_ 0 d) k
     ∧ after .i2cPortReset (at_ 0 d) (fun d => (d.chan 63).orphan && (d.chan 1).posted && !(d.chan 1).orphan)) := by decide +kernel

/-- BootStages: 19 R438, R439, R445. -/
theorem wit_boot_stages :
    (let s := fun b => at_ 0 (boot b)
     let st := fun (n : Nat) (d : Dev) => d.fab.boot.stage == BitVec.ofNat 8 n
     after (.bootStage ⟨true, []⟩) (s { stage := 0 }) (fun d => st 1 d && coreRuns d 3)
     ∧ after (.bootStage ⟨true, []⟩) (s { stage := 1 }) (st 2)
     ∧ after (.bootStage ⟨false, []⟩) (s { stage := 1 }) (fun d => d.fab.boot.failed && d.fab.boot.result == 2)
     ∧ after (.bootStage ⟨true, []⟩) (s { stage := 2 }) (st 3)
     ∧ after (.bootStage ⟨true, []⟩) (s { stage := 3 }) (st 4)) ∧
    (let s := fun b => at_ 0 (boot b)
     let st := fun (n : Nat) (d : Dev) => d.fab.boot.stage == BitVec.ofNat 8 n
     after (.bootStage ⟨true, []⟩) (s { stage := 4, bootsel := true }) (fun d => st 5 d && d.fab.boot.source == 2)
     ∧ after (.bootStage ⟨true, List.range 16⟩) (s { stage := 4 }) (fun d => d.fab.boot.failed && d.fab.boot.result == 4)
     ∧ after (.bootStage ⟨true, []⟩) (s { stage := 5, source := 1 }) (st 6)
     ∧ after (.bootStage ⟨true, []⟩) (s { stage := 5, source := 2 }) (st 5)
     ∧ imageFault [1] (boot {}) = some 1
     ∧ after (.bootStage ⟨true, []⟩) (s { stage := 6, source := 2, image := [1] }) (fun d => d.fab.boot.failed && d.fab.boot.result == 8)) ∧
    (let s := fun b => at_ 0 (boot b)
     after (.bootStage ⟨true, []⟩) (s { stage := 7 }) (fun d => d.fab.boot.stage == 8)
     ∧ Runs (s { stage := 8 })
     ∧ (s { stage := 8 }).dev.fab.boot.failed = false) ∧
    (let m := (List.range 12).map (fun i => (0x100000 + i, (0 : Octet))) ++ (List.range 12).map (fun i => (0x500000 + i, 0))
     let d : Dev := { boot { stage := 6, source := 1 } with aon := { flash := { mem := m } } }
     imageFault (bankImage m 0) d ≠ none
     ∧ imageFault (bankImage m 1) d ≠ none
     ∧ after (.bootStage ⟨true, []⟩) (at_ 0 d) (fun d => d.fab.boot.failed && d.fab.boot.result == 3)) := by decide +kernel

/-- CoreRows: 14 R332; 15 R372; 18 R424. -/
theorem wit_cores :
    (let d : Dev := { up with fab := { up.fab with cores := [(0, { running := true }), (3, { on := false })], mbx := { chans := [(1, { waking := true, bind := { valid := true, sender := 0, receiver := 19 } })] } } }
     receiverOf d 1 = 16 + 3
     ∧ after (.coreWakeComplete 3) (at_ 0 d) (fun d => coreRuns d 3)) ∧
    (let d : Dev := { up with fab := { up.fab with cores := [(0, { running := true }), (3, { running := true })] } }
     coreRuns d 3
     ∧ (List.range 64).all (fun ch => !(d.chan ch).posted)
     ∧ after (.corePowerDown 3) (at_ 0 d) (fun d => !(d.core 3).on)
     ∧ after (.corePowerDown 0) (at_ 0 d) (fun d => coreRuns d 0)
     ∧ after .cryptoPowerDown (at_ (2 * frame * 8) { d with fab := { d.fab with pd := { crypto := true } } }) (fun d => !d.fab.pd.crypto)
     ∧ after (.coreWdog 3) (at_ 0 d) (fun d => d.aon.coll.fenced.contains 0x3B && !coreRuns d 3 && d.fab.fw.restarts == 1 && (d.src 0x153).total == 1)
     ∧ after (.coreExc 3) (at_ 0 d) (fun d => d.aon.coll.fenced.contains 0x3B && !coreRuns d 3 && (d.src 0x157).total == 1)) ∧
    (let d : Dev := { coll (fun c => { c with fenced := [0x38] }) with fab := { up.fab with cores := [(0, { restarting := true })] } }
     (d.core 0).restarting
     ∧ after (.coreRestartComplete 0) (at_ 0 d) (fun d => coreRuns d 0 && d.aon.coll.fenced.isEmpty)) := by decide +kernel

def fw (f : Fw → Fw) : Dev := { up with fab := { up.fab with fw := f up.fab.fw } }
def chg (code : Nat) (trig : Time) (o : Obj) (ps : List Part) (ws : List Word) : Change :=
  { handle := 5, ch := 0, sender := 0, code := BitVec.ofNat 16 code, tag := 2, msgs := [messageWords code (mk 8 ws)], obj := o, trig := trig, accepted := 0, parts := ps }
/-- Banks whose headers give an empty body. -/
def shortBanks : List (Nat × Octet) := (List.range 12).map (fun i => (0x100000 + i, 0)) ++ (List.range 12).map (fun i => (0x500000 + i, 0))
def clk (f : Clk → Clk) : Dev := onAon (fun a => { a with clk := f a.clk }) up
def gov (g : Gov → Gov) (p : PwrRegs → PwrRegs) (x : Sense → Sense) : Dev := onAon (fun a => { a with gov := g a.gov, pwr := p a.pwr, sense := x a.sense }) up
def cool : List (BitVec 16) := List.replicate 64 400
def rail : List RailSample := (List.range 16).map fun _ => ⟨670, 1000⟩

/-- ImagesAndAntiRollback: 19 R444, R449-R451. -/
theorem wit_images :
    (let d := fw fun f => { f with load := some ⟨0, 5, 9, 1, [7, 8]⟩ }
     after (.fwImageLoadComplete true) (at_ 0 d) (fun d => d.fab.fw.load.isNone && flashGet d.aon.flash.mem 0x500001 == 8 && ((d.chan 32).outs.length == 1))
     ∧ after (.fwImageLoadComplete false) (at_ 0 d) (fun d => d.fab.fw.load.isNone && (d.chan 32).outs.length == 1)) ∧
    (let d := fw fun f => { f with changes := [chg 0x0B03 0 .dev [.own] [1]] }
     262144 % (8 * frame) = 0
     ∧ after .fwActivateBoundary (at_ 262144 d) (fun d => d.fab.fw.activating == some (1, 262144) && !coreRuns d 0 && d.fab.fw.changes.isEmpty)) ∧
    (let d := { fw (fun f => { f with activating := some (1, 0) }) with aon := { flash := { mem := shortBanks } } }
     Runs (at_ 0 d)
     ∧ d.fab.fw.activating = some (1, 0)
     ∧ after .activationComplete (at_ (sec 2 - 1) { d with fab := { d.fab with fw := { d.fab.fw with activating := some (1, 0) } } }) (fun d => d.fab.fw.activating.isNone && d.aon.flash.activeBank == 1 && coreRuns d 0)
     ∧ after .activationFallback (at_ (sec 2) d) (fun d => d.fab.fw.activating.isNone && d.aon.flash.activeBank == 0 && coreRuns d 0)) ∧
    (let img : List Octet := List.replicate 16 0 ++ [9, 0, 0, 0x30]
     let d := { up with fab := { up.fab with boot := { up.fab.boot with image := img } } }
     after .arbBurn (at_ (sec 600) d) (fun d => d.aon.arbStep == 9 && d.aon.revoked == [1])
     ∧ after .arbBurn (at_ 0 d) (fun d => d.aon.arbStep == 0)) ∧
    (after .testPin (at_ (sec 10) (onAon (fun a => { a with testMode := true }) up)) (fun d => (d.src 0x174).total == 1)
     ∧ after .testPin (at_ (sec 10) up) (fun d => (d.src 0x174).total == 0)) := by decide +kernel

/-- FaultEscalation: 18 R418-R421: a source at the boundaries of its window, an event of Info and one of Major class.
-/
theorem wit_fault_escalation :
    (let i : SrcInfo := ⟨5, 0, some (1000, sec 1), 2⟩
     srcInfo 5 = some i
     ∧ (Src.step { count := 998, winStart := some 10, last := some 10 } i 20).1.count = 999
     ∧ (Src.step { count := 999, winStart := some 10, last := some 10 } i (9 + sec 1)).1 = { total := 1, rise := 1, last := some (9 + sec 1) }
     ∧ (Src.step { rise := 2, count := 999, winStart := some 10, last := some 10 } i 20).1.rise = 2
     ∧ (Src.step { rise := 1, count := 3, winStart := some 10, last := some 10 } i (10 + sec 1)).1.count = 1
     ∧ (Src.step { rise := 1, count := 3, last := some 10 } i (10 + 16 * sec 1)).1.rise = 0) ∧
    (srcInfo 0x169 = some ⟨0xFF, 0, none, 0⟩
     ∧ after (.faultEvent 0x169 7) (at_ 0 up) (fun d => (d.src 0x169).total == 1 && d.aon.coll.sts.has 17 && !d.aon.coll.first.valid)
     ∧ after (.faultEvent 0x162 7) (at_ 0 up) (fun d => (d.src 0x162).pending && d.fab.irq.sts.has 23 && d.aon.coll.first == ⟨true, 2, 0xFF, 0x162, 0⟩)
     ∧ after (.faultEvent 0x162 7) (at_ 9 (coll fun c => { c with first := ⟨true, 1, 1, 1, 1⟩ })) (fun d => d.aon.coll.first == ⟨true, 1, 1, 1, 1⟩)) := by decide +kernel

/-- MajorAndGrave: 18 R421, R422, R426, R427: a slice, a lane group, a bank; then the four Grave sources. -/
theorem wit_major_and_grave :
    (let d := { dv with fab := { dv.fab with tribs := [(11, { typ := 8, unit := 3 })], pd := { dv.fab.pd with slices := [(3, ⟨.on, 0⟩)] } } }
     srcInfo 0x103 = some ⟨3, 2, none, 2⟩
     ∧ after (.faultEvent 0x103 0) (at_ 0 d) (fun d => d.aon.coll.fenced == [3] && (d.slice 3).st == .off && d.aon.coll.sts.has 22)) ∧
    (srcInfo 0x121 = some ⟨0x21, 2, none, 2⟩
     ∧ after (.faultEvent 0x121 0) (at_ 0 dv) (fun d => d.aon.coll.fenced == [0x21] && (d.lane 8).st == .down)) ∧
    (let d := coll fun c => { c with src := [(0xF7, { count := 15, winStart := some 0, last := some 0 })] }
     srcInfo 0xF7 = some ⟨0x37, 1, some (16, sec 1), 2⟩
     ∧ ((d.src 0xF7).step ⟨0x37, 1, some (16, sec 1), 2⟩ 1).1.rise = 1
     ∧ after (.faultEvent 0xF7 0) (at_ 1 d) (fun d => d.aon.coll.fenced == [0x37] && (tgetD d.fab.pd.banks 7 {}).st == .off)) ∧
    (let k := fun (n : Nat) (d : Dev) => d.aon.snowdrop && d.aon.graveSource == n && d.aon.fmn.frozen && !coreRuns d 0 && d.fab.xoff == 0xFFFF
     after (.faultEvent 0x178 0) (at_ 3 up) (k 0x178)
     ∧ after (.faultEvent 0x17B 0) (at_ 3 up) (k 0x17B)
     ∧ after .heartbeatTimeout (at_ 3 up) (k 0x17A)
     ∧ after .oscLoss (at_ 3 up) (k 0x179)) ∧
    (let d := onAon (fun a => { a with snowdrop := true }) up
     after (.faultEvent 0x179 0) (at_ 3 d) (fun d => (d.src 0x179).total == 1 && d.aon.graveSource == 0)) := by decide +kernel

/-- FaultTimersAndRecorder: 18 R418, R427, R433, R434; 17 R408. -/
theorem wit_fault_timers :
    (let d := coll fun c => { c with src := [(5, { rise := 1, count := 7, winStart := some 0, last := some 0 })] }
     after (.faultWindowEnd 5) (at_ (sec 1) d) (fun d => (d.src 5).count == 0 && (d.src 5).rise == 1)
     ∧ after (.faultClassDecay 5) (at_ (16 * sec 1) d) (fun d => (d.src 5).rise == 0)) ∧
    (let d : Dev := { up with fab := { up.fab with scratch := 9 } }
     after (.configScrub ⟨[⟨0x20, false⟩], []⟩) (at_ 0 d) (fun d => d.fab.scratch == 9 && d.aon.cfgMismatch == 1 && (d.src 0x162).total == 1)
     ∧ isOctet 0
     ∧ after (.configScrub ⟨[⟨0x20, true⟩], []⟩) (at_ 0 d) (fun d => d.fab.scratch == 0)) ∧
    (let r : Rec := ⟨65535, 0, [], false⟩
     let d := onAon (fun a => { a with fmn := { staging := [r], next := 65536 } }) up
     after .recordWrite (at_ 0 d) (fun d => d.aon.fmn.staging.isEmpty && d.aon.fmn.log == [r])
     ∧ after .recordWrite (at_ 0 (onAon (fun a => { a with fmn := { a.fmn with frozen := true } }) d)) (fun d => d.aon.fmn.staging == [r])
     ∧ after .dumpComplete (at_ 0 up) (fun d => d.aon.flash == up.aon.flash)) ∧
    (let d := onAon (fun a => { a with snowdrop := true, fmn := { a.fmn with dumpBusy := true } }) dv
     d.aon.fmn.dumpBusy
     ∧ [(0, TxSig.msAis), (128, .localFault), (640, .oduAis), (1024, .squelch)].all fun e => after (.snowdropLineSignals e.1) (at_ 0 d) (fun d => (d.port e.1).map (·.tx) == some e.2)) := by decide +kernel

/-- FirmwarePosts: 15 R374-R377; 16 R386-R392. -/
theorem wit_firmware_posts :
    (let d := up.modChan 32 fun x => { x with outs := [⟨.completion, [1, 2]⟩] }
     mayFwPost d 32
     ∧ after (.completionPost 32) (at_ 0 d) (fun d => (d.chan 32).posted && (d.chan 32).data.take 2 == [1, 2] && (d.chan 32).outs.isEmpty)
     ∧ after (.replyFragmentPost 32) (at_ 0 (up.modChan 32 fun x => { x with outs := [⟨.reply, [3]⟩] })) (fun d => (d.chan 32).posted && (d.chan 32).data.take 1 == [3])
     ∧ after (.notificationPost 32) (at_ 0 (up.modChan 32 fun x => { x with notes := [⟨.notification, [4]⟩] })) (fun d => (d.chan 32).posted && (d.chan 32).data.take 1 == [4])
     ∧ after (.notifyLost 32) (at_ 0 (up.modChan 32 fun x => { x with lostNotes := 6 })) (fun d => (d.chan 32).posted && (d.chan 32).data.getD 1 0 == 6 && (d.chan 32).lostNotes == 0)) ∧
    (let d := (held.modChan 32 fun x => { x with posted := true }).modChan 0 fun x => { x with crossTimer := some 5 }
     (d.chan 0).bind.pair ≠ 0
     ∧ after (.crossedTimeout 0) (at_ 262149 d) (fun d => (d.chan 0).crossed && (d.chan 0).ack == 0xE1550020 && (d.chan 0).sts.has 22)) ∧
    (let d := up.modChan 0 fun x => { x with frag := some ⟨0x0209, 1, [], 0⟩ }
     after (.fragmentTimeout 0) (at_ (sec 1) d) (fun d => (d.chan 0).frag.isNone)
     ∧ after (.csTimeout 7) (at_ (sec 10) members) (fun d => d.fab.fw.sets.isEmpty)) ∧
    (let d := up.modChan 0 fun x => { x with posted := true, orphan := true, data := lset x.data 0 0x7F000001 }
     anyCmd (d.chan 0).data = none
     ∧ (servingCore d 0).isSome
     ∧ after (.orphanDone 0) (at_ 0 d) (fun d => !(d.chan 0).posted && !(d.chan 0).orphan && !(d.chan 0).ackValid)) ∧
    (let m := mk 8 [1, 2, 3, 4]
     let d := up.modChan 0 fun x => { x with posted := true, orphan := true, data := messageWords cmdEcho.code m ++ x.data.drop 8 }
     (anyCmd (d.chan 0).data).isSome
     ∧ (servingCore d 0).isSome
     ∧ after (.orphanDone 0) (at_ 0 d) (fun d => !(d.chan 0).posted && !(d.chan 0).ackValid && (d.chan 0).lastAck == some (2, ackWord rcOk 2 0))) := by decide +kernel

/-- Boundaries: 02 R46-R52; 14 R337. -/
theorem wit_boundaries :
    (let d := { dv with fab := { dv.fab with fw := { changes := [chg 0x0220 9 (.port 128) [.frame (.port 128) .tx] [128, 0x80000500]] } } }
     cmdEthPortConfig.ready (chg 0x0220 9 (.port 128) [] []) d
     ∧ after (.configBankSwap (.port 128) .tx) (at_ frame d) (fun d => d.fab.fw.changes.isEmpty && (d.port 128).any (fun x => x.eth.maxFrame == 0x500))
     ∧ (boundaryAt (.port 128) .tx frame d).isSome
     ∧ after (.configBankSwap (.port 128) .tx) (at_ 0 d) (fun d => d.fab.fw.changes.length == 1)) ∧
    (let is := fun t => (boundaryAt (.port 640) .rx t dv).isSome
     onDfe dv (.port 640) = false
     ∧ aligned dv (.port 640) = false
     ∧ ((framePeriod dv (.port 640)).any fun q => is (q.1 / q.2) && is (2 * q.1 / q.2) && !is (q.1 / q.2 + 1)) = true) ∧
    (let d := onAon (fun a => { a with pwr := { a.pwr with cap := 1, policy := 2, pack := 3 } }) up
     after .octetBoundary (at_ (8 * frame) d) (fun d => d.aon.pwr.capIn == 1 && d.aon.pwr.policyIn == 2 && d.aon.pwr.packIn == 3)
     ∧ after .octetBoundary (at_ frame d) (fun d => d.aon.pwr.capIn == 0x06401464)) ∧
    (after (.changeArm 5 0xFF) (at_ 0 (fw fun f => { f with changes := [{ chg 0x0220 9 (.port 128) [.octet] [] with armed := false }] })) (fun d => d.fab.fw.changes.all (·.armed))) := by decide +kernel

def eth1 (x : Port) : Dev := { up with fab := { up.fab with ports := [(128, x)], lanes := [(8, { st := .up, cfg := { set := true, enable := true, rate := 4, an := true, train := true } })] } }
def lane8 (x : Lane) : Dev := { up with fab := { up.fab with lanes := [(8, x)], ports := [(128, { typ := 0x13, first := 8, lanes := 1 })] } }
def dpll (n : Nat) (x : Dpll) : Dev := clk fun c => { c with dplls := [(n, x)] }

/-- ReferenceSlots: 13 R310-R314: REFSEL and the slots' monitors at their thresholds. -/
theorem wit_reference_slots :
    (after (.refselChange 4) (at_ 7 up) (fun d => d.aon.clk.raw == 4 && d.aon.clk.settling == some 7)
     ∧ after (.refselChange 0xF) (at_ 7 up) (fun d => d.aon.clk.settling.isNone)
     ∧ after .refselDebounced (at_ 262151 (clk fun c => { c with raw := 4, settling := some 7 })) (fun d => d.aon.clk.deb == 4 && d.aon.clk.pinSeen && d.aon.clk.sts.has 21)
     ∧ after .refselDebounced (at_ 262150 (clk fun c => { c with raw := 4, settling := some 7 })) (fun d => d.aon.clk.deb == 0xF)) ∧
    (let d := fun x : Slot => { clk (fun c => { c with slots := [(11, x)] }) with fab := { up.fab with clk := { slots := [(11, { typ := 6, lane := 8 })] }, lanes := [(8, { st := .up })] } }
     slotLive (d {}) 11
     ∧ after (.clkActivityWindowEnd 11 true) (at_ 0 (d { missing := 2 })) (fun d => (d.slot 11).missing == 0)
     ∧ after (.clkActivityWindowEnd 11 false) (at_ 0 (d { missing := 1 })) (fun d => (d.slot 11).missing == 2)
     ∧ after (.clkActivityWindowEnd 11 false) (at_ 0 (d { missing := 2, qualified := true, soak := 10 })) (fun d => !(d.slot 11).qualified && (d.slot 11).soak == 0)
     ∧ gateValid (d {}) 11 ⟨true, 1200⟩
     ∧ after (.frequencyGateEnd (List.replicate 11 ⟨false, 0⟩ ++ [⟨true, 12001⟩]) []) (at_ 0 (d { qualified := true })) (fun d => !(d.slot 11).qualified)
     ∧ after (.frequencyGateEnd (List.replicate 11 ⟨false, 0⟩ ++ [⟨true, -9200⟩]) []) (at_ 0 (d { soak := 9 })) (fun d => (d.slot 11).qualified)
     ∧ after (.frequencyGateEnd (List.replicate 11 ⟨false, 0⟩ ++ [⟨true, 9200⟩]) []) (at_ 0 (d { soak := 8 })) (fun d => !(d.slot 11).qualified && (d.slot 11).soak == 9)
     ∧ after (.frequencyGateEnd (List.replicate 11 ⟨false, 0⟩ ++ [⟨true, 9201⟩]) []) (at_ 0 (d { soak := 9 })) (fun d => (d.slot 11).soak == 0)) ∧
    (let d : Dev := { eth1 { typ := 0x13, first := 8, lanes := 1 } with aon := { clk := { slots := [(5, { infoQl := some 4 })] } } }
     let d : Dev := { d with fab := { d.fab with clk := { slots := [(5, { typ := 5, lane := 8 })] } } }
     5 ∈ slotsOfLane d 8
     ∧ after (.esmcPduRx 128 ⟨0, true, true, 2⟩) (at_ 0 d) (fun d => (d.slot 5).ql == 2)
     ∧ after (.esmcPduRx 128 ⟨0, false, true, 4⟩) (at_ 0 d) (fun d => (d.slot 5).ql == 4)
     ∧ after (.esmcPduRx 128 ⟨0, true, false, 2⟩) (at_ 0 d) (fun d => (d.slot 5).ql == 0xF)
     ∧ after (.esmcPduTx 128) (at_ 0 d) (fun d => (d.port 128).any fun x => x.eth.esmcTx == dpllQl up 2)
     ∧ 128 ∈ portsOnLane d 8
     ∧ isFlexe 0x18
     ∧ 6 ∈ slotsOfLane { dv with fab := { dv.fab with clk := { slots := [(6, { typ := 5, lane := 17 })] } } } 17
     ∧ after (.esmcPduRx 256 ⟨0, true, true, 2⟩) (at_ 0 { dv with fab := { dv.fab with clk := { slots := [(6, { typ := 5, lane := 17 })] } } }) (fun d => (d.slot 6).ql == 2)
     ∧ after (.esmcQlTimeout 5) (at_ (sec 5) d) (fun d => (d.slot 5).ql == 0xF && (d.slot 5).infoQl.isNone)) := by decide +kernel

/-- DpllStates: 13 R314-R322: each transition of a DPLL. -/
theorem wit_dpll_states :
    (let q := fun (x : Dpll) => clk fun c => { c with dplls := [(0, x)], slots := [(11, { qualified := true })], pinSeen := true, deb := 11 }
     dpllReq (q {}) 0 = .input (some 11)
     ∧ inputOk (q {}) 11
     ∧ after (.dpllEvaluation 0 ⟨0, 0, 0⟩) (at_ 9 (q {})) (fun d => (d.dpll 0).st == .acquiring && (d.dpll 0).input == 11 && (d.dpll 0).entered == 9)
     ∧ after (.dpllEvaluation 0 ⟨-2000, 500, 0⟩) (at_ 9 (q { st := .acquiring, input := 11, entered := 3 })) (fun d => (d.dpll 0).entered == 3)
     ∧ after (.dpllEvaluation 0 ⟨2001, 0, 0⟩) (at_ 9 (q { st := .acquiring, input := 11, entered := 3 })) (fun d => (d.dpll 0).entered == 9)
     ∧ after (.dpllEvaluation 0 ⟨10000, 0, 0⟩) (at_ 9 (q { st := .locked, input := 11 })) (fun d => (d.dpll 0).st == .locked)
     ∧ after (.dpllEvaluation 0 ⟨-10001, 0, 0⟩) (at_ 9 (q { st := .locked, input := 11 })) (fun d => (d.dpll 0).st == .acquiring && (d.src 0x172).total == 1)) ∧
    (let q := fun (x : Dpll) => clk fun c => { c with dplls := [(0, x)], pinSeen := true, deb := 11 }
     inputOk (q {}) 11 = false
     ∧ after (.dpllEvaluation 0 ⟨0, 0, 0⟩) (at_ 9 (q { st := .locked, input := 11 })) (fun d => (d.dpll 0).st == .lost && (d.dpll 0).input == 0x1F)
     ∧ after (.dpllEvaluation 0 ⟨5, 6, 0⟩) (at_ 9 (q { st := .lost })) (fun d => (d.dpll 0).phase == 5 && (d.dpll 0).freq == 6 && (d.dpll 0).st == .lost)) ∧
    (let q := fun (x : Dpll) => clk fun c => { c with dplls := [(0, x)], pinSeen := true, deb := 12 }
     dpllReq (q {}) 0 = .hold
     ∧ after (.dpllEvaluation 0 ⟨0, 0, 0⟩) (at_ 9 (q { st := .locked, learned := 300, hist := List.replicate 300 7 })) (fun d => (d.dpll 0).st == .holdover && (d.dpll 0).out == 7)) ∧
    (after (.dpllLock 3) (at_ (sec 1) (dpll 3 { st := .acquiring, bw := 4, input := 2 })) (fun d => (d.dpll 3).st == .locked && (d.dpll 3).input == 2)
     ∧ after (.dpllLostExit 3) (at_ (2 * frame) (dpll 3 { st := .lost, entered := 32767 })) (fun d => (d.dpll 3).st == .freeRun)
     ∧ after (.dpllLostExit 3) (at_ (2 * frame) (dpll 3 { st := .lost, learned := 300, hist := [4] })) (fun d => (d.dpll 3).st == .holdover && (d.dpll 3).out == 4)
     ∧ after .freezeEnd (at_ 9 (clk fun c => { c with freezeEnd := some 9, dplls := [(0, { frozen := true })] })) (fun d => !(d.dpll 0).frozen && d.aon.clk.freezeEnd.isNone)) := by decide +kernel

/-- Sensing: 14 R333-R336; 03 R79: temperatures at their thresholds, power, droop and a module. -/
theorem wit_sensing :
    (after (.thermalSample cool) (at_ 9 up) (fun d => d.aon.sense.tmax == 400 && d.aon.sense.tmaxTime == 9)
     ∧ sensorOn up 62
     ∧ after (.thermalSample (lset cool 62 840)) (at_ 9 up) (fun d => d.aon.sense.thermHigh && (d.src 0x16C).total == 1)
     ∧ after (.thermalSample (lset cool 3 1000)) (at_ 9 (gov id id fun x => { x with thermHigh := true })) (fun d => d.aon.thermtrip && d.aon.snowdrop && d.aon.graveSource == 0x178)) ∧
    (after (.railSample rail) (at_ 9 {}) (fun d => d.aon.sense.winCount == 1 && d.aon.sense.winSum == 16 * 670000)
     ∧ after .powerWindowEnd (at_ 0 (gov id id fun x => { x with winCount := 2, winSum := 40000000 })) (fun d => d.aon.sense.power == 2000 && d.aon.sense.winCount == 0)) ∧
    (after (.droop 0) (at_ 9 (gov (fun g => { g with margin := 26 }) id id)) (fun d => d.aon.gov.margin == 30 && d.aon.gov.holdUntil == 9 + sec 3600 && (d.src 0x80).total == 1)
     ∧ after (.droop 64) (at_ 9 (gov (fun g => { g with margin := 26 }) id id)) (fun d => d.aon.gov.margin == 26)
     ∧ after (.droop 96) (at_ 9 up) (fun d => (d.src 0xE0).total == 1)
     ∧ after .droopHoldEnd (at_ 9 (gov (fun g => { g with holdUntil := 9 }) id id)) (fun d => d.aon.gov.holdUntil == 0)
     ∧ after .droopHoldEnd (at_ 8 (gov (fun g => { g with holdUntil := 9 }) id id)) (fun d => d.aon.gov.holdUntil == 9)) ∧
    (let d := { up with fab := { up.fab with mps := [(31, { side := some true, sideAt := 0 })] } }
     after (.mpsenseSample (List.replicate 32 5)) (at_ 0 up) (fun d => tgetD d.fab.mps 31 {} == ({} : MpIn).sample 5 0)
     ∧ after (.modulePresenceChange 31) (at_ (800 * frame) d) (fun d => (tgetD d.fab.mps 31 {}).present)
     ∧ after (.modulePresenceChange 31) (at_ (800 * frame - 1) d) (fun d => !(tgetD d.fab.mps 31 {}).present)) := by decide +kernel

/-- CapLadder: 14 R347, R348: the steps down and up. -/
theorem wit_cap_ladder :
    (let d := fun g pol => gov g (fun p => { p with capIn := 0x80C80A69, policyIn := pol }) fun x => { x with power := 201 }
     capW (d id 0) = 200
     ∧ after .capEvaluation (at_ 0 (d id 0)) (fun d => d.aon.gov.episode == some 0 && d.aon.pwr.sts.has 23)
     ∧ avsFloor (d id 0x400A0000) = 10
     ∧ after .capEvaluation (at_ 0 (d (fun g => { g with episode := some 0 }) 0x400A0000)) (fun d => d.aon.gov.margin == 25 && d.aon.gov.step == 2 && d.aon.gov.scale == 256)
     ∧ after .capEvaluation (at_ 0 (d (fun g => { g with episode := some 0, scale := 20 }) 0)) (fun d => d.aon.gov.scale == 1 && d.aon.gov.step == 3)
     ∧ after .capEvaluation (at_ (20 * 800 * frame) (d (fun g => { g with episode := some 0 }) 0)) (fun d => d.aon.gov.unatt && d.aon.gov.step == 4 && (d.src 0x16B).total == 1)) ∧
    (let d := fun g => gov g (fun p => { p with capIn := 0x80C80A69, policyIn := 0 }) fun x => { x with power := 190, tmax := 400 }
     capHyst (d id) = 10
     ∧ thermTarget (d id) = 105
     ∧ after .capEvaluation (at_ 0 (d fun g => { g with goodRun := 299, step := 3, scale := 250 })) (fun d => d.aon.gov.scale == 256 && d.aon.gov.goodRun == 300)
     ∧ after .capEvaluation (at_ 0 (d fun g => { g with goodRun := 299, step := 2, margin := 27 })) (fun d => d.aon.gov.margin == 30)
     ∧ after .capEvaluation (at_ 0 (d fun g => { g with goodRun := 299, step := 1 })) (fun d => d.aon.gov.step == 0)) := by decide +kernel

/-- SlicePower: 14 R338-R340, R350. -/
theorem wit_slice_power :
    (let d := fun pol x => { gov id (fun p => { p with policyIn := pol, packIn := 0xB4010118 }) id with fab := { up.fab with pd := { slices := [(31, x)] } } }
     after .packingEvaluation (at_ 0 (d 0 ⟨.idle, 0⟩)) (fun d => (d.slice 31).st == .idle)
     ∧ spareSlices (d 0x80000000 ⟨.idle, 0⟩) = 0
     ∧ after .packingEvaluation (at_ (8000 * frame) (d 0x80000000 ⟨.idle, 0⟩)) (fun d => d.slice 31 == ⟨.retain, 8000 * frame⟩)
     ∧ after (.sliceOff 31) (at_ (sec 10) (d 0 ⟨.retain, 0⟩)) (fun d => (d.slice 31).st == .off)
     ∧ after (.sliceWakeComplete 31) (at_ 9 (d 0 ⟨.waking, 9⟩)) (fun d => (d.slice 31).st == .idle)) ∧
    (let p : QPkt := { len := 100, at_ := 0, released := false, spilled := false }
     let d := fun pol => { gov (fun g => { g with batch := 4 }) (fun p => { p with policyIn := pol }) id with fab := { up.fab with scheds := [(30, { queues := [(0, { pkts := [p] })] })] } }
     after .batchFramesUpdate (at_ 0 (d 0)) (fun d => d.aon.gov.batch == 0 && (tgetD (d.sched 30).queues 0 {}).pkts.all (·.released))
     ∧ batchFor (d 0x20000008) = 8
     ∧ after .batchFramesUpdate (at_ 0 (d 0x20000008)) (fun d => d.aon.gov.batch == 8)) := by decide +kernel

/-- MigrationLifecycle: 14 R341-R344: the life of a migration. -/
theorem wit_migration :
    (let d := { dv with fab := { dv.fab with pd := { slices := [(0, ⟨.on, 0⟩), (1, ⟨.on, 0⟩)] }, plan := [⟨31, 1, none⟩] } }
     canTake d 31 1
     ∧ engineFree d 0 1
     ∧ after (.migrationArm 31 1) (at_ 0 d) (fun d => (d.trib 31).any (fun x => x.migrating && x.shadow == 1) && d.fab.migs.length == 1)) ∧
    (let d := fun st => { dv with fab := { dv.fab with pd := { slices := [(0, ⟨.on, 0⟩), (1, ⟨.on, 0⟩)] }, migs := [{ t := 31, src := 0, dst := 1, st := st }] } }
     let st := fun (k : MigSt) (d : Dev) => d.fab.migs.all (·.st == k) && d.fab.migs.length == 1
     after (.migrationSnapshot 31) (at_ (2 * frame) (d .armed)) (st .loaded)
     ∧ after (.migrationShadowFrame 31 [⟨[1], [1], false, false⟩, ⟨[1], [2], true, false⟩]) (at_ 1049 (d .loaded)) (st .shadow)
     ∧ after (.migrationShadowFrame 31 []) (at_ 1048 (d .loaded)) (st .loaded)
     ∧ after (.migrationCommit 31) (at_ 0 (d .shadow)) (st .committed)
     ∧ after (.migrationCutover 31) (at_ 0 (d .committed)) (fun d => st .cutOver d && (d.trib 31).any (·.unit == 1))
     ∧ after (.migrationSourceFree 31) (at_ 0 (d .cutOver)) (fun d => d.fab.migs.isEmpty)
     ∧ after (.migrationAbort 31 .srcFault) (at_ 0 (d .committed)) (st .committed)
     ∧ after (.migrationAbort 31 .srcFault) (at_ 0 (d .shadow)) (fun d => d.fab.migs.isEmpty && (d.trib 31).any (·.unit == 0) && (d.src 0x169).total == 1)
     ∧ after (.migrationShadowFrame 31 [⟨[1], [2], false, false⟩]) (at_ 1049 (d .loaded)) (fun d => d.fab.migs.isEmpty && (d.src 0x169).total == 1)) := by decide +kernel

/-- LifetimeLedger: 14 R351-R353. -/
theorem wit_lifetime_ledger :
    (let d := { gov id id (fun x => { x with tempSum := List.replicate 64 7200, tempCount := 10 }) with fab := { up.fab with pd := { slices := [(0, ⟨.on, 0⟩)] } } }
     sensorOn d 0
     ∧ sensorOn d 1 = false
     ∧ after .wearAccrual (at_ 0 d) (fun d => (tgetD d.aon.wear 0 {}).wear == 256 && (tgetD d.aon.wear 1 {}).wear == 0 && d.aon.sense.tempSum.isEmpty)
     ∧ after .wearAccrual (at_ frame d) (fun d => (tgetD d.aon.wear 0 {}).wear == 0)) := by decide +kernel

/-- LaneStates: 03 R57, R75, R76. -/
theorem wit_lane_states :
    (let c : LaneCfg := { set := true, enable := true, rate := 4, an := true, train := true }
     let st := fun (k : LaneSt) (d : Dev) => (d.lane 8).st == k
     (nativeEthOn (lane8 {}) 8).isSome
     ∧ after (.cdrLock 8) (at_ (ms 1) (lane8 { st := .cdrAcq, cfg := c })) (st .an)
     ∧ after (.cdrLock 8) (at_ (ms 1) (lane8 { st := .cdrAcq, cfg := { c with an := false } })) (st .training)
     ∧ after (.cdrLock 8) (at_ (ms 1) (lane8 { st := .cdrAcq })) (st .up)
     ∧ after (.cdrRetry 8) (at_ (ms 100) (lane8 { st := .cdrAcq })) (fun d => (d.lane 8).acq == ms 100)
     ∧ after (.anComplete 8 ⟨0, 0, 0, 0x13⟩) (at_ 0 (lane8 { st := .an, cfg := c })) (st .training)
     ∧ after (.anComplete 8 ⟨0, 0, 0, 0x12⟩) (at_ 0 (lane8 { st := .an, cfg := c })) (fun d => st .an d && (d.lane 8).anMismatch)
     ∧ after (.anRestart 8) (at_ (sec 1) (lane8 { st := .an, anMismatch := true })) (fun d => !(d.lane 8).anMismatch)
     ∧ after (.trainingComplete 8 0) (at_ 0 (lane8 { st := .training })) (st .up)
     ∧ after (.trainFail 8) (at_ 0 (lane8 { st := .training })) (st .cdrAcq)
     ∧ after (.laneSignalLoss 8) (at_ 0 (lane8 { st := .up, los := false })) (fun d => st .cdrAcq d && (d.lane 8).los)) := by decide +kernel

/-- LaneGroups: 03 R58, R77; 14 R332. -/
theorem wit_lane_groups :
    (let d := fun x => { up with fab := { up.fab with pd := { groups := [(15, x)] }, lanes := [(120, { st := .up }), (121, { cfg := { enable := true } })] } }
     groupBusy (d ⟨.idle, 0⟩) 15 = false
     ∧ after (.laneGroupPowerDown 15) (at_ (sec 1) (d ⟨.idle, 0⟩)) (fun d => (tgetD d.fab.pd.groups 15 {}).st == .off && (d.lane 120).st == .down)
     ∧ after (.laneGroupPowerUp 15) (at_ (8 * frame) (d ⟨.waking, 0⟩)) (fun d => (tgetD d.fab.pd.groups 15 {}).st == .idle && (d.lane 121).st == .cdrAcq && (d.lane 122).st == .down)
     ∧ after (.laneGroupPowerUp 1) (at_ (8 * frame) (let e := lane8 {}; { e with fab := { e.fab with pd := { groups := [(1, ⟨.waking, 0⟩)] } } })) (fun d => (tgetD d.fab.pd.groups 1 {}).st == .on)
     ∧ after (.ilEstimateRefresh [⟨120, 401⟩]) (at_ 0 (d {})) (fun d => (d.lane 120).il == 400 && (d.lane 120).ilRange)
     ∧ after (.ilEstimateRefresh [⟨120, 50⟩]) (at_ 0 (d {})) (fun d => (d.lane 120).il == 50 && !(d.lane 120).ilRange)) := by decide +kernel

/-- IlfFormat: 03 R68-R72: the receiver's states and the transmitter. -/
theorem wit_ilf :
    (let c : LaneCfg := { set := true, enable := true, rate := 4, ilf := true, sourceId := 0xA7 }
     let w0 : List Word := [ilfAlign0, ilfAlign1, 0x05A70000] ++ List.replicate 12 0
     let ws := w0 ++ [ilfCrc (w0 ++ [0])]
     let bad := w0 ++ [ilfCrc (w0 ++ [0]) ^^^ 1]
     let l := fun (r : IlfRx) => { up with fab := { up.fab with lanes := [(8, { st := .up, cfg := c, rx := r })] } }
     let st := fun (k : IlfSt) (d : Dev) => (d.lane 8).rx.st == k
     ilfAligned ws
     ∧ ilfCrcOk ws
     ∧ ilfCrcOk bad = false
     ∧ ilfLive (l {}) 8
     ∧ after (.ilfAlignmentFound 8) (at_ 0 (l {})) (st .presync)
     ∧ after (.ilfMarkerPeriod 8 ⟨[], []⟩) (at_ 0 (l { st := .presync })) (st .hunt)
     ∧ after (.ilfMarkerPeriod 8 ⟨ws, []⟩) (at_ 0 (l { st := .presync })) (fun d => st .presync d && (d.lane 8).rx.valid == 1)
     ∧ after (.ilfMarkerPeriod 8 ⟨ws, []⟩) (at_ 0 (l { st := .presync, valid := 1 })) (fun d => st .sync d && !(d.lane 8).rx.loa && (d.lane 8).rx.sourceId == 0xA7)
     ∧ after (.ilfMarkerPeriod 8 ⟨bad, []⟩) (at_ 0 (l { st := .presync, crcRun := 2 })) (fun d => st .presync d && (d.lane 8).rx.crcRun == 3)
     ∧ after (.ilfMarkerPeriod 8 ⟨bad, []⟩) (at_ 0 (l { st := .presync, crcRun := 3 })) (st .hunt)
     ∧ after (.ilfMarkerPeriod 8 ⟨ws, []⟩) (at_ 0 (l { st := .sync, absent := 3 })) (fun d => st .sync d && (d.lane 8).rx.absent == 0)
     ∧ after (.ilfMarkerPeriod 8 ⟨bad, []⟩) (at_ 0 (l { st := .sync, map := [9] })) (fun d => st .sync d && (d.lane 8).rx.map == [9])
     ∧ after (.ilfMarkerPeriod 8 ⟨[], []⟩) (at_ 0 (l { st := .sync, absent := 2 })) (fun d => st .sync d && (d.lane 8).rx.absent == 3)
     ∧ after (.ilfMarkerPeriod 8 ⟨[], []⟩) (at_ 0 (l { st := .sync, absent := 3 })) (fun d => st .hunt d && (d.lane 8).rx.loa)
     ∧ after (.ilfControlBlock ⟨8, 9⟩) (at_ 0 (l {})) (fun d => (d.lane 8).rx.ctl == 1 && (d.lane 8).rx.ctlAt == [9])
     ∧ after (.ilfTxMarker 8 []) (at_ 0 (l {})) (fun d => (d.lane 8).tx.period == 1 && ilfAligned (d.lane 8).tx.marker && ilfCrcOk (d.lane 8).tx.marker && fld ((d.lane 8).tx.marker.getD 2 0) 23 16 == 0xA7)) ∧
    (let w0 : List Word := [ilfAlign0, ilfAlign1, 0, 0x80000000, 0, 0, 0, 0x03FF0000] ++ List.replicate 7 0
     let ws := w0 ++ [ilfCrc (w0 ++ [0])]
     let d := fun b : List Nat => { up with fab := { up.fab with
       ports := [(128, { typ := 0x13, first := 8, mask := 1 })]
       lanes := [(8, { st := .up, cfg := { set := true, enable := true, rate := 4, ilf := true }, rx := { st := .sync, map := ilfMap ws, cm := ilfCm ws, ctlAt := b } })] } }
     let out := fun (b : List Nat) (mk : IlfMarker) (o : List (Nat × List LaneWord)) => after (.ilfMarkerPeriod 8 mk) (at_ 0 (d b)) fun d => (d.lane 8).rx.out == o
     out [] ⟨ws, List.replicate 16 7⟩ [(0, [lw tagData 7])]
     ∧ out [8] ⟨ws, List.replicate 16 7⟩ [(0, [lw tagData 0 true])]
     ∧ out [] ⟨w0 ++ [1], List.replicate 16 7⟩ [(0, [lw tagData 7 true])]
     ∧ takeData 2 3 (ilfSpread 2 3 3 1 [5, 6]) = [5, 6]) := by decide +kernel

def sdh (x : Port) : Dev := { up with fab := { up.fab with ports := [(0, { x with typ := 1, mask := 1, sdh := { x.sdh with aug := [0], augTx := [0] } })], layers := [(secKey 0, {}), (lineKey 0, {})] } }
/-- An STM-1 frame of zeros on the line behind A1 and A2. -/
def sdhF (err : Bool) (bad : List Nat := []) : SdhFrame := ⟨[0xF6, 0xF6, if err then 0 else 0xF6, 0x28, 0x28, 0x28] ++ List.replicate 2424 0, bad⟩
def port (n : Nat) (x : Port) : Dev := { up with fab := { up.fab with ports := [(n, x)], layers := [(secKey n, {})] } }
def trib (n : Nat) (x : Trib) : Dev := { up with fab := { up.fab with tribs := [(n, x)], layers := [(pathKey n, {})] } }
/-- FAS and MFAS, and zeros after them. -/
def fasF (err : Bool) (mfas : Octet) (n : Nat) : List Octet := [0xF6, 0xF6, if err then 0 else 0xF6, 0x28, 0x28, 0x28, mfas] ++ List.replicate n 0
def otuF (err : Bool) (mfas : Octet) : OtuFrame := ⟨[fasF err mfas 15289], [], false⟩
def oduF (err : Bool) : OduFrame := ⟨fasF err 0 15289, []⟩
def otu4 (f : Framer) (m : MfAlign) : Dev := port 640 { typ := 0x0C, first := 40, mask := 1, fr := f, otn := { mf := m, txMfas := 255, txBips := [[7], [8]] } }
def odu (f : Framer) (m : MfAlign) : Dev := { up with fab := { up.fab with tribs := [(10, { typ := 6, parent := 10, unit := 0 }), (11, { typ := 1, parent := 10, unit := 0, fr := f, mf := m, txBips := [[7], [8]] }), (12, { typ := 0x20, parent := 11, unit := 0 })], layers := [(pathKey 10, {}), (pathKey 11, {})] } }
def eth (e : EthPort) : Dev := { dv with fab := { dv.fab with ports := [(1024, { typ := 0x13, first := 64, lanes := 1, eth := e })] } }
def flx (x : FlexePort) : Dev := { dv with fab := { dv.fab with ports := [(256, { typ := 0x18, first := 16, lanes := 2, phys := 1, flx := x })] } }
def ohF (lock : Bool) : FlexeFrame := ⟨lock, true, true, true, 3, [false], false, 9, 1, [1], false, [0], false, false⟩
def fg (g : FgCar) : Dev := trib 22 { typ := 0x2B, port := some 288, parent := 22, opts := 0x800, fg := g }
def grain (q : Nat) : FgGrain := ⟨BitVec.ofNat 64 (0x4B * 2 ^ 56 + (q * 2 ^ 45 / 2 ^ 28) * 2 ^ 32 + 0xA * 2 ^ 28 + q * 2 ^ 45 % 2 ^ 28), false⟩

/-- SdhFraming: 04 R86-R91, R96, R108. -/
theorem wit_sdh_framing :
    (let st := fun (k : FrSt) (d : Dev) => (d.port 0).any (·.fr.st == k)
     let bits := List.replicate 3 true ++ lineBits sdhPattern ++ [false]
     bitsHold (lineBits sdhPattern) bits
     ∧ after (.sdhPatternFound ⟨0, bits⟩) (at_ 0 (sdh {})) (st .presync)
     ∧ after (.sdhPatternFound ⟨0, List.replicate 48 true⟩) (at_ 0 (sdh {})) (st .oof)
     ∧ after (.sdhRxFrame 0 (sdhF true)) (at_ 0 (sdh { fr := { st := .presync } })) (st .oof)
     ∧ patternErrored 1 (sdhF true).octets
     ∧ patternErrored 1 (sdhF false).octets = false
     ∧ (sdhF false [271]).bad.any (overheadWord 1)
     ∧ (sdhF false).bad.any (overheadWord 1) = false
     ∧ after (.sdhRxFrame 0 (sdhF true)) (at_ 9 (sdh { fr := { st := .inFrame, errRun := 4 } })) (fun d => st .oof d && hasDef d (secKey 0) .oof)) ∧
    (after (.sdhLofChange 0) (at_ (24 * frame) (sdh { fr := { oof := true } })) (fun d => (d.port 0).any (·.fr.lof) && hasDef d (secKey 0) .lof)
     ∧ after (.sdhTxFrame 0 []) (at_ 9 (sdh { sdh := { txB1 := 4 } })) (fun d => (d.port 0).any fun x => x.txF.count == 1 && tget x.sdh.txOh 0x20 == some [4])
     ∧ after (.sdhLomChange 3) (at_ 0 (trib 3 { typ := 0x11, port := some 0, h4 := { accum := 8 } })) (fun d => (d.trib 3).any (·.h4.lom) && hasDef d (pathKey 3) .lom)) := by decide +kernel

/-- SdhFraming, a frame as a whole. -/
theorem wit_sdh_frame :
    after (.sdhRxFrame 0 (sdhF false)) (at_ 9 (sdh { fr := { st := .inFrame, errRun := 3 } })) (fun d => (d.port 0).any fun x =>
      x.fr.errRun == 0 && x.rxF.count == 1 && x.sdh.k.run == 1 && x.sdh.b1 == some 0xDE) := by decide +kernel

/-- OtnFraming: 05 R117-R121, R129-R131. -/
theorem wit_otn_framing :
    (let st := fun (k : FrSt) (d : Dev) => (d.port 640).any (·.fr.st == k)
     let bits := lineBits [0xF6, 0xF6, 0x28, 0x28]
     bitsHold bits bits
     ∧ after (.otnPatternFound ⟨640, bits⟩) (at_ 0 (otu4 {} {})) (st .presync)
     ∧ after (.otnRxFrame 640 (otuF true 0)) (at_ 0 (otu4 { st := .presync } {})) (st .oof)
     ∧ fasErrored ((otuF false 0).slices.headD []) = false
     ∧ after (.otnRxFrame 640 (otuF true 0)) (at_ 0 (otu4 { st := .inFrame, errRun := 4 } {})) (fun d => st .oof d && hasDef d (secKey 640) .oof)
     ∧ after (.otnLofChange (.port 640)) (at_ (ms 3) (otu4 { oof := true } {})) (fun d => (d.port 640).any (·.fr.lof) && hasDef d (secKey 640) .lof)
     ∧ after (.otnLomChange (.port 640)) (at_ (ms 3) (otu4 {} { watch := { start := some 0 } })) (fun d => (d.port 640).any (·.otn.mf.lom) && hasDef d (secKey 640) .lom)) ∧
    (let st := fun (k : FrSt) (d : Dev) => (d.port 0).any (·.fr.st == k)
     let x := fun f m => ({ typ := 0x0D, lanes := 1, fr := f, otn := { mf := m, txMfas := 255, txBips := [[7], [8]], lanes := [(0, { locked := true })] } } : Port)
     let d := fun f m => { port 0 (x f m) with fab := { (port 0 (x f m)).fab with lanes := [(0, { st := .up, los := false })] } }
     flexoReady (d {} {}) (x {} {})
     ∧ after (.otnPatternFound ⟨0, []⟩) (at_ 0 (d {} {})) (st .presync)
     ∧ after (.otnRxFrame 0 (otuF false 0)) (at_ 0 (d { st := .presync, oof := true } {})) (fun d => st .inFrame d && (d.port 0).any (fun x => !x.fr.oof))
     ∧ after (.otnRxFrame 0 (otuF true 0)) (at_ 0 (d { st := .inFrame, errRun := 3 } {})) (fun d => st .inFrame d && (d.port 0).any (·.fr.errRun == 4))
     ∧ after (.otnRxFrame 0 (otuF false 9)) (at_ 0 (d { st := .inFrame, errRun := 3 } { exp := 9 })) (fun d => (d.port 0).any fun x => x.fr.errRun == 0 && x.otn.mf == ({ exp := 9 } : MfAlign).mfas 9 0)
     ∧ topOdu (d {} {}) 0 = none
     ∧ after (.otnTxFrame (.port 0) []) (at_ 0 (d {} {})) (fun d => (d.port 0).any fun x => x.otn.txMfas == 0 && x.otn.txBips.tail == [[7]])) := by decide +kernel

/-- OduAndFlexo: 05 R117, R121-R123, R128, R139. -/
theorem wit_odu_and_flexo :
    (let st := fun (k : FrSt) (d : Dev) => (d.trib 11).any (·.fr.st == k)
     serverSilent (odu {} {}) 5 11 = false
     ∧ after (.oduRxFrame 11 (oduF false)) (at_ 0 (odu {} {})) (st .presync)
     ∧ after (.oduRxFrame 11 (oduF true)) (at_ 0 (odu { st := .presync } {})) (st .oof)
     ∧ after (.oduRxFrame 11 (oduF false)) (at_ 0 (odu { st := .presync } {})) (st .inFrame)
     ∧ after (.oduRxFrame 11 (oduF true)) (at_ 0 (odu { st := .inFrame, errRun := 4 } {})) (st .oof)
     ∧ after (.oduRxFrame 11 (oduF true)) (at_ 0 (odu { st := .inFrame, errRun := 3 } {})) (fun d => st .inFrame d && (d.trib 11).any (·.fr.errRun == 4))
     ∧ after (.otnLofChange (.trib 11)) (at_ (ms 3) (odu { oof := true, watch := { start := some 0 } } {})) (fun d => (d.trib 11).any (·.fr.lof) && hasDef d (pathKey 11) .lof)
     ∧ after (.otnLomChange (.trib 11)) (at_ (ms 3) (odu {} { watch := { acc := ms 3 } })) (fun d => (d.trib 11).any (·.mf.lom))
     ∧ isTerminated (odu {} {}) 10
     ∧ bridgedTrib (odu {} {}) 10 = none
     ∧ isTerminated (odu {} {}) 11
     ∧ bridgedTrib (odu {} {}) 11 = none
     ∧ after (.otnTxFrame (.trib 11) []) (at_ 0 (odu {} {})) (fun d => (d.trib 11).any fun x => x.txMfas == 1 && x.txBips.tail == [[7]])) ∧
    (let d := fun (l : FlexoLane) => { port 0 { typ := 0x0D, first := 0, lanes := 2, otn := { lanes := [(1, l)] } } with fab := { (port 0 { typ := 0x0D, first := 0, lanes := 2, otn := { lanes := [(1, l)] } }).fab with lanes := [(1, { st := .up, los := false, cfg := { rate := 5 } })] } }
     let lk := fun (b : Bool) (d : Dev) => (d.port 0).any fun x => (tgetD x.otn.lanes 1 {}).locked == b
     let f := fun ok => Instr.flexoFrame 0 1 ⟨ok, true, false, 1, 1, [], false, 7, []⟩
     after (f true) (at_ 0 (d { okRun := 1 })) (lk true)
     ∧ after (f true) (at_ 0 (d {})) (lk false)
     ∧ after (f false) (at_ 0 (d { locked := true, badRun := 3 })) (lk true)
     ∧ after (f false) (at_ 0 (d { locked := true, badRun := 4 })) (lk false)
     ∧ after (.flexoLof 0 1) (at_ (ms 3) (d {})) (fun d => hasDef d (secKey 0) .flexoLof)) ∧
    (let d := port 128 { typ := 0x13, first := 8, lanes := 1, fecs := [(0, { bits := 11, bad := 2 })], eth := { sdSet := 10, sdClr := 5 } }
     eOf 0 % 8000 = 0
     ∧ after (.fecSdIntervalEnd 128) (at_ 0 d) (fun d => hasDef d (secKey 128) .fecSd)
     ∧ ((FecLane.judge { bits := 5, good := 2, sd := true } 10 5 false).sd = false)
     ∧ ((FecLane.judge { bits := 10, bad := 2 } 10 5 false) = { sd := false })) := by decide +kernel

/-- EthernetPorts: 06 R144-R147; 01 R22. -/
theorem wit_ethernet_ports :
    (let os : List Octet := List.replicate 60 0
     let good := os ++ (natBe 4 (crcOctets crcFcs os)).reverse
     after (.pcsStateChange 1024 ⟨0, true, false, true, true, .remote, {}⟩) (at_ 0 (eth {})) (fun d => hasDef d (secKey 1024) .loaml && hasDef d (secKey 1024) .ethRf && !hasDef d (secKey 1024) .lobl)
     ∧ after (.ethRxBlock 1024 ⟨⟨1, 0x1E, false⟩, 0⟩) (at_ 0 (eth { block := true })) (fun d => (d.port 1024).any (·.eth.out.length == 2))
     ∧ after (.ethRxFrame 1024 { octets := good }) (at_ 0 (eth {})) (fun d => tgetD d.fab.pm.run (secKey 1024 + 0x40) 0 == 1 && (d.port 1024).any (·.eth.out == packetWords good))
     ∧ after (.ethRxFrame 1024 { octets := List.replicate 64 1 }) (at_ 0 (eth {})) (fun d => tgetD d.fab.pm.run (secKey 1024 + 0x40) 0 == 1 && tgetD d.fab.pm.run (secKey 1024 + 0x44) 0 == 1 && (d.port 1024).any (·.eth.out == [lw tagGap 1]))
     ∧ after (.ethRxFrame 1024 { octets := List.replicate 63 0 }) (at_ 0 (eth {})) (fun d => tgetD d.fab.pm.run (secKey 1024 + 0x45) 0 == 1)
     ∧ after (.ethRxFrame 1024 { octets := List.replicate 65 0 }) (at_ 0 (eth { maxFrame := 64 })) (fun d => tgetD d.fab.pm.run (secKey 1024 + 0x46) 0 == 1)) ∧
    (let d := { eth {} with fab := { (eth {}).fab with xc := [⟨50, 30, 1⟩], txq := [(30, [lw tagStart 0x11223344, lw tagEnd 0x55000000 false 0, lw tagStart 9])] } }
     portStream d 1024 = some 30
     ∧ (d.trib 30).any (fun z => sigOf d 30 z == .normal)
     ∧ after (.ethTxPacket 1024 none) (at_ 0 d) (fun d => tgetD d.fab.pm.run (secKey 1024 + 0x42) 0 == 1 && txWaiting d 30 == [lw tagStart 9] && (d.port 1024).any (·.eth.sent == preamble ++ [0x11, 0x22, 0x33, 0x44, 0x55]))) := by decide +kernel

/-- FlowControl: 12 R298. -/
theorem wit_flow_control :
    (let d := { eth { pfcRx := true, pauseRx := true } with fab := { (eth { pfcRx := true, pauseRx := true }).fab with scheds := [(30, { queues := [(7, { paused := some 4 })] })] } }
     let q := fun (d : Dev) (c : Nat) => (tgetD (d.sched 30).queues c {}).paused
     after (.pfcFrameRx 1024 ⟨0x80, [0, 0, 0, 0, 0, 0, 0, 65535]⟩) (at_ 9 d) (fun d => q d 7 == some (9 + pauseUnits 100 65535))
     ∧ after (.pfcFrameRx 1024 ⟨0x80, []⟩) (at_ 9 d) (fun d => q d 7 == none)
     ∧ after (.pauseFrameRx 1024 1) (at_ 9 d) (fun d => (List.range 8).all fun c => q d c == some (9 + pauseUnits 100 1))
     ∧ after (.pauseFrameRx 1024 1) (at_ 9 (eth {})) (fun d => q d 0 == none)
     ∧ after (.pauseExpiry 1024 7) (at_ 4 d) (fun d => q d 7 == none)) := by decide +kernel

/-- FlexeGroups: 06 R150-R153. -/
theorem wit_flexe_groups :
    (let c : Change := { chg 0x0222 0 (.port 256) [.own] [256, 20, 0x80000000] with msgs := [messageWords 0x0222 (mk 16 [256, 20, 0x80000000])] }
     let w := fun (d : Dev) => { d with fab := { d.fab with fw := { changes := [c] } } }
     let insts : Tbl FlexeInst := [(0, { locked := true }), (1, { locked := true })]
     flexeInsts (flx {}) { typ := 0x18, first := 16, lanes := 2, phys := 1 } = 2
     ∧ after (.flexeOhFrame 256 1 (ohF true)) (at_ 0 (flx {})) (fun d => (d.port 256).any fun x => (tget x.flx.insts 1).any fun i => i.locked && i.group.run == 1)
     ∧ after (.flexeLofChange 256 false) (at_ (ms 3) (flx {})) (fun d => hasDef d (secKey 256) .flexeLof && (d.port 256).any (·.backward))
     ∧ after (.flexeLofChange 256 false) (at_ (ms 3) (flx { insts := insts })) (fun d => !hasDef d (secKey 256) .flexeLof)
     ∧ calPending (w (flx {})) 256 = [c]
     ∧ after (.flexeCalStart 256) (at_ 9 (w (flx {}))) (fun d => (d.port 256).any fun x => x.flx.cr && x.flx.change == some ⟨5, 0xFF, 9, 0⟩ && x.flx.calB.headD 0 == 1)
     ∧ after (.flexeCalSwitch 256) (at_ 9 (w (flx { change := some ⟨5, 0xFF, 0, 3⟩ }))) (fun d => (d.port 256).any (fun x => x.flx.bankB && x.flx.calB.headD 0 == 1) && d.fab.fw.changes.isEmpty)
     ∧ after (.flexeCalSwitch 256) (at_ (2 * flexeMf) (w (flx { handshake := false, change := some ⟨5, 0xFF, 0, 0⟩ }))) (fun d => (d.port 256).any (·.flx.bankB))
     ∧ after (.flexeCalTimeout 256) (at_ (16 * flexeMf) (w (flx { change := some ⟨5, 0xFF, 0, 2⟩ }))) (fun d => (d.port 256).any (fun x => x.flx.timeouts == 1 && x.flx.change.isNone) && d.fab.fw.changes.isEmpty)) := by decide +kernel

/-- MtnPaths: 06 R155. -/
theorem wit_mtn_paths :
    (let d := fun x : Trib => trib 21 { x with typ := 0x2B, port := some 288, parent := 21 }
     hasOam { typ := 0x2B }
     ∧ after (.mtnBasRx 21 ⟨0xF0, 0x55, 0, true, false⟩) (at_ 0 (d { pm := { bips := [[0x0F]] } })) (fun d => (d.trib 21).any fun x => x.reiTx == 8 && x.pm.bips == [[0x55]] && x.basRun == 1)
     ∧ after (.mtnBasRx 21 ⟨0, 0, 0, true, false⟩) (at_ 0 (d { basRun := 2 })) (fun d => hasDef d (pathKey 21) .mtnRdi)
     ∧ after (.mtnCvRx 21 [1]) (at_ 0 (d {})) (fun d => (d.trib 21).any (·.jf.run == 1))
     ∧ after (.mtnApsRx 21 7) (at_ 0 (d {})) (fun d => (d.trib 21).any fun x => (tgetD x.aps 0 {}).run == 1)
     ∧ after (.mtnCvTx 21) (at_ 0 (d { traces := [(0x11, { tx := some [4] })] })) (fun d => (d.trib 21).any (·.cvOut == [4]))
     ∧ (tgetD ({ typ := 0x2B } : Trib).traces 0x11 {}).tx = none) := by decide +kernel

/-- FineGrain: 06 R157-R161. -/
theorem wit_fine_grain :
    (let st := fun (k : IlfSt) (d : Dev) => (d.trib 22).any (·.fg.st == k)
     isCarrier { typ := 0x2B, opts := 0x800 }
     ∧ grainSeq (some (grain 99)) = some 99
     ∧ after (.fgOverheadGrain 22 (some (grain 99))) (at_ 0 (fg {})) (fun d => st .presync d && (d.trib 22).any (·.fg.expSeq == 0))
     ∧ after (.fgOverheadGrain 22 (some (grain 4))) (at_ 0 (fg { st := .presync, expSeq := 4, run := 1 })) (fun d => st .presync d && (d.trib 22).any (·.fg.run == 2))
     ∧ after (.fgOverheadGrain 22 (some (grain 4))) (at_ 0 (fg { st := .presync, expSeq := 4, run := 2, loa := true })) (fun d => st .sync d && (d.trib 22).any (fun x => !x.fg.loa))
     ∧ after (.fgOverheadGrain 22 (some (grain 5))) (at_ 0 (fg { st := .presync, expSeq := 4 })) (st .hunt)
     ∧ after (.fgOverheadGrain 22 (some (grain 4))) (at_ 0 (fg { st := .sync, expSeq := 4, absent := 4 })) (fun d => st .sync d && (d.trib 22).any (·.fg.absent == 0))
     ∧ after (.fgOverheadGrain 22 none) (at_ 0 (fg { st := .sync, absent := 3 })) (fun d => st .sync d && (d.trib 22).any (·.fg.absent == 4))
     ∧ after (.fgOverheadGrain 22 none) (at_ 0 (fg { st := .sync, absent := 4 })) (fun d => st .hunt d && (d.trib 22).any (·.fg.loa))) ∧
    (let c := chg 0x0225 0 (.trib 23) [.own] [23, 0, 0x00140000]
     let d := fun (g : FgCar) => { dv with fab := { dv.fab with fw := { changes := [c] }, tribs := (dv.fab.tribs.filter fun e => e.1 != 22) ++ [(22, { typ := 0x2B, port := some 288, parent := 22, pos := 2, rate := 5156250, unit := 34, opts := 0x800, fg := g })] } }
     fgPending (d {}) 22 = [c]
     ∧ placeReady c (d {})
     ∧ fgTarget (d {}) c = some (22, 23, 20, 1)
     ∧ after (.fgResizeStart 22) (at_ 9 (d {})) (fun d => (d.trib 22).any fun x => x.fg.cr && x.fg.ms && !x.fg.txBank && x.fg.change == some (5, 0xFF, 9))
     ∧ after (.fgBankSwitch 22) (at_ 9 (d { change := some (5, 0xFF, 0), caOk := true })) (fun d => (d.trib 22).any (fun x => x.fg.txBank && !x.fg.cr) && (d.trib 23).any (·.rate == 206250) && d.fab.fw.changes.isEmpty)
     ∧ after (.fgResizeTimeout 22) (at_ fgWait (d { change := some (5, 0xFF, 0) })) (fun d => (d.trib 22).any fun x => x.fg.timeouts == 1 && x.fg.change.isNone && !x.fg.txBank)) := by decide +kernel

def tx (fill : Nat) (x : Trib) : Dev := { trib 5 { x with unit := 0, esTx := { size := 8 } } with fab := { (trib 5 { x with unit := 0, esTx := { size := 8 } }).fab with fifos := [(fifoKey ⟨.esTx, 5⟩, { committed := fill })] } }
/-- A GFP-F frame as on the line, its scrambler's state 0 before it. -/
def frameOf (typ : Nat) (p tail : List Octet) : GfpFrame :=
  let os := (gfpFrame 0 typ p tail).1
  ⟨(packWords (os.take 4)).headD 0, false, (os.drop 4).map fun o => (o, false)⟩
def withFifo (f : FifoId) (q : Fifo) (d : Dev) : Dev := { d with fab := { d.fab with fifos := [(fifoKey f, q)] } }

/-- RateAdaptation: 07 R176-R182. -/
theorem wit_rate_adaptation :
    (fillOf (tx 6 {}) 5 { esTx := { size := 8 } } = 64
     ∧ ((tx 6 { method := 1 }).trib 5).any (fun x => x.method == 1 && x.unit != 0xFF)
     ∧ [ampJc 1 9, ampJc 1 8, ampJc 1 (-8), ampJc 1 (-9), ampJc 2 9] = [1, 0, 0, 3, 0]
     ∧ ampVote [(2, false), (2, false), (2, false)] up = (some 0, up)
     ∧ ampVote [(1, false), (3, true), (1, false)] up = (some 1, up)) ∧
    (let jc := fun (c : Nat) (d : Dev) => (d.trib 5).any (·.jcTx == c)
     let r : PdhRx := ⟨List.replicate 3 (false, false), List.replicate 3 (true, false), true, false, [], false⟩
     after (.pdhJustification ⟨5, none, none⟩) (at_ 0 (tx 5 { typ := 0x18, method := 4 })) (jc 3)
     ∧ after (.pdhJustification ⟨5, none, none⟩) (at_ 0 (tx 4 { typ := 0x18, method := 4 })) (jc 1)
     ∧ after (.pdhJustification ⟨5, none, none⟩) (at_ 0 (tx 3 { typ := 0x18, method := 4, jcTx := 1 })) (jc 0)
     ∧ after (.pdhJustification ⟨5, some r, none⟩) (at_ 0 (tx 8 { typ := 0x18, method := 5 })) (fun d => jc 1 d && (d.trib 5).any (·.jcRx == 2))) := by decide +kernel

/-- RateAdaptation: GMP. -/
theorem wit_gmp :
    (let d := fun x : Trib => trib 5 { x with unit := 0, method := 3, mOct := 1, cmMin := 3, cmMax := 5, txMin := 3, txMax := 5, pServer := 8 }
     let is := fun (p : Trib → Bool) (d : Dev) => (d.trib 5).any p
     let cnt := fun (d : Dev) (c : Nat) => tgetD d.fab.pm.run (pathKey 5 + c) 0
     let rx := fun (l : List Octet) => Instr.gmpRxPeriod 5 ⟨l.map fun o => (o, false), []⟩
     after (.gmpTxPeriod 5 none) (at_ 0 (d { acc := 4, cn := 0, cmTx := 4 })) (is fun x => x.acc == 0 && x.cmTx == 4 && x.mapJc == gmpJcOctets 4 4 0)
     ∧ after (.gmpTxPeriod 5 none) (at_ 0 (d { acc := 9, cn := 1 })) (is fun x => x.acc == 5 && x.cmTx == 5 && x.sumTx == 5 && x.cn == 0)
     ∧ after (.gmpTxPeriod 5 none) (at_ 0 (d {})) (is fun x => x.acc == -3 && x.cmTx == 3 && x.sumTx == 0)
     ∧ serverFrozen (d {}) { method := 3 } = false
     ∧ serverFrozen (odu {} {}) { parent := 11, method := 3 }
     ∧ cmDecode 4 (cmCode 4 5) = some 5
     ∧ cmDecode 4 (cmCode 4 200) = some 200
     ∧ cmDecode 4 (5 * 4 + 2) = none
     ∧ after (rx (gmpJcOctets 4 5 7)) (at_ 0 (d { cmRx := 4 })) (is fun x => x.cmRx == 5 && x.sumRx == 7)
     ∧ after (rx ((gmpJcOctets 4 5 7).set 2 0)) (at_ 0 (d { cmRx := 4 })) (fun d => is (fun x => x.cmRx == 4 && x.sumRx == 7) d && cnt d 0x27 == 1 && cnt d 0x28 == 0)
     ∧ after (rx ((gmpJcOctets 4 4 7).set 5 0)) (at_ 0 (d { cmRx := 4 })) (fun d => is (fun x => x.cmRx == 4 && x.sumRx == 0) d && cnt d 0x27 == 0 && cnt d 0x28 == 1)
     ∧ after (rx (gmpJcOctets 9 9 0)) (at_ 0 (d { cmRx := 4 })) (fun d => is (fun x => x.cmRx == 4) d && cnt d 0x27 == 1)
     ∧ gmpPick 3 8 2 8 1 (gmpPlace 3 8 2 8 1 [1, 2, 3, 4, 5, 6]) = [1, 2, 3, 4, 5, 6]) := by decide +kernel

/-- GfpFrames, received: 07 R183, R184; 10 R232. -/
theorem wit_gfp_received :
    (let d := fun x : Trib => trib 5 { x with method := 6, typ := 0x29, opts := 1, unit := 0 }
     let p := List.replicate 8 0x33
     let sum := octetsOf (wd (crcOctets crcPfcs p))
     let os := fun typ : Nat => octetsOf (withHec typ) ++ p ++ sum
     let f := frameOf 0x1001 p sum
     let cs := fun (d : Dev) (c : Nat) => tgetD d.fab.pm.run (pathKey 5 + c) 0
     after (.gfpFrameRx 5 f) (at_ 0 (d {})) (fun d => (d.trib 5).any (·.delin == .presync) && hasDef d (pathKey 5) .gfpLfd)
     ∧ after (.gfpFrameRx 5 f) (at_ 0 (d { delin := .presync })) (fun d => (d.trib 5).any (·.delin == .sync) && !hasDef d (pathKey 5) .gfpLfd && cs d 0x40 == 1)
     ∧ after (.gfpFrameRx 5 f) (at_ 0 (d { delin := .sync })) (fun d => cs d 0x40 == 1 && cs d 0x41 == 8)
     ∧ gfpFate 16 1 false false false (os 0x1001) = (.packet, true)
     ∧ (gfpFate 3 1 false false false []).1 = .idle
     ∧ (gfpFate 16 2 false false false (os 0x1001)).1 = .discard
     ∧ (gfpFate 16 1 true false false (os 0x10F1)).1 = .segment
     ∧ (gfpFate 12 1 false false false (octetsOf (withHec 0x1001) ++ [1, 2, 3, 4] ++ octetsOf (wd (crcOctets crcPfcs [1, 2, 3, 4])))).1 = .badLen
     ∧ after (.gfpFrameRx 5 (frameOf 0x1001 p [0, 0, 0, 0])) (at_ 0 (d { delin := .sync })) (fun d => cs d 0x49 == 1 && cs d 0x40 == 0)
     ∧ after (.gfpFrameRx 5 (frameOf 0x8001 [] [])) (at_ 7 (d { delin := .sync })) (fun d => hasDef d (pathKey 5) .gfpCsf && (d.trib 5).any (·.csfTime == 7))
     ∧ after (.gfpFrameRx 5 (frameOf 0x0102 p [])) (at_ 7 (d { delin := .sync })) (fun d => cs d 0x48 == 1)
     ∧ delinStep .sync (f.core ^^^ 0x10) false false = (.sync, some 16)
     ∧ delinStep .presync (f.core ^^^ 0x10) false false = (.hunt, none)
     ∧ delinStep .sync (f.core ^^^ 0x30) false false = (.hunt, none)
     ∧ delinStep .hunt f.core true false = (.hunt, none)
     ∧ after (.gfpCsfClear 5) (at_ (ms 300 + 7) (d { csfTime := 7 })) (fun d => !hasDef d (pathKey 5) .gfpCsf)) := by decide +kernel

/-- GfpFrames, sent: 07 R183-R185. -/
theorem wit_gfp_sent :
    (let d := fun x : Trib => { up with fab := { up.fab with xc := [⟨8, 5, 2⟩], tribs := [(5, { x with method := 6, typ := 0x29, unit := 0 }), (8, { typ := 0x29, port := some 1024, unit := 40 })], layers := [(pathKey 5, {})] } }
     let q : Fifo := { depth := 64, entries := [slotWord 12 false, lw tagStart 1, lw tagData 2, lw tagEnd 3 false 3, lw tagStart 9], committed := 4 }
     let g := d {}
     let h := { g with fab := { g.fab with tribs := [(8, { typ := 0x29, port := some 1024, unit := 40 }), (4, { typ := 1, unit := 0 }), (5, { typ := 0x29, method := 6, parent := 4, unit := 0 }),
       (6, { typ := 0x12, method := 6, parent := 4, pos := 3, unit := 0, segOct := 4, seqTx := 65535, esTx := { size := 8 } })] } }
     let h := withFifo ⟨.esTx, 6⟩ { depth := 8, entries := [lw tagData 7], committed := 1 } h
     sigOf g 5 { method := 6, typ := 0x29, unit := 0 } = .normal
     ∧ nextPacket (fifoOf g ⟨.pktOut, 5⟩) = none
     ∧ after (.gfpFrameTx 5 none) (at_ 0 g) (fun d => (d.trib 5).any fun x => x.gfpFill == 1 && x.mapOut == gfpIdle)
     ∧ after (.gfpFrameTx 5 none) (at_ 0 (d { txEn := false })) (fun d => (d.trib 5).any (·.gfpFill == 1))
     ∧ (nextPacket q).isSome
     ∧ after (.gfpFrameTx 5 none) (at_ 0 (withFifo ⟨.pktOut, 5⟩ q g)) (fun d => (fifoOf d ⟨.pktOut, 5⟩).entries == [lw tagStart 9] && tgetD d.fab.pm.run (pathKey 5 + 0x42) 0 == 1 && tgetD d.fab.pm.run (pathKey 5 + 0x43) 0 == 12)
     ∧ (segmentsOf h { typ := 0x29, parent := 4 }).find? (segmentReady h) = some 6
     ∧ after (.gfpFrameTx 5 none) (at_ 0 h) (fun d => (d.trib 6).any (·.seqTx == 0) && (d.trib 5).any (·.gfpFill == 0))) ∧
    (let d := fun u : Option Time => { dv with fab := { dv.fab with xc := [⟨50, 31, 1⟩], tribs := [(50, { typ := 0x11, port := some 0 }), (31, { typ := 0x29, method := 6, txOpts := 0x400, unit := 0, csfSent := u })], layers := [(pathKey 50, { ssf := true })] } }
     sourceLost (d none) 31
     ∧ after (.gfpCsfTx 31) (at_ 9 (d none)) (fun d => (d.trib 31).any (·.csfSent == some 9))
     ∧ after (.gfpCsfTx 31) (at_ (ms 100) (d (some 0))) (fun d => (d.trib 31).any (·.csfSent == some (ms 100)))
     ∧ after (.gfpCsfTx 31) (at_ (ms 100 - 1) (d (some 0))) (fun d => (d.trib 31).any (·.csfSent == some 0))) := by decide +kernel

/-- A transmitter that reads a word whose parity fails counts LW_PARITY of its unit and sends a poisoned word (01 R23). -/
theorem test_transmitters_check_words :
    (let g := { up with fab := { up.fab with xc := [⟨8, 5, 2⟩], tribs := [(5, { method := 6, typ := 0x29, unit := 0 }), (8, { typ := 0x29, port := some 1024, unit := 40 })], layers := [(pathKey 5, {})] } }
     let q : Fifo := { depth := 64, entries := [slotWord 12 false, lw tagStart 1, lw tagData 2, lw tagEnd 3 false 3], committed := 4 }
     after (.gfpFrameTx 5 (some (lw tagStart 1 ^^^ 1))) (at_ 0 (withFifo ⟨.pktOut, 5⟩ q g)) (fun d =>
       (fifoOf d ⟨.pktOut, 5⟩).entries.isEmpty && (d.src 0).total == 1 && tgetD d.fab.pm.run (pathKey 5 + 0x53) 0 == 1)) ∧
    (let w := trib 3 { typ := 0x12, port := some 0, unit := 0 }
     let d := portReads (fun _ => true) 0 [(3, lw tagData 7 ^^^ 2), (4, 0)] 9 (setTxWaiting 3 [lw tagData 7, lw tagData 8]
       { w with fab := { w.fab with ports := [(0, { typ := 1, first := 0, lanes := 1 })] } })
     txWaiting d 3 = [lw tagData 5 true, lw tagData 8] ∧ (d.src 0x20).total = 1 ∧ (d.src 0x20).last = some 9) := by decide +kernel

/-- SegmentsAndImp: 07 R185, R186. -/
theorem wit_segments_and_imp :
    (let d := fun (f : List (List POct)) (g : Tbl SegRx) => { up with fab := { up.fab with tribs := [(5, { typ := 1, unit := 0 }), (6, { typ := 0x12, method := 6, parent := 5, pos := 3, segs := g, segOct := 1, unit := 0 }),
       (7, { typ := 0x29, method := 6, parent := 5, unit := 0, segIn := f })] } }
     let seg := fun (seq : Nat) => [(natBe 2 seq ++ [0x30, 0, 0xAA]).map fun o => (o, false)]
     let has := fun (r : SegRx) (d : Dev) => (d.trib 6).any (fun y => tget y.segs 3 == some r) && (d.trib 7).any (·.segIn.isEmpty)
     segmentsOf (d [] []) { typ := 0x29, parent := 5 } = [6]
     ∧ after (.segmentRx 7 3 65535) (at_ 0 (d (seg 65535) [])) (has ⟨0, 1⟩)
     ∧ after (.segmentRx 7 3 12) (at_ 0 (d (seg 12) [(3, ⟨10, 1⟩)])) (fun d => has ⟨13, 4⟩ d && tgetD d.fab.pm.run (pathKey 6 + 0x4B) 0 == 2)
     ∧ (32777 + 65536 - 10) % 65536 < 32768
     ∧ after (.segmentRx 7 3 32778) (at_ 0 (d (seg 32778) [(3, ⟨10, 1⟩)])) (fun d => has ⟨10, 1⟩ d && tgetD d.fab.pm.run (pathKey 6 + 0x4C) 0 == 1)
     ∧ after (.segmentRx 7 4 0) (at_ 0 (d [[(0, false), (0, false), (0x40, false), (0, false)]] [])) (fun d => (d.trib 7).any (·.segIn.isEmpty) && (d.trib 6).any (·.segs.isEmpty))) ∧
    (let d := fun x : Trib => trib 5 { x with method := 7, typ := 0x29, unit := 0 }
     let cs := fun (d : Dev) (c : Nat) => tgetD d.fab.pm.run (pathKey 5 + c) 0
     let rx := fun (b : Block66) (x : Trib) (p : Dev → Bool) => after (.impBlockRx 5 b) (at_ 0 (d x)) p
     let oam := blockOf 2 [0x4B]
     let start := blockOf 2 [0x78]
     let data := blockOf 1 [1, 2]
     let term := fun i => blockOf 2 [BitVec.ofNat 8 (termTypes.getD i 0)]
     [oam, start, data, term 5, idleBlock, errorBlock, blockOf 0 []].map impKind = [.oam, .start, .data, .term 5, .idle, .error, .invalid]
     ∧ rx oam {} (fun d => (d.trib 5).any (!·.impPkt))
     ∧ rx start {} (fun d => (d.trib 5).any (·.impPkt))
     ∧ rx data {} (fun d => (d.trib 5).any (·.impBuf.isEmpty))
     ∧ rx data { impPkt := true } (fun d => (d.trib 5).any (·.impBuf == [1, 2, 0, 0, 0, 0, 0, 0]))
     ∧ rx (term 5) { impPkt := true } (fun d => cs d 0x40 == 1 && cs d 0x41 == 5)
     ∧ rx (term 4) { impPkt := true } (fun d => cs d 0x47 == 1 && cs d 0x40 == 0)
     ∧ rx start { impPkt := true, impBuf := [1] } (fun d => cs d 0x4A == 1 && (d.trib 5).any (fun x => x.impPkt && x.impBuf.isEmpty))
     ∧ rx idleBlock { impPkt := true } (fun d => cs d 0x4A == 1 && (d.layer (pathKey 5)).badFrame)) := by decide +kernel

/-- SliceContexts: 07 R171-R175, R187-R191, R193; 09 R226. -/
theorem wit_slice_contexts :
    (let d := fun x : Trib => trib 5 { x with typ := 1 }
     isCfgWord 8
     ∧ after (.contextRewrite 5 8) (at_ 0 (d { unit := 3, badWords := [8], poisoned := true })) (fun d => (d.trib 5).any fun x => x.rewrites == [8])
     ∧ ((reinitWords 5 0 (d { unit := 3, badWords := [8], rewrites := [8], poisoned := true })).trib 5).any (fun x => x.badWords.isEmpty && x.rewrites.isEmpty && !x.poisoned)
     ∧ after (.contextRecreate 5) (at_ 0 (d {})) (fun d => (d.trib 5).any fun x => x.unit == 0 && x.gen == 1)
     ∧ after (.contextRecreate 5) (at_ 0 (d { unit := 3 })) (fun d => (d.trib 5).any (·.gen == 0))
     ∧ after (.sliceContextVisit 5 ⟨[], 0, false⟩) (at_ 0 (d { unit := 3, psi := { run := 2 } })) (fun d => (d.trib 5).any fun x => x.filt == filtState x && x.badWords.isEmpty)
     ∧ ctxFails 31 (lw tagData 0 ^^^ 1)
     ∧ after (.sliceContextVisit 5 ⟨[(31, lw tagData 0 ^^^ 1)], 0, false⟩) (at_ 0 (d { unit := 3 })) (fun d => (d.trib 5).any fun x => x.badWords.contains 31 && x.poisoned)
     ∧ after (.sliceContextVisit 5 ⟨[(24, lw tagData 0 true)], 0, false⟩) (at_ 0 (d { unit := 3 })) (fun d => (d.trib 5).any fun x => x.badWords.contains 24 && !x.poisoned)
     ∧ after (.sliceContextVisit 5 ⟨[(31, lw tagData 0 ^^^ 1)], 0, false⟩) (at_ 0 (d {})) (fun d => (d.trib 5).any (·.badWords.isEmpty))) ∧
    (let d := withFifo ⟨.esRx, 5⟩ { depth := 8, entries := [lw tagData 1, lw tagData 2], committed := 2 } (trib 5 { typ := 1, drain := some ⟨0, none⟩, discard := 65534 })
     let p := withFifo ⟨.pktIn, 5⟩ { depth := 8, entries := [lw tagData 1, lw tagData 2], committed := 2 } (trib 5 { typ := 0x29, drain := some ⟨0, none⟩ })
     after (.drainEnd 5) (at_ 0 d) (fun d => (d.trib 5).any (fun x => x.drain.isNone && x.discard == 65535) && (d.fifo ⟨.esRx, 5⟩).entries.isEmpty)
     ∧ after (.drainEnd 5) (at_ (sec 1) p) (fun d => (d.trib 5).any (·.drain.isNone) && (d.fifo ⟨.pktIn, 5⟩).entries.isEmpty)
     ∧ after (.drainEnd 5) (at_ 0 (trib 5 { typ := 1, drain := some ⟨0, some 4⟩ })) (fun d => (d.trib 5).isNone)) ∧
    (let c : Change := chg 0x0306 0 (.trib 5) [.own] [5, 3000000]
     let d := fun (x : Trib) => { trib 5 { x with typ := 1, parent := 10 } with fab := { (trib 5 { x with typ := 1, parent := 10 }).fab with fw := { changes := [c] } } }
     resizeOf (d {}) 5 = some c
     ∧ after (.oduflexResizeStep 5) (at_ 0 (d { rate := 2000000 })) (fun d => (d.trib 5).any fun x => x.rate == 2000000 && x.resize == some ⟨c.handle, 2000000, 3000000, 1⟩)
     ∧ after (.oduflexResizeStep 5) (at_ 0 (d { rate := 4000000 })) (fun d => (d.trib 5).any fun x => x.rate == 3000000 && x.resize == some ⟨c.handle, 4000000, 3000000, 1⟩)
     ∧ after (.oduflexResizeStep 5) (at_ 0 (d { rate := 2000000, resize := some ⟨5, 2000000, 3000000, 1⟩ })) (fun d => (d.trib 5).any fun x => x.rate == 3000000 && x.resize.isNone)
     ∧ after (.oduflexResizeTimeout 5) (at_ 0 (d { rate := 2000000, resize := some ⟨5, 2000000, 3000000, 1⟩ })) (fun d => (d.trib 5).any (fun x => x.rate == 2000000 && x.resize.isNone) && d.fab.fw.changes.isEmpty)
     ∧ after (.oduflexResizeTimeout 5) (at_ 0 (d { rate := 3000000, resize := some ⟨5, 4000000, 3000000, 1⟩ })) (fun d => (d.trib 5).any (fun x => x.resize.isSome) && d.fab.fw.changes.length == 1)) := by decide +kernel

/-- Fifos: 08 R195-R208: the words, the full FIFO, the gap marker, reads, packets, stalls. -/
theorem wit_fifos :
    (let es : FifoId := ⟨.esTx, 5⟩
     let d := fun q : Fifo => withFifo es q (trib 5 { typ := 1, unit := 3 })
     let w := lw tagData 7
     let is := fun (p : Fifo → Bool) (d : Dev) => p (fifoOf d es)
     fifoExists (d {}) es
     ∧ parityUnit (d {}) es = some 3
     ∧ stageRead (w ^^^ 1) = (lw tagData 6 true, true)
     ∧ after (.fifoWrite es (w ^^^ 1) false) (at_ 0 (d { depth := 2 })) (fun d => is (fun r => r.entries == [lw tagData 6 true]) d && (d.src 3).total == 1)
     ∧ after (.fifoWrite es w false) (at_ 0 (d { depth := 2 })) (is fun r => r.entries == [w] && r.committed == 1)
     ∧ after (.fifoWrite es (lw tagIdle 0) false) (at_ 0 (d { depth := 2 })) (is fun r => r.entries.isEmpty)
     ∧ after (.fifoWrite es w false) (at_ 0 (d { depth := 2, gapFlag := true, gap := 5 })) (is fun r => r.entries == [gapWord 5, w] && !r.gapFlag)
     ∧ after (.fifoWrite es w false) (at_ 0 (d { depth := 1, gapFlag := true, gap := 5 })) (is fun r => r.entries.isEmpty && r.gap == 6 && r.drops == 1)
     ∧ after (.fifoWrite es w false) (at_ 0 (d { depth := 0 })) (is fun r => r.entries.isEmpty && r.gap == 1 && r.drops == 1)
     ∧ after (.fifoRead es none) (at_ 0 (d { depth := 4, entries := [w, lw tagData 8], committed := 2 })) (is fun r => r.last == w && r.committed == 1)
     ∧ after (.fifoRead es none) (at_ 0 (d { depth := 4, entries := [gapWord 3, w], committed := 2 })) (fun d => (fifoOf d es).last == w && tgetD d.fab.pm.run (pathKey 5 + 0x55) 0 == 3)
     ∧ after (.fifoRead es none) (at_ 0 (d { depth := 4, last := w })) (is fun r => r.last == w && r.underrun && r.under == 1)) ∧
    (after (.fifoRead ⟨.cdma, 0⟩ none) (at_ 0 up) (fun d => (fifoOf d ⟨.cdma, 0⟩).stalled && (fifoOf d ⟨.cdma, 0⟩).stalls == 1 && (fifoOf d ⟨.cdma, 0⟩).under == 0)
     ∧ after (.fifoStallLong ⟨.cdma, 3⟩) (at_ 0 (withFifo ⟨.cdma, 3⟩ { stalled := true } up)) (fun d => (d.src 0x167).total == 1)
     ∧ after (.fifoStallLong ⟨.cdma, 3⟩) (at_ 0 up) (fun d => (d.src 0x167).total == 0)) ∧
    (let pk : FifoId := ⟨.pktIn, 5⟩
     let d := fun q : Fifo => withFifo pk q (trib 5 { typ := 0x29, unit := 3 })
     let a := lw tagStart 7
     let z := lw tagEnd 9 false 1
     let is := fun (p : Fifo → Bool) (d : Dev) => p (fifoOf d pk)
     fifoExists (d {}) pk
     ∧ after (.packetStartWrite pk a) (at_ 0 (d { depth := 2 })) (is fun r => r.entries == [lw tagData 0, a] && r.mark == some 0 && r.committed == 0 && r.pktLen == 1)
     ∧ after (.packetStartWrite pk a) (at_ 0 (d { depth := 1 })) (is fun r => r.entries.isEmpty && r.discarding && r.gapFlag && r.drops == 1)
     ∧ after (.fifoWrite pk (lw tagData 8 true) false) (at_ 0 (d { depth := 3, entries := [lw tagData 0, a], mark := some 0, pktLen := 1 })) (is fun r => r.entries.length == 3 && r.committed == 0 && r.pktLen == 2 && r.poisonAny)
     ∧ after (.packetEndWrite pk z) (at_ 0 (d { depth := 3, entries := [lw tagData 0, a], mark := some 0, pktLen := 1 })) (is fun r => r.entries == [slotWord 6 false, a, z] && r.committed == 3 && r.mark.isNone)
     ∧ after (.packetEndWrite pk z) (at_ 0 (d { depth := 2, entries := [lw tagData 0, a], mark := some 0, pktLen := 1 })) (is fun r => r.entries == [gapWord 1] && r.committed == 1 && r.overruns == 1)) := by decide +kernel

/-- Fifos: a received word goes on to its destination; a word that has crossed enters its store. -/
theorem wit_fifo_delivers :
    (let w := lw tagData 7
     let d := withFifo ⟨.esRx, 50⟩ { depth := 4, entries := [w], committed := 1 } (withFifo ⟨.esTx, 51⟩ { depth := 4 }
       { up with fab := { up.fab with xc := [⟨50, 51, 1⟩], tribs := [(50, { typ := 0x20, port := some 0, unit := 32 }), (51, { typ := 0x20, port := some 0, unit := 32 })] } })
     let d := { d with fab := { d.fab with fifos := [(fifoKey ⟨.esRx, 50⟩, { depth := 4, entries := [w], committed := 1 }), (fifoKey ⟨.esTx, 51⟩, { depth := 4 })] } }
     fifoExists d ⟨.esRx, 50⟩
     ∧ rxDests d 50 = [51]
     ∧ after (.fifoRead ⟨.esRx, 50⟩ none) (at_ 0 d) (fun d => (fifoOf d ⟨.esTx, 51⟩).entries == [w] && (fifoOf d ⟨.esRx, 50⟩).entries.isEmpty)) ∧
    (let w := lw tagData 7
     let d := { up with fab := { up.fab with xcCtx := [(2, some 50)], tribs := [(50, { typ := 0x20, port := some 0, unit := 32 })]
                                             fifos := [(fifoKey ⟨.xc, 2⟩, { depth := 4, entries := [w], committed := 1 }), (fifoKey ⟨.esRx, 50⟩, { depth := 4 })] } }
     fifoExists d ⟨.xc, 2⟩
     ∧ tgetD d.fab.xcCtx 2 none = some 50
     ∧ after (.fifoRead ⟨.xc, 2⟩ none) (at_ 0 d) (fun d => (fifoOf d ⟨.esRx, 50⟩).entries == [w])) := by decide +kernel

/-- CrossConnectAndWatermarks: 01 R23-R25; 08 R210-R220. -/
theorem wit_cross_connect_and_watermarks :
    (let d := fun (k : List Nat) (w : LaneWord) => { up with fab := { up.fab with xcSkip := k, xcOut := [(47, [w])], boot := { up.fab.boot with pbCompat := true } } }
     let w := lw tagData 7
     let c := lw tagCtx 5
     after (.xcWord 47 none) (at_ 0 (d [47] c)) (fun d => d.fab.xcSkip.isEmpty && tget d.fab.xcLast 47 == some c && (fifoOf d ⟨.xc, 47⟩).entries == [c])
     ∧ after (.xcWord 47 (some (lw tagCtx 5 true))) (at_ 0 (d [] c)) (fun d => d.fab.xcSkip == [47])
     ∧ after (.xcWord 47 none) (at_ 0 (d [47] w)) (fun d => tgetD d.fab.xcDiscard 47 0 == 1)
     ∧ after (.xcWord 47 none) (at_ 0 (d [] w)) (fun d => tget d.fab.xcLast 47 == some w && tgetD d.fab.xcOut 47 [] == [])
     ∧ after (.xcWord 47 none) (at_ 0 (d [] (lw tagIdle 0))) (fun d => d.fab.xcLast.isEmpty && tgetD d.fab.xcOut 47 [] == [])
     ∧ after (.xcWord 0 none) (at_ 0 (d [] w)) (fun d => d.fab.xcLast.isEmpty)
     ∧ after (.pbEntryRead 7 (hamEntry 0 true)) (at_ 0 (d [] w)) (fun d => tget d.fab.pb 7 == some { expect := takeControl 0 })
     ∧ after (.pbEntryRead 7 (hamEntry 9 false)) (at_ 0 (d [] w)) (fun d => tget d.fab.pb 7 == some { expect := .skip, out := badGap, uncorr := 1 })
     ∧ after (.pbEntryRead 0 (hamEntry 0 true ^^^ 8)) (at_ 0 (d [] w)) (fun d => (tget d.fab.pb 0).any fun x => x.corr == 1 && x.uncorr == 0 && x.expect == takeControl 0)
     ∧ pbStep .gapCount ⟨9, false, false, false⟩ = (.control, [lw tagGap 9], false)
     ∧ pbStep .skip ⟨0, true, true, false⟩ = (takeControl 0, [], false)) ∧
    (let d := fun (on : Bool) (n : Nat) => { withFifo ⟨.pktIn, 30⟩ { entries := List.replicate n 0 } dv with fab := { (withFifo ⟨.pktIn, 30⟩ { entries := List.replicate n 0 } dv).fab with wgs := [(3, { high := 3, low := 2, pfc := some (1024, 5), members := [(30, false, 0)], on := on })], xoff := if on then 8 else 0 } }
     let p := fun (d : Dev) => (d.port 1024).bind (·.eth.pfcOut)
     after (.watermarkEvaluation 3) (at_ 0 (d false 3)) (fun d => d.fab.xoff == 8 && p d == some (5, 0xFFFF))
     ∧ after (.watermarkEvaluation 3) (at_ 0 (d false 2)) (fun d => d.fab.xoff == 0)
     ∧ after (.watermarkEvaluation 3) (at_ 0 (d true 2)) (fun d => d.fab.xoff == 8 && p d == none)
     ∧ after (.watermarkEvaluation 3) (at_ 0 (d true 1)) (fun d => d.fab.xoff == 0 && p d == some (5, 0))
     ∧ after (.pfcRepeat 3) (at_ 0 (d true 2)) (fun d => p d == some (5, 0xFFFF))
     ∧ after (.pfcRepeat 3) (at_ 0 (d false 2)) (fun d => p d == none)) := by decide +kernel

def lay (k : Nat) (l : Layer) (p : Pm) : Dev := { up with fab := { up.fab with layers := [(k, l)], pm := p, tribs := [(5, { typ := 1 })] } }
def sc (es ses : Bool) (bbe : Nat) : SecClass := ⟨0, es, ses, bbe, false, false, 0, false⟩
def pgd (g : Pg) : Dev := { up with fab := { up.fab with pgs := [(1, g)] } }
def pgm (g : Pg) : Pg := { g with ws := if g.ws.isEmpty then [{ o := .trib 71 }] else g.ws, p := { g.p with o := .trib 70 } }
def al (e : Errl) (g : Pg := {}) : Dev := pgd (pgm { g with errl := { e with on := true } })
def errF (prot : Bool) (k n : Nat) : ErrlFrame := ⟨prot, n, [lw tagData (wd (256 * n)), lw tagData (wd n)], true, false, n * 32768 + k, []⟩
def hist (k n : Nat) : List SigRec := (List.range n).map fun i => sigRecOf {} (errF false k i)
def str (x : Trib) (z : Sched) : Dev := { up with fab := { up.fab with scheds := [(30, z)], xc := [⟨50, 30, 2⟩], tribs := [(30, { x with typ := 0x29, port := some 1024, rate := 1000000, parent := 30 }), (50, { typ := 0x29, port := some 1025 })] } }

/-- PerformanceMonitoring: 10 R234, R241-R254. -/
theorem wit_performance_monitoring :
    (let k := pathKey 5
     let run := fun (d : Dev) (i : Nat) => tgetD d.fab.pm.run i 0
     after .pmSecondEnd (at_ (sec 1) (lay k { eb := 3 } { run := [(k + 1, 7)], folded := [(k + 1, 2)] })) (fun d => (d.layer k).held.length == 1 && tgetD (tgetD d.fab.pm.cur15 k {}).vals 1 0 == 5 && tgetD d.fab.pm.folded (k + 1) 0 == 7)
     ∧ after .pmSecondEnd (at_ (sec 1 - 1) (lay k {} {})) (fun d => (d.layer k).held.isEmpty)
     ∧ after .pmSecondEnd (at_ (sec 1) { lay k {} {} with fab := { (lay k {} {}).fab with tribs := [(5, { typ := 1, poisonOut := 9, discard := 8 })] } }) (fun d => (d.trib 5).any fun x => x.poisonOut == 0 && x.discard == 0)
     ∧ after .pmSecondCommit (at_ 0 (lay k { held := sc true false 9 :: List.replicate 9 (sc false false 0) } {})) (fun d => run d (k + 3) == 1 && run d (k + 2) == 9 && run d (k + 5) == 0 && (d.layer k).held.length == 9)
     ∧ after .pmSecondCommit (at_ 0 (lay k { held := List.replicate 10 (sc true true 0) } {})) (fun d => run d (k + 5) == 1 && run d (k + 3) == 0 && (d.layer k).unavail)
     ∧ after .pmSecondCommit (at_ 0 (lay k { unavail := true, held := List.replicate 9 (sc false false 0) ++ [sc true true 0] } {})) (fun d => run d (k + 5) == 1 && (d.layer k).unavail)
     ∧ after .pmSecondCommit (at_ 0 (lay k { unavail := true, held := List.replicate 10 (sc true false 4) } {})) (fun d => run d (k + 2) == 4 && !(d.layer k).unavail)
     ∧ after .pmSecondCommit (at_ 0 (lay k { held := List.replicate 9 (sc true true 0) } {})) (fun d => (d.layer k).held.length == 9 && !(d.layer k).unavail)) ∧
    (let k := pathKey 5
     degDef (lay k {} {}) k = some .oduDeg
     ∧ portSuppressed (lay k {} {}) k .oduDeg = false
     ∧ after .degradeIntervalEnd (at_ (sec 1) (lay k { degEb := 100, degBad := 6 } {})) (fun d => hasDef d k .oduDeg && (d.layer k).degEb == 0)
     ∧ after .degradeIntervalEnd (at_ (sec 1) (lay k { degEb := 99, degBad := 6 } {})) (fun d => !hasDef d k .oduDeg && (d.layer k).degGood == 1 && (d.layer k).degBad == 0)
     ∧ after .degradeIntervalEnd (at_ (sec 1) (lay k { degEb := 0, degGood := 6, defs := [.oduDeg] } {})) (fun d => !hasDef d k .oduDeg)
     ∧ after .degradeIntervalEnd (at_ (sec 1) (lay k { degEb := 0, degGood := 5, defs := [.oduDeg] } {})) (fun d => hasDef d k .oduDeg)) ∧
    (let k := pathKey 5
     after .pmBinBoundary (at_ (sec 900) (lay k { unavail := true } { cur15 := [(k, { vals := [(1, 4)] })], fired := [1] })) (fun d => d.fab.pm.cur15.isEmpty && d.fab.pm.fired.isEmpty && tgetD d.fab.pm.hist15 k [] == [{ vals := [(1, 4)], flags := 2 }])
     ∧ after .ledgerRecordBuild (at_ (sec 10) { up with fab := { up.fab with fw := { epochChanged := true } } }) (fun d => d.fab.fw.ledger.isEmpty)
     ∧ after .ledgerRecordBuild (at_ (sec 1810) { up with fab := { up.fab with fw := { epochChanged := true, ledger := [⟨4, []⟩] } } }) (fun d => d.fab.fw.ledger.map (·.seq) == [4, 5] && !d.fab.fw.epochChanged)
     ∧ after (.failureDeclare ⟨k, defBit k .oduDeg⟩) (at_ (20000 * frame + 5) (lay k { defs := [.oduDeg], chg := [(.oduDeg, 5)] } {})) (fun d => (d.layer k).fails == [defBit k .oduDeg])
     ∧ after (.failureDeclare ⟨k, defBit k .oduDeg⟩) (at_ (20000 * frame + 4) (lay k { defs := [.oduDeg], chg := [(.oduDeg, 5)] } {})) (fun d => (d.layer k).fails.isEmpty)
     ∧ after (.failureClear ⟨k, defBit k .oduDeg⟩) (at_ (80000 * frame) (lay k { fails := [defBit k .oduDeg] } {})) (fun d => (d.layer k).fails.isEmpty)) := by decide +kernel

/-- ProtectionDecisions: 11 R257, R262-R267. -/
theorem wit_protection_decisions :
    (let is := fun (g : Pg) (p : Pg → Bool) => ((evalPg 1 9 (pgd (pgm g))).pg 1).any p
     let sf : PgMem := { o := .trib 71, rsf := true }
     let sd : PgMem := { o := .trib 71, rsd := true }
     let pf : PgMem := { o := .dev, rsf := true }
     is { cmd := some (.lo, 0), ws := [sf] } (fun y => y.act == .lo && y.sel == 0 && y.bridge == 0)
     ∧ is { p := pf, ws := [sf], sel := 1 } (fun y => y.act == .sfp && y.sel == 0)
     ∧ is { cmd := some (.fs, 1) } (fun y => y.act == .fs && y.sel == 1 && y.bridge == 1)
     ∧ is { ws := [sf] } (fun y => y.act == .sf && y.sel == 1 && y.why)
     ∧ is { ws := [sd] } (fun y => y.act == .sd && y.sel == 1)
     ∧ is {} (fun y => y.act == .nr && y.sel == 0)
     ∧ is { sel := 1, revertive := true } (fun y => y.act == .nr && y.sel == 0)
     ∧ is { sel := 1, why := true, revertive := true, wtr := 5 } (fun y => y.act == .wtr && y.sel == 1 && y.wtrEnd == some (9 + frames 2400000))
     ∧ is { sel := 1, why := true } (fun y => y.act == .dnr && y.sel == 1 && y.dnr)
     ∧ after .pgEvaluation (at_ 9 (pgd (pgm { ws := [sf] }))) (fun d => (d.pg 1).any (·.sel == 1))
     ∧ after (.pgFastEvaluation 1) (at_ 9 (al {} { ws := [sf] })) (fun d => (d.pg 1).any (·.sel == 1))
     ∧ after (.selectorSwitch 1) (at_ 9 (pgd (pgm { sel := 1 }))) (fun d => d.fab.feeds == [(.trib 71, .trib 70)] && (d.pg 1).any fun y => y.selNow == 1 && tgetD y.cnt 0 0 == 1)
     ∧ after (.selectorSwitch 1) (at_ 9 { pgd (pgm { selNow := 1 }) with fab := { (pgd (pgm { selNow := 1 })).fab with feeds := [(.trib 71, .trib 70)] } }) (fun d => d.fab.feeds.isEmpty)
     ∧ after (.bridgeSwitch 1) (at_ 9 (pgd (pgm { bridge := 1 }))) (fun d => (d.pg 1).any fun y => y.bridgeNow == 1 && tget y.times 2 == some 9)) := by decide +kernel

/-- ProtectionInputs: 11 R259, R266-R269, R281; 10 R240. -/
theorem wit_protection_inputs :
    (let is := fun (p : Pg → Bool) (d : Dev) => (d.pg 1).any p
     let d := fun g : Pg => pgd (pgm g)
     let l := fun (n : Nat) (x : Layer) (d : Dev) => { d with fab := { d.fab with layers := [(pathKey n, x)], tribs := [(70, { typ := 1, aps := [(7, { acc := some 0xC1100000 })] })] } }
     let sd : Layer := { tsf := true, tsd := true }
     after (.defectFastPath (.trib 71)) (at_ 9 (l 71 { ssf := true } (d {}))) (is fun y => y.ws.all fun m => m.ssf && m.rsf && m.hold.isNone)
     ∧ after (.defectFastPath (.trib 71)) (at_ 9 (l 71 {} (d {}))) (is fun y => y.ws.all fun m => m == { o := .trib 71 })
     ∧ after (.defectFastPath (.trib 71)) (at_ 9 (l 71 { ssf := true } (d { holdOff := 2 }))) (is fun y => y.ws.all fun m => m.ssf && !m.rsf && m.hold == some (9 + frames 1600))
     ∧ after (.defectFastPath (.trib 70)) (at_ 9 (l 70 sd (d {}))) (is fun y => y.p.tsf && y.p.rsf && y.p.rsd && y.far == (farOf up (pgm {}) 0xC1100000).1)
     ∧ apsAccepted (l 70 sd (d {})) (pgm {}) = some 0xC1100000
     ∧ after (.defectFastPath (.trib 71)) (at_ 9 (l 71 { ssf := true } (d { errl := { st := .aligned, freeSince := some 0 } }))) (is fun y => y.errl.st == .hold && y.errl.freeSince.isNone)
     ∧ after (.holdOffExpiry 1 1) (at_ 9 (d { ws := [{ o := .trib 71, tsf := true, hold := some 9 }] })) (is fun y => y.ws.all fun m => m.rsf && m.hold.isNone)
     ∧ after (.holdOffExpiry 1 1) (at_ 8 (d { ws := [{ o := .trib 71, tsf := true, hold := some 9 }] })) (is fun y => y.ws.all fun m => !m.rsf && m.hold == some 9)
     ∧ after (.wtrExpiry 1) (at_ 9 (d { wtrEnd := some 9 })) (is (·.wtrEnd.isNone))
     ∧ after (.wtrExpiry 1) (at_ 8 (d { wtrEnd := some 9 })) (is (·.wtrEnd.isSome))
     ∧ after (.pgFopNrTimeout 1) (at_ (frames 400) (d { bidir := true, txReq := .sf, txMem := 1 })) (is (·.fopNr))
     ∧ after (.pgStateParity 1) (at_ 9 (d { wtrEnd := some 9, far := { mem := 1 }, ws := [{ o := .trib 71, tsf := true, hold := some 9 }] })) (is fun y => y.wtrEnd.isNone && y.far == {} && y.ws.all (·.rsf))) := by decide +kernel

/-- ErrorlessSwitching: 11 R274-R279: the states of the alignment machine, the switch and the build-out. -/
theorem wit_errorless_switching :
    (let is := fun (p : Errl → Bool) (d : Dev) => (d.pg 1).any fun g => p g.errl
     let f := fun n : Nat => Instr.errorlessFrame 1 (errF true 1000 n)
     let t := 9 * frame
     let h : Errl := { wSigs := hist 0 9, pSigs := hist 1000 7 }
     after (f 7) (at_ t (al { freeSince := some 0 })) (is fun e => e.st == .search && e.pSigs.length == 1)
     ∧ after (f 7) (at_ t (al { st := .hold, freeSince := some 0 })) (is (·.st == .confirm))
     ∧ after (f 7) (at_ t (al { h with st := .search })) (is fun e => e.st == .confirm && e.d == 1000 && e.offset == 0)
     ∧ after (f 7) (at_ t (al { h with st := .confirm })) (is fun e => e.st == .confirm && e.run == 1)
     ∧ after (f 7) (at_ t (al { h with st := .confirm, run := 7 })) (is fun e => e.st == .aligned && e.d == 1000)
     ∧ after (f 7) (at_ t (al { h with st := .confirm, offset := 1 })) (is (·.st == .search))
     ∧ after (f 7) (at_ t (al { h with st := .aligned, miss := 3 })) (is fun e => e.st == .aligned && e.miss == 0)
     ∧ after (f 7) (at_ t (al { h with st := .aligned, offset := 1, miss := 3 })) (is (·.st == .search))
     ∧ after (f 7) (at_ t (al { h with st := .aligned, offset := 1, miss := 2 })) (is fun e => e.st == .aligned && e.miss == 3)
     ∧ after (.errorlessFrame 1 (errF true 3145729 7)) (at_ (200 * frame) (al { h with st := .aligned })) (is (·.st == .search))) ∧
    (let g : Pg := pgm { sel := 1, errl := { on := true, st := .aligned, nsw := some 4, wSigs := [⟨4, 0, true, 0⟩] } }
     g.errorless
     ∧ outNum (pgd g) g (2 * frame) = 4
     ∧ after (.errorlessSwitch 1) (at_ (2 * frame) (pgd g)) (fun d => (d.pg 1).any fun y => y.selNow == 1 && y.errl.nsw.isNone && tgetD y.cnt 1 0 == 1)
     ∧ after (.errorlessSwitch 1) (at_ (2 * frame - 1) (pgd g)) (fun d => (d.pg 1).any fun y => y.selNow == 0 && y.errl.nsw == some 4)
     ∧ after (.pgBuildOut 1) (at_ 0 (al { buildOut := some 4 })) (fun d => (d.pg 1).any fun y => y.errl.lag == 4 && tgetD y.cnt 3 0 == 1)
     ∧ after .alignBufferReplace (at_ 9 (al { need := 943718 })) (fun d => (d.pg 1).any fun y => y.errl.units == 943718 && y.errl.st == .search)
     ∧ after .alignBufferReplace (at_ 9 (al { need := 943719 })) (fun d => (d.pg 1).any fun y => y.errl.units == 0)) ∧
    (let ws := (List.range 18).map fun i => lw tagData (wd i) (i == 17)
     ws ≠ [] ∧ ws.length ≤ 16 * 2
     ∧ readFrame 18 5 [] (addFrame 2 5 ws []) = (List.range 18).map fun i => lw (if i = 0 then tagFrame else tagData) (wd i) (decide (16 ≤ i))) := by decide +kernel

/-- PacketEnqueue: 12 R285-R289, R303, R304. -/
theorem wit_packet_enqueue :
    (let q := fun (p : Queue → Bool) (d : Dev) => p (qOf (d.sched 30) 0)
     let pk : Instr := .packetEnqueue 50
     let ws := [lw tagStart 7, lw tagEnd 9]
     let inn := fun (es : List LaneWord) (d : Dev) => { d with fab := { d.fab with fifos := [(fifoKey ⟨.pktIn, 50⟩, { depth := 9, entries := es, committed := es.length })] } }
     let str := fun (x : Trib) (z : Sched) => inn (slotWord 8 false :: ws) (str x z)
     let c : QCfg := { maxOct := 8, yellow := 0 }
     isStream (str {} {}) 50
     ∧ nextPacket (takeGaps 3 (fifoOf (str {} {}) ⟨.pktIn, 50⟩) 0).1 = some (ws, 8, { depth := 9 })
     ∧ after pk (at_ 9 (inn [] (str {} {}))) (q (·.pkts.isEmpty))
     ∧ after pk (at_ 9 (inn (gapWord 2 :: slotWord 8 false :: ws) (str {} {}))) (q fun y => y.pkts.map (·.gap) == [2] && y.gap == 0)
     ∧ destsOf (str {} {}) 50 = [30]
     ∧ after pk (at_ 9 (str { txEn := false } {})) (q (·.pkts.isEmpty))
     ∧ after pk (at_ 9 (str {} {})) (q fun y => y.pkts.map (fun p => (p.len, p.ws)) == [(8, bankWords up ws)] && tgetD y.cnt cEnqPkts 0 == 1 && tgetD y.cnt cEnqOct 0 == 8)
     ∧ after pk (at_ 9 (str {} { queues := [(0, { cfg := some c })] })) (q fun y => y.pkts.map (·.len) == [8])
     ∧ after pk (at_ 9 (str {} { queues := [(0, { cfg := some { c with maxOct := 7 } })] })) (q fun y => y.pkts.isEmpty && y.gap == 1 && tgetD y.cnt cDropFull 0 == 1)
     ∧ after pk (at_ 9 { str {} {} with fab := { (str {} {}).fab with maps := [(50, { pol := [(0, ⟨0, 0, 0, 0, 0, 0, 0⟩)] })] } }) (q fun y => y.pkts.isEmpty && y.gap == 1 && y.cnt.isEmpty)) := by decide +kernel

/-- Selection: 12 R290-R299, R303. -/
theorem wit_selection :
    (let p : QPkt := { len := 100, at_ := 0, released := true, spilled := false }
     let c : QCfg := { kind := .strict, pbs := 100 }
     let z : Sched := { queues := [(5, { cfg := some c, pkts := [p, p] })] }
     let is := fun (q : Sched → Bool) (d : Dev) => q (d.sched 30)
     after (.schedulerSelect 30) (at_ 9 (str {} z)) (is fun y => y.sending == some 5 && (qOf y 5).pkts.length == 1 && y.busyUntil == 9 + txUnits 120 999900 && tgetD (qOf y 5).cnt cDeqOct 0 == 100)
     ∧ after (.schedulerSelect 30) (at_ 9 (str {} { z with busyUntil := 10 })) (is fun y => y.sending.isNone)
     ∧ after (.schedulerSelect 30) (at_ 9 (str {} { z with hold := true })) (is fun y => y.sending.isNone && (qOf y 5).pkts.length == 2)
     ∧ after (.schedulerSelect 30) (at_ 9 (str { txEn := false } z)) (is fun y => y.sending.isNone)
     ∧ (choose (str {} z) 30 { typ := 0x29, port := some 1024 } z 9).1 = some 5
     ∧ after (.gateEntryChange 30) (at_ 100 (str {} { gate := some ⟨[(1, 100), (2, 50)], 0⟩, gateEnd := 100 })) (is fun y => y.gateIdx == 1 && y.gateEnd == 150)
     ∧ after (.gateEntryChange 30) (at_ 99 (str {} { gate := some ⟨[(1, 100), (2, 50)], 0⟩, gateEnd := 100 })) (is fun y => y.gateIdx == 0)
     ∧ after .batchInstant (at_ (8 * frame) (let d := str {} { queues := [(5, { cfg := some { kind := .deferrable }, pkts := [{ p with released := false }] })] }; { d with aon := { d.aon with gov := { d.aon.gov with batch := 8 } } })) (is fun y => (qOf y 5).pkts.all (·.released))
     ∧ after .batchInstant (at_ (9 * frame) (let d := str {} { queues := [(5, { cfg := some { kind := .deferrable }, pkts := [{ p with released := false }] })] }; { d with aon := { d.aon with gov := { d.aon.gov with batch := 8 } } })) (is fun y => (qOf y 5).pkts.all (!·.released))) ∧
    (let ch := fun (n : Nat) => { chg 0x0605 50 (.stream 30) [.own] [30, n] with msgs := [messageWords 0x0605 (mk 16 ([30, BitVec.ofNat 32 (0x80000000 + n * 65536 + n)] ++ (List.replicate n 0x01000040 ++ List.replicate (8 - n) 0)))] }
     let d := fun (n : Nat) (z : Sched) => { str {} z with fab := { (str {} z).fab with fw := { changes := [ch n] } } }
     after (.gateListStart 30) (at_ 49 (d 2 {})) (fun d => (d.sched 30).gate.isNone && d.fab.fw.changes.length == 1)
     ∧ after (.gateListStart 30) (at_ 50 (d 2 {})) (fun d => (d.sched 30).gate == some ⟨[(1, 64), (1, 64)], 50⟩ && (d.sched 30).gateEnd == 114 && d.fab.fw.changes.isEmpty)
     ∧ after (.gateListStart 30) (at_ 50 (d 0 { gate := some ⟨[(1, 100)], 0⟩ })) (fun d => (d.sched 30).gate.isNone && d.fab.fw.changes.isEmpty)
     ∧ ownReady (d 2 {}) (ch 2) 50
     ∧ (let d := { d 2 {} with fab := { (d 2 {}).fab with fw := { changes := [{ ch 2 with handle := 4, trig := 60 }, ch 2] } } }
        after (.gateListStart 30) (at_ 50 d) (fun d => (d.sched 30).gate.isNone && d.fab.fw.changes.length == 2))) := by decide +kernel

/-- Banks: 12 R288; 14 R350; 01 R33. -/
theorem wit_banks :
    (let p : QPkt := { len := 100, at_ := 0, released := true, spilled := false }
     let d := fun (a : Aon → Aon) (x : Dom) => { str {} { queues := [(3, { pkts := [p], bank := 3 }), (4, { pkts := [p], bank := 4 })] } with aon := a up.aon, fab := { (str {} { queues := [(3, { pkts := [p], bank := 3 }), (4, { pkts := [p], bank := 4 })] }).fab with pd := { up.fab.pd with banks := [(3, x), (5, x)] } } }
     let fen := fun a : Aon => { a with coll := { a.coll with fenced := [0x33] } }
     let gov := fun a : Aon => { a with gov := { a.gov with batch := 8 }, pwr := { a.pwr with policyIn := 0x08000000 } }
     let bk := fun (b : Nat) (st : Pw) (d : Dev) => (bankDom d b).st == st
     after (.bankQueueRedistribute 3) (at_ 0 (d fen {})) (fun d => (qOf (d.sched 30) 3).pkts.isEmpty && (qOf (d.sched 30) 3).bank == 4 && (qOf (d.sched 30) 3).gap == 1 && (qOf (d.sched 30) 4).pkts.length == 1)
     ∧ isOctet 0
     ∧ after (.bankQueueRedistribute 3) (at_ 0 (d id {})) (fun d => (qOf (d.sched 30) 3).pkts.length == 1)
     ∧ after (.bankRetain 5) (at_ 0 (d gov ⟨.on, 0⟩)) (bk 5 .retain)
     ∧ after (.bankRetain 3) (at_ 0 (d gov ⟨.on, 0⟩)) (bk 3 .on)
     ∧ after (.bankRetain 5) (at_ (8 * frame - bankClear) (d gov ⟨.on, 0⟩)) (bk 5 .on)
     ∧ after (.bankRetain 5) (at_ 0 (d id ⟨.on, 0⟩)) (bk 5 .on)
     ∧ after (.bankWake 5) (at_ 7 (d gov ⟨.waking, 7⟩)) (bk 5 .on)
     ∧ after (.bankWake 5) (at_ (8 * frame - bankWake) (d gov ⟨.retain, 0⟩)) (bk 5 .on)
     ∧ after (.bankWake 5) (at_ (8 * frame - bankWake - 1) (d gov ⟨.retain, 0⟩)) (bk 5 .retain)) := by decide +kernel

/-- StepRunsFront, FrameCount, TimeAndQueue, StandbyHolds, SnowdropHolds, AntiRollbackKept: 02 R35-R43; 14 R331; 18
R427, R428; 19 R436, R444. -/
theorem wit_whole_block :
    (let z := { up with aon := { standby := true } }
     let w := { up with aon := { snowdrop := true } }
     let fr := fun (r : Host.Outcome State Fault Refusal) (p : State → Bool) => ((match r with | .next s => p s | _ => false) : Bool)
     fr (step { at_ 5 up with pending := [.dfeFrame, .batchInstant] }) (fun s => s.clock.now == frame && s.pending == [.batchInstant])
     ∧ fr (step (at_ 5 up)) (fun s => s.clock.now == 6 && s.dev == up)
     ∧ fr (step (at_ 32767 up)) (fun s => s.clock.now == 32768)
     ∧ fr (exec (.aonPowerOnReset .porPin ⟨true, false, 0, 0, true⟩) (at_ 5 up)) (fun s => s.clock.now == 0)
     ∧ fr (exec .dfeFrame (at_ 5 up)) (fun s => s.clock.now == frame)
     ∧ aonActs (.ampJustification ⟨5, none, none⟩) = false
     ∧ leavesStandby (.ampJustification ⟨5, none, none⟩) = false
     ∧ fr (step { at_ 0 z with pending := [.ampJustification ⟨5, none, none⟩] }) (fun s => s.dev.aon.standby)
     ∧ stopsInSnowdrop (.selectorSwitch 1)
     ∧ fr (exec (.selectorSwitch 1) (at_ 0 w)) (fun s => s.dev == w)
     ∧ fr (exec (.systemReset true) (at_ 0 w)) (fun s => s.dev == w)
     ∧ fr (step { at_ 0 w with pending := [.refselChange 1] }) (fun s => s.dev.aon.snowdrop)
     ∧ fr (exec (.aonPowerOnReset .porPin ⟨true, false, 0, 0, true⟩) (at_ 0 w)) (fun s => s.dev == w)
     ∧ (State.reset.dev.aon.arbStep ≤ 128)
     ∧ fr (step { at_ 0 up with pending := [.batchInstant] }) (fun s => s.dev.aon.arbStep == up.aon.arbStep)) := by decide +kernel

end Sys2Proof.Tests
end

section
/-!
SUPPORT. A configuration command that passes its checks is acknowledged, and its change is pending.
-/
namespace Sys2Proof.Machine
open Safety

/-- The device once firmware has accepted a configuration command (16 R383). -/
def accepted (c : Cmd) (x : Ctx) (trig : Time) (d : Dev) : Dev :=
  acceptChange c x (c.obj x d) (c.parts x d) (morePlace (c.place x d) (c.place x (c.grown d))) trig (nextHandle d) 0xFF d

theorem serveConfig_accepts (c : Cmd) (x : Ctx) (trig : Time) (d : Dev)
    (ht : (c.trigger x d).or (triggerOf x) = some trig) (he : changeErr c x (some trig) d = none) :
    serveConfig c x d = ⟨accepted c x trig d, rcDeferred, nextHandle d, none⟩ := by
  unfold serveConfig accepted
  cases hc : c.trigger x d with
  | none =>
    have ht : triggerOf x = some trig := by rw [hc] at ht; exact ht
    simp only [ht, he, Option.getD_some]
  | some u =>
    obtain rfl : u = trig := by rw [hc] at ht; exact Option.some.inj ht
    simp only [he, Option.getD_some]

/-- Items 1 to 8 of R380 lead to acceptance (16 R380, R383). -/
theorem handle_passes (c : Cmd) (m : Msg) (s : State) (trig : Time) (h : Passes c m s trig)
    (hk : c.kind = .config) (hn : c.code ≠ 0x0102) (hc : c.code < 65536) :
    handle c (ctxOf c m s) (posted c m s)
      = ⟨accepted c (ctxOf c m s) trig (posted c m s), rcDeferred, nextHandle (posted c m s), none⟩ := by
  obtain ⟨-, ⟨hver, -, hlay, hperm, hmode⟩, hmem, hlock, htrig, herr⟩ := h
  have hws : (ctxOf c m s).msgs.getLastD [] = messageWords c.code m := by simp [ctxOf]
  have hv : fld ((messageWords c.code m).headD 0) 3 0 = 1 := by rw [(w0_fields c.code hc m).2.2, hver]; rfl
  unfold handle
  simp only [hws, hv, hlay, hperm, hmode, hk, hmem, hlock, hn, bne_self_eq_false, Bool.not_true, Bool.false_and,
    Bool.false_eq_true, if_false, reduceCtorEq, false_and]
  exact serveConfig_accepts c _ trig _ htrig herr

theorem chan_accepted (c : Cmd) (x : Ctx) (trig : Time) (d : Dev) (ha : ∀ e d', c.onAccept e d' = d') (k : Nat) :
    (accepted c x trig d).chan k = d.chan k := by
  unfold accepted acceptChange
  dsimp only
  rw [ha]; rfl

/-- The change that firmware accepts is pending, with the command's words, trigger time, object and boundaries. -/
theorem accepted_pending (c : Cmd) (x : Ctx) (trig : Time) (d : Dev) (ha : ∀ e d', c.onAccept e d' = d') :
    ∃ e ∈ (accepted c x trig d).fab.fw.changes,
      e.handle = nextHandle d ∧ e.msgs = x.msgs ∧ e.code = BitVec.ofNat 16 c.code
        ∧ e.tag = BitVec.ofNat 8 (fld (x.w 0) 15 8) ∧ e.ch = x.ch ∧ e.sender = x.m ∧ e.trig = trig ∧ e.accepted = x.t
        ∧ e.obj = c.obj x d ∧ e.parts = c.parts x d := by
  unfold accepted acceptChange
  dsimp only
  rw [ha]
  exact ⟨_, List.mem_append_right _ (List.mem_singleton_self _), rfl, rfl, rfl, rfl, rfl, rfl, rfl, rfl, rfl, rfl⟩

/-- A configuration row completes with the effect that every change of the command has (16 R383; 02 R46, R53). -/
theorem carries_of_effect (row : Msg → Instr) (c : Cmd) (P : Change → Prop)
    (hrow : ∀ m s, exec (row m) s = s.run (etlumRow c m)) (hk : c.kind = .config) (hn : c.code ≠ 0x0102)
    (hc : c.code < 65536) (ha : ∀ e d, c.onAccept e d = d) (hP : ∀ e, P e) : Carries row c P := by
  intro m s trig h
  have ⟨hs, ⟨hver, hwhole, hlay, _⟩, _⟩ := h
  obtain ⟨horphan, -⟩ := posted_chan c m s hs
  have htag : fld ((ctxOf c m s).w 0) 15 8 = m.tag.toNat := by
    rw [ctxOf_w]; exact (w0_fields c.code hc m).2.1
  have hdev : etlumRow c m s.clock.now s.dev = finish (ctxOf c m s)
      ⟨accepted c (ctxOf c m s) trig (posted c m s), rcDeferred, nextHandle (posted c m s), none⟩ := by
    rw [etlum_served c m s hs hc, handleFrag_whole c m s hs hver hc hwhole hlay, handle_passes c m s trig h hk hn hc]
  obtain ⟨⟨htalk, -⟩, hposted, hvalid, hack, -⟩ := finish_facts (ctxOf c m s)
    ⟨accepted c (ctxOf c m s) trig (posted c m s), rcDeferred, nextHandle (posted c m s), none⟩
    ((congrArg Chan.orphan (chan_accepted c _ trig _ ha _)).trans horphan)
  obtain ⟨e, he, ehandle, emsgs, ecode, etag, ech, esender, erest⟩ :=
    accepted_pending c (ctxOf c m s) trig (posted c m s) ha
  rw [htag] at hack etag
  refine ⟨_, e, (hrow m s).trans (congrArg (fun d => Host.Outcome.next (withDev s d)) hdev), ⟨hposted, hvalid, hack⟩,
    by rw [htalk]; exact he, ⟨ehandle, emsgs, ecode, etag.trans (by simp), ech, esender, erest⟩, hP e⟩

end Sys2Proof.Machine
end

section
/-!
SUPPORT. What the handling of a fault changes of the fixed domain, for the sources of the packet buffer's banks and of the
units that are no slice, port processor, core or HBM channel (18 R416-R427).
-/
namespace Sys2Proof.Machine
open Safety

/-- Fault handling may differ in the interrupts, mailboxes, cores, firmware, pins, contexts, migrations, power domains and
counters of the fixed domain, and in nothing else of it. -/
def FaultFrame (d d' : Dev) : Prop :=
  d'.fab = { d.fab with irq := d'.fab.irq, mbx := d'.fab.mbx, cores := d'.fab.cores, fw := d'.fab.fw, xoff := d'.fab.xoff,
                        tribs := d'.fab.tribs, migs := d'.fab.migs, pd := d'.fab.pd, pm := d'.fab.pm }

theorem FaultFrame.of_fab_eq {d d' : Dev} (h : d'.fab = d.fab) : FaultFrame d d' := by unfold FaultFrame; rw [h]

theorem FaultFrame.refl (d : Dev) : FaultFrame d d := .of_fab_eq rfl

theorem FaultFrame.trans {a b c : Dev} (h : FaultFrame a b) (k : FaultFrame b c) : FaultFrame a c := by
  unfold FaultFrame at *; rw [k, h]

theorem FaultFrame.of_onlyTalk {d d' : Dev} (h : OnlyTalk d d') : FaultFrame d d' := by unfold FaultFrame; rw [h.1]

theorem FaultFrame.foldl {α : Type} (f : Dev → α → Dev) (h : ∀ d x, FaultFrame d (f d x)) (l : List α) (d : Dev) :
    FaultFrame d (l.foldl f d) := by
  induction l generalizing d with
  | nil => exact .refl d
  | cons x l ih => exact (h d x).trans (ih _)

theorem FaultFrame.ite {d a b : Dev} (p : Prop) [Decidable p] (ha : FaultFrame d a) (hb : FaultFrame d b) :
    FaultFrame d (if p then a else b) := by
  split
  · exact ha
  · exact hb

theorem FaultFrame.pb_eq {d d' : Dev} (h : FaultFrame d d') : d'.fab.pb = d.fab.pb := by rw [h]

theorem faultFrame_irqLatch (b : Nat) (d : Dev) : FaultFrame d (irqLatch b d) := .of_onlyTalk (onlyTalk_irqLatch b d)

theorem faultFrame_pwrLatch (b : Nat) (d : Dev) : FaultFrame d (pwrLatch b d) :=
  (FaultFrame.of_fab_eq rfl).trans (faultFrame_irqLatch _ _)

theorem faultFrame_clkLatch (b : Nat) (d : Dev) : FaultFrame d (clkLatch b d) :=
  (FaultFrame.of_fab_eq rfl).trans (faultFrame_irqLatch _ _)

theorem faultFrame_recLatch (b : Nat) (d : Dev) : FaultFrame d (recLatch b d) :=
  (FaultFrame.of_fab_eq rfl).trans (faultFrame_irqLatch _ _)

theorem faultFrame_modChan (d : Dev) (n : Nat) (f : Chan → Chan) : FaultFrame d (d.modChan n f) := rfl
theorem faultFrame_modTrib (d : Dev) (n : Nat) (f : Trib → Trib) : FaultFrame d (d.modTrib n f) := rfl
theorem faultFrame_modCore (d : Dev) (n : Nat) (f : Core → Core) : FaultFrame d (d.modCore n f) := rfl
theorem faultFrame_onGov (d : Dev) (f : Gov → Gov) : FaultFrame d (d.onGov f) := .of_fab_eq rfl
theorem faultFrame_onAon (d : Dev) (f : Aon → Aon) : FaultFrame d (d.onAon f) := .of_fab_eq rfl
theorem faultFrame_onFmn (d : Dev) (f : Recorder → Recorder) : FaultFrame d (d.onFmn f) := .of_fab_eq rfl
theorem faultFrame_setSrc (d : Dev) (n : Nat) (x : Src) : FaultFrame d (d.setSrc n x) := .of_fab_eq rfl
theorem faultFrame_fltLatch (b : Nat) (d : Dev) : FaultFrame d (fltLatch b d) := .of_fab_eq rfl
theorem faultFrame_onPd (d : Dev) (f : Pd → Pd) : FaultFrame d (d.onPd f) := rfl

theorem faultFrame_addCnt (k num n : Nat) (d : Dev) : FaultFrame d (addCnt k num n d) := by
  unfold FaultFrame; rw [addCnt_fab]

theorem faultFrame_addRecord (k s u : Nat) (t : Time) (e : List Word) (d : Dev) : FaultFrame d (addRecord k s u t e d) :=
  .of_onlyTalk (onlyTalk_addRecord k s u t e d)

theorem faultFrame_sendOut (c : Nat) (k : OutKind) (ws : List Word) (d : Dev) : FaultFrame d (sendOut c k ws d) :=
  .of_onlyTalk (onlyTalk_sendOut c k ws d)

theorem faultFrame_noteRecord (m nk obj kind sub unit : Nat) (t : Time) (e : List Word) (d : Dev) :
    FaultFrame d (noteRecord m nk obj kind sub unit t e d) := .of_onlyTalk (onlyTalk_noteRecord m nk obj kind sub unit t e d)

theorem faultFrame_writeOldest (d : Dev) : FaultFrame d (writeOldest d) := by
  unfold writeOldest
  split
  · exact .refl d
  · exact .ite _ ((FaultFrame.of_fab_eq rfl).trans (faultFrame_recLatch _ _)) (.of_fab_eq rfl)

theorem faultFrame_flushRecords (n : Nat) (d : Dev) : FaultFrame d (flushRecords n d) := by
  induction n generalizing d with
  | zero => exact .refl d
  | succ n ih => exact (faultFrame_writeOldest d).trans (ih _)

theorem faultFrame_rxReset (c : Nat) (d : Dev) : FaultFrame d (rxReset c d) := by
  unfold rxReset
  exact .ite _ (.refl d) ((((faultFrame_modChan _ _ _).trans (faultFrame_modChan _ _ _)).trans
    (.of_onlyTalk (onlyTalk_endEpisode _ _))).trans (.of_onlyTalk (onlyTalk_ackEvent _ _)))

theorem faultFrame_answerPosts (d : Dev) : FaultFrame d (answerPosts d) :=
  .foldl _ (fun d c => .ite _ (faultFrame_rxReset c d) (.refl d)) _ _

/-! ### Counting (18 R418-R420) -/

theorem faultFrame_firstFault (cls unit source : Nat) (t : Time) (d : Dev) :
    FaultFrame d (firstFault cls unit source t d) := by
  refine .of_fab_eq ?_
  unfold firstFault firstFault.fltLatchFirst
  dsimp only
  split <;> rfl

theorem faultFrame_whenD (b : Bool) (f : Dev → Dev) (h : ∀ d, FaultFrame d (f d)) (d : Dev) :
    FaultFrame d (whenD b f d) := .ite _ (h d) (.refl d)

/-- An event of Minor class or higher is the first fault, or is not, and raises the fault interrupt. -/
theorem FaultFrame.raised {d e : Dev} (h : FaultFrame d e) (cls unit n : Nat) (t : Time) :
    FaultFrame d (if 1 ≤ cls then irqLatch 23 (firstFault cls unit n t e) else e) :=
  .ite _ (h.trans ((faultFrame_firstFault ..).trans (faultFrame_irqLatch ..))) h

theorem faultFrame_countFault (n unit : Nat) (detail : Word) (inj : Bool) (t : Time) (d : Dev) :
    FaultFrame d (countFault n unit detail inj t d) := by
  unfold countFault
  split
  · exact .refl d
  · rename_i i _
    dsimp only
    split
    · exact .of_fab_eq rfl
    · obtain ⟨y, cnt⟩ := (d.src n).step i t
      dsimp only
      generalize i.init + y.rise = cls
      refine FaultFrame.raised ?_ cls unit n t
      generalize hw : whenD _ _ _ = w
      have hrec : FaultFrame d w := by
        rw [← hw]
        refine .trans ?_ (faultFrame_whenD _ _ (faultFrame_addRecord _ _ _ _ _) _)
        exact (faultFrame_setSrc d n _).trans (.ite _ (faultFrame_flushRecords _ _) (.refl _))
      split
      · exact hrec.trans (faultFrame_fltLatch 17 w)
      · exact hrec.trans (faultFrame_fltLatch 23 w)
      · exact hrec.trans (faultFrame_fltLatch 22 w)
      · exact hrec

theorem faultFrame_sourceLatch (n : Nat) (d : Dev) : FaultFrame d (sourceLatch n d) := by
  unfold sourceLatch
  refine .ite _ (faultFrame_pwrLatch _ _) ?_
  split
  case h_8 => exact faultFrame_clkLatch 18 d
  case h_9 => exact .refl d
  all_goals exact faultFrame_pwrLatch _ _

/-! ### Migrations that end (14 R344-R346) -/

theorem faultFrame_settleSlice (s : Nat) (t : Time) (d : Dev) : FaultFrame d (settleSlice s t d) := by
  have hto : ∀ st since, FaultFrame d (sliceTo s st since t d) := fun st since =>
    (faultFrame_onPd d _).trans (.of_onlyTalk (sliceTo_facts s st since t d).1)
  unfold settleSlice
  exact .ite _ (.refl d) (.ite _ (.refl d) (hto _ _))

theorem faultFrame_dropMig (d : Dev) (p : Mig → Bool) :
    FaultFrame d (d.onFab fun f => { f with migs := f.migs.filter p }) := rfl

theorem faultFrame_abortMig (m : Mig) (cause : AbortCause) (t : Time) (d : Dev) : FaultFrame d (abortMig m cause t d) := by
  unfold abortMig
  dsimp only
  generalize hn : pwrLatch 17 (countFault 0x169 _ _ _ _ _) = e
  have he : FaultFrame d e := by
    rw [← hn]
    exact ((((faultFrame_modTrib d _ _).trans (faultFrame_dropMig _ _)).trans (faultFrame_noteRecord ..)).trans
      (faultFrame_countFault ..)).trans (faultFrame_pwrLatch ..)
  generalize hs : settleSlice _ _ _ = f
  have hf : FaultFrame d f := by
    rw [← hs]
    refine FaultFrame.trans ?_ (faultFrame_settleSlice ..)
    split
    · exact he.trans (faultFrame_sendOut ..)
    · exact he
  split
  · exact .ite _ (((hf.trans (faultFrame_onGov ..)).trans (faultFrame_countFault ..)).trans (faultFrame_pwrLatch ..))
      (hf.trans (faultFrame_onGov ..))
  · exact hf.trans (faultFrame_onGov ..)

theorem faultFrame_abortWhere (p : Mig → Option AbortCause) (t : Time) (d : Dev) : FaultFrame d (abortWhere p t d) := by
  refine .foldl _ (fun d m => .ite _ (.refl d) ?_) _ _
  split
  · exact faultFrame_abortMig _ _ _ d
  · exact .refl d

/-! ### Reactions (18 R422, R427) -/

theorem faultFrame_freezeRing (t : Time) (d : Dev) : FaultFrame d (freezeRing t d) :=
  (((faultFrame_addRecord ..).trans (faultFrame_flushRecords ..)).trans (faultFrame_onFmn ..)).trans (faultFrame_onFmn ..)

theorem faultFrame_raiseXoff (v : BitVec 16) (f : Fw → Fw) (d : Dev) :
    FaultFrame d (d.onFab fun b => { b with xoff := v, fw := f b.fw }) := rfl

theorem faultFrame_enterSnowdrop (source unit : Nat) (t : Time) (d : Dev) :
    FaultFrame d (enterSnowdrop source unit t d) := by
  unfold enterSnowdrop
  exact ((((((faultFrame_freezeRing t d).trans (faultFrame_irqLatch ..)).trans
    (.foldl _ (fun d k => faultFrame_modCore d k _) _ _)).trans
    (faultFrame_raiseXoff 0xFFFF (fun x => { x with load := none }) _)).trans (faultFrame_onAon ..)).trans
    (faultFrame_answerPosts _))

/-- The fence of a bank, or of a unit that is no part of the data path, switches off at most a bank. -/
theorem faultFrame_fenceUnit (u : Nat) (hu : (0x30 ≤ u ∧ u < 0x38) ∨ 0x50 ≤ u) (t : Time) (d : Dev) :
    FaultFrame d (fenceUnit u t d) := by
  have hnote : FaultFrame d (fltLatch 21 (noteFence u t d)) := by
    refine .of_fab_eq ?_
    unfold noteFence
    dsimp only
    split <;> rfl
  unfold fenceUnit
  refine .ite _ (.refl d) ?_
  rw [if_neg (show ¬(0x38 ≤ u ∧ u ≤ 0x3B) by omega)]
  dsimp only
  rw [if_neg (show ¬u < 0x20 by omega), if_neg (show ¬u < 0x30 by omega), if_neg (show ¬(0x40 ≤ u ∧ u < 0x50) by omega)]
  have habort := hnote.trans (faultFrame_abortWhere (fun m =>
      if m.src = u then some .srcFault else if m.dst = u then some .dstFault
      else if u = 0x52 then some .engineFault else none) t _)
  exact .ite _ (habort.trans (faultFrame_onPd ..)) habort

theorem faultFrame_fault (n : Nat) (i : SrcInfo) (hi : srcInfo n = some i)
    (hu : (0x30 ≤ i.unit ∧ i.unit < 0x38) ∨ 0x50 ≤ i.unit) (hn : n ≠ 0x161) (detail : Word) (t : Time) (d : Dev) :
    FaultFrame d (fault n detail t d) := by
  unfold fault faultEventAs
  simp only [hi]
  refine .ite _ (faultFrame_countFault ..) ?_
  rw [if_neg (show ¬i.unit < 0x20 by omega), if_neg hn]
  generalize hc : sourceLatch n _ = c
  have hcount : FaultFrame d c := by
    rw [← hc]; exact (faultFrame_countFault ..).trans (faultFrame_sourceLatch ..)
  generalize ha : (if n = 0x38 then _ else _) = e
  have habort : FaultFrame d e := by
    rw [← ha]
    exact .ite _ (hcount.trans (faultFrame_abortWhere ..)) (.ite _ (hcount.trans (faultFrame_abortWhere ..)) hcount)
  exact .ite _ (habort.trans (faultFrame_enterSnowdrop ..)) (.ite _ (habort.trans (faultFrame_fenceUnit _ hu ..)) habort)

end Sys2Proof.Machine
end

section
/-!
SUPPORT. The rows of the cross-connect's words, of the packet buffer's entries and of the watermark groups (01 R16, R23-R25;
08 R210-R220).
-/
namespace Sys2Proof.Machine
open Safety

theorem withDev_self (s : State) : withDev s s.dev = s := rfl

/-! ### Cross-connect words (01 R16, R23-R25) -/

theorem exec_xcWord (a : Nat) (hit : Option LaneWord) (s : State) : exec (.xcWord a hit) s = execXcWord a hit s := rfl

/-- The oldest word that waits at an attachment leaves it. -/
def dropWaiting (a : Nat) (rest : List LaneWord) (d : Dev) : Dev := d.onFab fun f => { f with xcOut := tput f.xcOut a rest }

/-- A word enters the attachment's FIFO and is the last one there. -/
def crossWord (a : Nat) (v : LaneWord) (skip : List Nat) (d : Dev) : Dev :=
  writeFifo ⟨.xc, a⟩ v (d.onFab fun f => { f with xcSkip := skip, xcLast := tput f.xcLast a v })

theorem xcWord_nothing_waits (a : Nat) (hit : Option LaneWord) (s : State) (hs : FabOn s)
    (hw : tgetD s.dev.fab.xcOut a [] = []) : exec (.xcWord a hit) s = .next s := by
  rw [exec_xcWord, execXcWord, run_gFab _ s hs, hw, withDev_self]

section
variable {s : State} {a : Nat} {hit : Option LaneWord} {w v : LaneWord} {rest : List LaneWord}
variable (hs : FabOn s) (hw : tgetD s.dev.fab.xcOut a [] = w :: rest) (hv : stageRead (hit.getD w) = (v, false))
include hs hw hv

theorem xcWord_idle (ht : lwTag v = tagIdle) :
    exec (.xcWord a hit) s = .next (withDev s (dropWaiting a rest s.dev)) := by
  rw [exec_xcWord, execXcWord, run_gFab _ s hs]
  simp only [hw, hv, ht, if_true, Bool.false_eq_true, if_false, dropWaiting]

theorem xcWord_boundary (ht : lwTag v = tagCtx) :
    exec (.xcWord a hit) s = .next (withDev s (crossWord a v
      (if lwPoison v then sadd s.dev.fab.xcSkip a else sdel s.dev.fab.xcSkip a) (dropWaiting a rest s.dev))) := by
  have hi : ¬tagCtx = tagIdle := by decide
  rw [exec_xcWord, execXcWord, run_gFab _ s hs]
  simp only [hw, hv, ht, hi, if_true, Bool.false_eq_true, if_false, dropWaiting, crossWord, onFab_fab]

theorem xcWord_discards (hc : lwTag v ≠ tagCtx) (hi : lwTag v ≠ tagIdle) (hk : s.dev.fab.xcSkip.contains a = true) :
    exec (.xcWord a hit) s = .next (withDev s ((dropWaiting a rest s.dev).onFab fun f => { f with
      xcDiscard := tput f.xcDiscard a (tgetD f.xcDiscard a 0 + 1) })) := by
  rw [exec_xcWord, execXcWord, run_gFab _ s hs]
  simp only [hw, hv, hc, hi, hk, if_true, Bool.false_eq_true, if_false, dropWaiting, onFab_fab]

theorem xcWord_crosses (hc : lwTag v ≠ tagCtx) (hi : lwTag v ≠ tagIdle) (hk : s.dev.fab.xcSkip.contains a = false) :
    exec (.xcWord a hit) s = .next (withDev s (crossWord a v s.dev.fab.xcSkip (dropWaiting a rest s.dev))) := by
  rw [exec_xcWord, execXcWord, run_gFab _ s hs]
  simp only [hw, hv, hc, hi, hk, Bool.false_eq_true, if_false, dropWaiting, crossWord, onFab_fab]

end

/-! ### Entries of the packet buffer's banks (08 R218-R220) -/

theorem exec_pbEntryRead (b : Nat) (e : BitVec 40) (s : State) : exec (.pbEntryRead b e) s = execPbEntryRead b e s := rfl

/-- A bank's reader after an entry. -/
def PbBank.after (x : PbBank) (r : EccRes) : PbBank :=
  let p := pbStep x.expect r
  { x with expect := p.1, out := p.2.1, corr := if r.corr then x.corr + 1 else x.corr
           uncorr := if r.bad || p.2.2 then x.uncorr + 1 else x.uncorr }

/-- An entry that is right counts nothing. -/
theorem PbBank.after_right (x : PbBank) (r : EccRes) (hc : r.corr = false) (hb : r.bad = false)
    (ho : (pbStep x.expect r).2.2 = false) :
    x.after r = { x with expect := (pbStep x.expect r).1, out := (pbStep x.expect r).2.1 } := by
  simp [PbBank.after, hc, hb, ho]

/-- The sources of a bank's corrected and uncorrected entries name the bank (18 R416). -/
theorem srcInfo_bank (b : Nat) (hb : b < 8) :
    (∃ i, srcInfo (0xE8 + b) = some i ∧ i.unit = 0x30 + b) ∧ ∃ i, srcInfo (0xF0 + b) = some i ∧ i.unit = 0x30 + b := by
  have h : ∀ b < 8, (srcInfo (0xE8 + b)).map SrcInfo.unit = some (0x30 + b)
      ∧ (srcInfo (0xF0 + b)).map SrcInfo.unit = some (0x30 + b) := by decide
  exact ⟨Option.map_eq_some_iff.1 (h b hb).1, Option.map_eq_some_iff.1 (h b hb).2⟩

/-- The count and the fault of an entry that is not right. -/
theorem faultFrame_bankFault (n b : Nat) (hb : b < 8) (hn : n = 0xE8 + b ∨ n = 0xF0 + b) (k num : Nat) (t : Time) (d : Dev) :
    FaultFrame d (fault n 0 t (addCnt k num 1 d)) := by
  obtain ⟨i, hi, hu⟩ : ∃ i, srcInfo n = some i ∧ i.unit = 0x30 + b := by
    obtain ⟨hcorr, hunc⟩ := srcInfo_bank b hb
    rcases hn with rfl | rfl
    · exact hcorr
    · exact hunc
  exact (faultFrame_addCnt k num 1 d).trans (faultFrame_fault n i hi (.inl (by omega)) (by omega) 0 t _)

theorem pbEntryRead_reads (b : Nat) (e : BitVec 40) (s : State) (hs : FabOn s) (hb : b < 8)
    (hc : s.dev.fab.boot.pbCompat = true) (hf : s.dev.aon.coll.fenced.contains (0x30 + b) = false) :
    ∃ d, exec (.pbEntryRead b e) s = .next (withDev s d)
      ∧ ((eccRead e).corr = false → (eccRead e).bad = false → (pbStep (tgetD s.dev.fab.pb b {}).expect (eccRead e)).2.2 = false →
          d = s.dev.onFab fun f => { f with pb := tput f.pb b ((tgetD s.dev.fab.pb b {}).after (eccRead e)) })
      ∧ tgetD d.fab.pb b {} = (tgetD s.dev.fab.pb b {}).after (eccRead e) := by
  rw [exec_pbEntryRead, execPbEntryRead, run_gFab _ s hs]
  have hg : ¬(8 ≤ b ∨ (!s.dev.fab.boot.pbCompat) = true ∨ s.dev.aon.coll.fenced.contains (0x30 + b) = true) := by
    rw [hc, hf]; simp; omega
  simp only [hg, if_false]
  refine ⟨_, rfl, ?_, ?_⟩
  · intro h1 h2 h3
    simp only [h1, h2, h3, Bool.or_false, Bool.false_eq_true, if_false, PbBank.after]
  · have hcorr := faultFrame_bankFault (0xE8 + b) b hb (.inl rfl)
    have hunc := faultFrame_bankFault (0xF0 + b) b hb (.inr rfl)
    rw [(FaultFrame.trans (.ite _ (hcorr _ _ _ _) (.refl _)) (.ite _ (hunc _ _ _ _) (.refl _))).pb_eq, onFab_fab,
      tgetD_tput_self]
    rfl

/-! ### What a bank expects (08 R219) -/

theorem pbStep_control_entry (e : EccRes) (hb : e.bad = false) (he : e.ext = true) :
    pbStep .control e = (takeControl e.payload, [], false) ∧ pbStep .skip e = (takeControl e.payload, [], false)
      ∧ pbStep .gapCount e = (takeControl e.payload, badGap, true) := by
  simp [pbStep, hb, he]

theorem pbStep_data_entry (e : EccRes) (hb : e.bad = false) (he : e.ext = false) :
    pbStep .control e = (.skip, badGap, true) ∧ pbStep .gapCount e = (.control, [lw tagGap e.payload], false) := by
  simp [pbStep, hb, he]

/-! ### Watermark groups (08 R210-R213) -/

theorem exec_watermarkEvaluation (g : Nat) (s : State) :
    exec (.watermarkEvaluation g) s = execWatermarkEvaluation g s := rfl
theorem exec_pfcRepeat (g : Nat) (s : State) : exec (.pfcRepeat g) s = execPfcRepeat g s := rfl

/-- Does a group hold or assert at its depth (08 R211)? -/
def WGroup.asserts (x : WGroup) (d : Dev) : Bool :=
  !x.members.isEmpty && (if x.on then decide (x.low ≤ sumBy (memberDepth d) x.members)
    else decide (x.high ≤ sumBy (memberDepth d) x.members))

/-- A group takes up its state, with its pin and its flow control frame (08 R210-R212). -/
def turnGroup (g : Nat) (x : WGroup) (on : Bool) (d : Dev) : Dev :=
  sendPfc x (if on then 0xFFFF else 0) (setXoff g on (d.onFab fun f => { f with wgs := tput f.wgs g { x with on := on } }))

theorem evalGroup_eq (g : Nat) (x : WGroup) (d : Dev) (h : tget d.fab.wgs g = some x) :
    evalGroup g d = if x.asserts d = x.on then d else turnGroup g x (x.asserts d) d := by
  unfold evalGroup
  simp only [h, beq_iff_eq]
  rfl

theorem sendPfc_some (x : WGroup) (p prio time : Nat) (d : Dev) (h : x.pfc = some (p, prio)) :
    sendPfc x time d = d.modPort p fun y => { y with eth := { y.eth with pfcOut := some (prio, time) } } := by
  unfold sendPfc; rw [h]

/-- A group's turn is a matter of the groups, the pins and the ports alone. -/
theorem turnGroup_fab (g : Nat) (x : WGroup) (on : Bool) (d : Dev) :
    (turnGroup g x on d).aon = d.aon ∧ (turnGroup g x on d).fab = { d.fab with
      wgs := tput d.fab.wgs g { x with on := on }
      xoff := if on then d.fab.xoff ||| BitVec.ofNat 16 (2 ^ g) else d.fab.xoff &&& ~~~BitVec.ofNat 16 (2 ^ g)
      ports := (turnGroup g x on d).fab.ports } := by
  unfold turnGroup sendPfc
  split <;> exact ⟨rfl, rfl⟩

theorem turnGroup_port (g : Nat) (x : WGroup) (on : Bool) (d : Dev) (p prio : Nat) (y : Port) (hp : x.pfc = some (p, prio))
    (hy : d.port p = some y) : (turnGroup g x on d).port p
      = some { y with eth := { y.eth with pfcOut := some (prio, if on then 0xFFFF else 0) } } := by
  have hkeep : (setXoff g on (d.onFab fun f => { f with wgs := tput f.wgs g { x with on := on } })).port p = d.port p := rfl
  rw [turnGroup, sendPfc_some x p prio _ _ hp, port_modPort, if_pos rfl, hkeep, hy]
  rfl

section
variable {s : State} {g : Nat} {x : WGroup} (hs : Runs s) (hx : tget s.dev.fab.wgs g = some x)
include hs hx

theorem watermarkEvaluation_stays (h : x.asserts s.dev = x.on) : exec (.watermarkEvaluation g) s = .next s := by
  rw [exec_watermarkEvaluation, execWatermarkEvaluation, run_gRun _ s hs, evalGroup_eq g x _ hx, if_pos h, withDev_self]

theorem watermarkEvaluation_turns (h : x.asserts s.dev ≠ x.on) :
    exec (.watermarkEvaluation g) s = .next (withDev s (turnGroup g x (x.asserts s.dev) s.dev)) := by
  rw [exec_watermarkEvaluation, execWatermarkEvaluation, run_gRun _ s hs, evalGroup_eq g x _ hx, if_neg h]

theorem pfcRepeat_eq :
    exec (.pfcRepeat g) s = .next (withDev s (if x.on then sendPfc x 0xFFFF s.dev else s.dev)) := by
  rw [exec_pfcRepeat, execPfcRepeat, run_gRun _ s hs]
  simp only [hx]

end

/-! ### FC_GROUP_CONFIG (08 R210, R211) -/

/-- The group that the change describes, in the state it is in. -/
def configuredGroup (c : Change) (d : Dev) : WGroup :=
  let w := fun i => (c.msgs.headD []).getD i 0
  { high := (w 5).toNat, low := (w 6).toNat, on := (tgetD d.fab.wgs (fld (c.w 4) 3 0) {}).on
    members := (c.msgs.flatMap groupMembers).eraseDups
    pfc := if bitAt (w 7) 31 then some (1024 + fld (w 7) 7 0, fld (w 7) 18 16) else none }

/-- A configured group holds what its change describes, and asserts or not by its depth at once. -/
theorem fcGroupConfig_group (c : Change) (p : Part) (t : Time) (d : Dev) :
    tget (cmdFcGroupConfig.apply c p t d).fab.wgs (fld (c.w 4) 3 0)
      = some { configuredGroup c d with on := (configuredGroup c d).asserts d } := by
  have happly : cmdFcGroupConfig.apply c p t d = evalGroup (fld (c.w 4) 3 0)
      (d.onFab fun f => { f with wgs := tput f.wgs (fld (c.w 4) 3 0) (configuredGroup c d) }) := rfl
  have hdepth : (configuredGroup c d).asserts
      (d.onFab fun f => { f with wgs := tput f.wgs (fld (c.w 4) 3 0) (configuredGroup c d) })
      = (configuredGroup c d).asserts d := rfl
  rw [happly, evalGroup_eq _ (configuredGroup c d) _ (by rw [onFab_fab, tget_tput_self]), hdepth]
  split
  · rename_i h; rw [h, onFab_fab, tget_tput_self]
  · rw [(turnGroup_fab _ _ _ _).2, tget_tput_self]

end Sys2Proof.Machine
end

section
/-!
SUPPORT. Connections made and taken away (07 R168-R170): what a change of source leaves of the connections and of the
container frames.
-/
namespace Sys2Proof.Machine
open Safety

/-! ### What decides a tributary's container frame (02 R45) -/

/-- The type, port and parent of every tributary are the same. -/
def SameFrames (d d' : Dev) : Prop :=
  ∀ k, (d'.trib k).map (fun x => (x.typ, x.port, x.parent)) = (d.trib k).map fun x => (x.typ, x.port, x.parent)

theorem SameFrames.refl (d : Dev) : SameFrames d d := fun _ => rfl

theorem SameFrames.trans {a b c : Dev} (h : SameFrames a b) (k : SameFrames b c) : SameFrames a c :=
  fun n => (k n).trans (h n)

theorem SameFrames.of_tribs_eq {d d' : Dev} (h : d'.fab.tribs = d.fab.tribs) : SameFrames d d' := by
  intro k; unfold Dev.trib; rw [h]

/-- What a change of a tributary leaves of it, it leaves of every tributary. -/
theorem map_trib_modTrib {α : Type} (g : Trib → α) (d : Dev) (n : Nat) (f : Trib → Trib) (h : ∀ x, g (f x) = g x) (k : Nat) :
    ((d.modTrib n f).trib k).map g = (d.trib k).map g := by
  rw [trib_modTrib]
  split
  · rename_i hk; subst hk
    cases d.trib k with
    | none => rfl
    | some x => exact congrArg some (h x)
  · rfl

theorem frameSrc_sameFrames {d d' : Dev} (h : SameFrames d d') (typ : Nat) (port : Option Nat) (parent : Nat) :
    frameSrc d' typ port parent = frameSrc d typ port parent := by
  have hp := h parent
  unfold frameSrc
  cases hy : d.trib parent with
  | none =>
    rw [hy] at hp
    rw [Option.map_eq_none_iff.1 hp]
  | some y =>
    rw [hy] at hp
    obtain ⟨z, hz, he⟩ := Option.map_eq_some_iff.1 hp
    obtain ⟨htyp, hport, -⟩ : z.typ = y.typ ∧ z.port = y.port ∧ z.parent = y.parent := by simpa using he
    simp only [hz, htyp, hport]

theorem contSrc_sameFrames {d d' : Dev} (h : SameFrames d d') (n : Nat) : contSrc d' n = contSrc d n := by
  have hn := h n
  unfold contSrc
  cases hx : d.trib n with
  | none =>
    rw [hx] at hn
    rw [Option.map_eq_none_iff.1 hn]
  | some x =>
    rw [hx] at hn
    obtain ⟨z, hz, he⟩ := Option.map_eq_some_iff.1 hn
    obtain ⟨htyp, hport, hparent⟩ : z.typ = x.typ ∧ z.port = x.port ∧ z.parent = x.parent := by simpa using he
    simp only [hz, htyp, hport, hparent, frameSrc_sameFrames h]

theorem xcPart_sameFrames {d d' : Dev} (h : SameFrames d d') (n : Nat) : xcPart d' n = xcPart d n := by
  unfold xcPart; rw [contSrc_sameFrames h]

/-! ### A destination changes source (07 R170) -/

/-- The connections stay, and what decides container frames. -/
def KeepsConns (d d' : Dev) : Prop := d'.fab.xc = d.fab.xc ∧ SameFrames d d'

theorem KeepsConns.refl (d : Dev) : KeepsConns d d := ⟨rfl, .refl d⟩

theorem KeepsConns.trans {a b c : Dev} (h : KeepsConns a b) (k : KeepsConns b c) : KeepsConns a c :=
  ⟨k.1.trans h.1, h.2.trans k.2⟩

theorem KeepsConns.ite {d a b : Dev} (p : Prop) [Decidable p] (ha : KeepsConns d a) (hb : KeepsConns d b) :
    KeepsConns d (if p then a else b) := by
  split
  · exact ha
  · exact hb

theorem keepsConns_modTrib (d : Dev) (n : Nat) (f : Trib → Trib)
    (h : ∀ x, ((f x).typ, (f x).port, (f x).parent) = (x.typ, x.port, x.parent)) : KeepsConns d (d.modTrib n f) :=
  ⟨rfl, map_trib_modTrib _ d n f h⟩

theorem keepsConns_refreshTx (n : Nat) (d : Dev) : KeepsConns d (refreshTx n d) := by
  refine keepsConns_modTrib d n _ fun x => ?_
  split <;> rfl

theorem keepsConns_startFifo (n : Nat) (x : Trib) (rx : Bool) (d : Dev) : KeepsConns d (startFifo n x rx d) := by
  unfold startFifo
  exact .ite _ ⟨rfl, .of_tribs_eq rfl⟩ ⟨rfl, .of_tribs_eq rfl⟩

theorem keepsConns_emptyTx (n : Nat) (d : Dev) :
    KeepsConns d (setTxWaiting n [] (d.onFab fun f => { f with txOct := tput f.txOct n [] })) :=
  ⟨rfl, .of_tribs_eq rfl⟩

theorem keepsConns_sourceChanged (n : Nat) (d : Dev) : KeepsConns d (sourceChanged n d) := by
  unfold sourceChanged
  split
  · exact .refl d
  · rename_i x _
    dsimp only
    refine .trans ?_ (keepsConns_refreshTx _ _)
    generalize ho : (if isOdu x.typ = true then _ else d) = e
    have he : KeepsConns d e := by
      rw [← ho]
      refine .ite _ ?_ (.refl d)
      have htrib := (keepsConns_emptyTx n d).trans
        (keepsConns_modTrib _ n (fun y => { y with iaeLeft := 16, txGot := none }) fun _ => rfl)
      split
      · exact htrib.trans ⟨rfl, .of_tribs_eq rfl⟩
      · exact htrib
    generalize hv : (if isVc x.typ = true then _ else e) = f
    have hf : KeepsConns d f := by
      rw [← hv]; exact .ite _ (he.trans (keepsConns_modTrib _ _ _ fun _ => rfl)) he
    exact .ite _ (hf.trans (keepsConns_startFifo ..)) hf

/-! ### XC_CONNECT (07 R168, R170) -/

theorem connect_xc (kind s n : Nat) (d : Dev) :
    (connect kind s n d).fab.xc = (d.fab.xc.filter fun c => c.dst != n) ++ [⟨s, n, kind⟩] :=
  (keepsConns_sourceChanged n _).1

theorem sameFrames_connect (kind s n : Nat) (d : Dev) : SameFrames d (connect kind s n d) :=
  .trans (b := d.onFab fun f => { f with xc := (f.xc.filter fun c => c.dst != n) ++ [⟨s, n, kind⟩] })
    (.of_tribs_eq rfl) (keepsConns_sourceChanged n _).2

/-- The connections into a destination. -/
def connsInto (d : Dev) (n : Nat) : List Conn := d.fab.xc.filter fun c => c.dst == n

theorem connsInto_connect_self (kind s n : Nat) (d : Dev) : connsInto (connect kind s n d) n = [⟨s, n, kind⟩] := by
  simp [connsInto, connect_xc, List.filter_append, List.filter_filter]

theorem connsInto_connect_ne (kind s n k : Nat) (d : Dev) (h : k ≠ n) :
    connsInto (connect kind s n d) k = connsInto d k := by
  simp only [connsInto, connect_xc, List.filter_append, List.filter_filter]
  rw [List.filter_cons_of_neg (by simpa using Ne.symm h), List.filter_nil, List.append_nil]
  refine List.filter_congr fun c _ => ?_
  by_cases hc : c.dst = k <;> simp [hc, h]

/-- One pair of an XC_CONNECT at a boundary. -/
def connectAt (p : Part) (kind : Nat) (d : Dev) (e : Nat × Nat) : Dev :=
  if xcPart d e.2 = p then connect kind e.1 e.2 d else d

theorem xcConnect_apply (c : Change) (p : Part) (t : Time) (d : Dev) :
    cmdXcConnect.apply c p t d = (xcPairs c.w).foldl (connectAt p (fld (c.w 4) 31 30)) d := rfl

theorem sameFrames_foldl_connectAt (p : Part) (kind : Nat) (l : List (Nat × Nat)) (d : Dev) :
    SameFrames d (l.foldl (connectAt p kind) d) := by
  induction l generalizing d with
  | nil => exact .refl d
  | cons e l ih =>
    refine .trans ?_ (ih _)
    unfold connectAt
    split
    · exact sameFrames_connect _ _ _ _
    · exact .refl d

/-- Pairs with other destinations leave the connections into a destination. -/
theorem connsInto_foldl_connectAt (p : Part) (kind n : Nat) (l : List (Nat × Nat)) (d : Dev) (h : n ∉ l.map (·.2)) :
    connsInto (l.foldl (connectAt p kind) d) n = connsInto d n := by
  induction l generalizing d with
  | nil => rfl
  | cons e l ih =>
    obtain ⟨hne, hl⟩ : n ≠ e.2 ∧ n ∉ l.map (·.2) := by simpa using h
    rw [List.foldl_cons, ih _ hl]
    unfold connectAt
    split
    · exact connsInto_connect_ne _ _ _ _ _ hne
    · rfl

/-- At its boundary a pair's destination has the pair's source alone. -/
theorem connsInto_connected (kind : Nat) (l : List (Nat × Nat)) (d : Dev) (hl : (l.map (·.2)).Nodup) (e : Nat × Nat)
    (he : e ∈ l) : connsInto (l.foldl (connectAt (xcPart d e.2) kind) d) e.2 = [⟨e.1, e.2, kind⟩] := by
  obtain ⟨before, after, rfl⟩ := List.append_of_mem he
  have hafter : e.2 ∉ after.map (·.2) := by
    rw [List.map_append, List.map_cons] at hl
    obtain ⟨-, hcons, -⟩ := List.nodup_append.1 hl
    exact (List.nodup_cons.1 hcons).1
  have hpart : xcPart (before.foldl (connectAt (xcPart d e.2) kind) d) e.2 = xcPart d e.2 :=
    xcPart_sameFrames (sameFrames_foldl_connectAt _ _ _ _) _
  rw [List.foldl_append, List.foldl_cons, connsInto_foldl_connectAt _ _ _ _ _ hafter, connectAt, if_pos hpart,
    connsInto_connect_self]

theorem mem_connsInto (d : Dev) (n : Nat) (y : Conn) : y ∈ connsInto d n ↔ y ∈ d.fab.xc ∧ y.dst = n := by
  simp [connsInto]

/-! ### XC_DISCONNECT (07 R169, R170) -/

/-- A connection is taken away, and its destination drains. -/
def disconnectAt (t : Time) (d : Dev) (e : Conn) : Dev :=
  refreshTx e.dst ((d.onFab fun f => { f with xc := f.xc.filter fun y => y != e }).modTrib e.dst
    fun x => { x with drain := some ⟨t, none⟩ })

/-- The connections that an XC_DISCONNECT of a tributary takes away at a boundary. -/
def goneAt (d : Dev) (n : Nat) (p : Part) : List Conn :=
  d.fab.xc.filter fun e => (e.dst == n || (e.kind == 2 && e.src == n)) && xcPart d e.dst == p

theorem xcDisconnect_apply (c : Change) (p : Part) (t : Time) (d : Dev) :
    cmdXcDisconnect.apply c p t d = (goneAt d (fld (c.w 4) 16 0) p).foldl (disconnectAt t) d := rfl

theorem mem_goneAt (d : Dev) (n : Nat) (p : Part) (y : Conn) :
    y ∈ goneAt d n p ↔ y ∈ d.fab.xc ∧ (y.dst = n ∨ (y.kind = 2 ∧ y.src = n)) ∧ xcPart d y.dst = p := by
  simp [goneAt]

theorem mem_foldl_disconnectAt (t : Time) (l : List Conn) (d : Dev) (y : Conn) :
    y ∈ (l.foldl (disconnectAt t) d).fab.xc ↔ y ∈ d.fab.xc ∧ y ∉ l := by
  induction l generalizing d with
  | nil => simp
  | cons e l ih =>
    have hstep : (disconnectAt t d e).fab.xc = d.fab.xc.filter fun y => y != e := rfl
    rw [List.foldl_cons, ih, hstep, List.mem_filter, List.mem_cons, not_or, bne_iff_ne, and_assoc]

/-- The draining of a tributary, if there is one. -/
def drainOf (d : Dev) (n : Nat) : Option (Option Drain) := (d.trib n).map Trib.drain

theorem drainOf_refreshTx (m n : Nat) (d : Dev) : drainOf (refreshTx m d) n = drainOf d n := by
  refine map_trib_modTrib Trib.drain d m _ (fun x => ?_) n
  split <;> rfl

theorem drainOf_disconnectAt (t : Time) (d : Dev) (e : Conn) (n : Nat) :
    drainOf (disconnectAt t d e) n = if n = e.dst then (drainOf d n).map fun _ => some ⟨t, none⟩ else drainOf d n := by
  rw [disconnectAt, drainOf_refreshTx]
  unfold drainOf
  rw [trib_modTrib]
  split
  · rename_i h; subst h
    rw [Option.map_map, Option.map_map]; rfl
  · rfl

theorem drainOf_foldl_disconnectAt (t : Time) (l : List Conn) (d : Dev) (n : Nat) (h : (drainOf d n).isSome = true)
    (hl : drainOf d n = some (some ⟨t, none⟩) ∨ ∃ e ∈ l, e.dst = n) :
    drainOf (l.foldl (disconnectAt t) d) n = some (some ⟨t, none⟩) := by
  induction l generalizing d with
  | nil => simpa using hl
  | cons e l ih =>
    have hstep := drainOf_disconnectAt t d e n
    obtain ⟨v, hv⟩ := Option.isSome_iff_exists.1 h
    by_cases hn : n = e.dst
    · rw [if_pos hn, hv] at hstep
      exact ih _ (by rw [hstep]; rfl) (.inl hstep)
    · rw [if_neg hn] at hstep
      refine ih _ (by rw [hstep]; exact h) ?_
      rw [hstep]
      refine hl.imp id ?_
      rintro ⟨y, hy, rfl⟩
      rcases List.mem_cons.1 hy with rfl | hy
      · exact absurd rfl hn
      · exact ⟨y, hy, rfl⟩

end Sys2Proof.Machine
end

section
/-!
SUPPORT. The parts of CrossConnectAndWatermarks, and the statement.
-/
namespace Sys2Proof.Machine
open Safety

theorem watermarkEvaluation_turns_to (s : State) (g : Nat) (x : WGroup) (hs : Runs s) (hx : tget s.dev.fab.wgs g = some x)
    (on : Bool) (ha : x.asserts s.dev = on) (h : on ≠ x.on) :
    ∃ d, exec (.watermarkEvaluation g) s = .next (withDev s d)
      ∧ tget d.fab.wgs g = some { x with on := on }
      ∧ d.fab.xoff = (if on then s.dev.fab.xoff ||| BitVec.ofNat 16 (2 ^ g) else s.dev.fab.xoff &&& ~~~BitVec.ofNat 16 (2 ^ g))
      ∧ (∀ p prio y, x.pfc = some (p, prio) → s.dev.port p = some y →
          d.port p = some { y with eth := { y.eth with pfcOut := some (prio, if on then 0xFFFF else 0) } })
      ∧ d.fab.tribs = s.dev.fab.tribs ∧ d.fab.fifos = s.dev.fab.fifos ∧ d.aon = s.dev.aon := by
  subst ha
  obtain ⟨haon, hfab⟩ := turnGroup_fab g x (x.asserts s.dev) s.dev
  exact ⟨_, watermarkEvaluation_turns hs hx h, by rw [hfab]; exact tget_tput_self _ _ _, by rw [hfab],
    turnGroup_port g x _ s.dev, by rw [hfab], by rw [hfab], haon⟩

theorem asserts_eq_true_of_high {x : WGroup} {d : Dev} (ho : x.on = false) (hm : x.members ≠ [])
    (h : x.high ≤ sumBy (memberDepth d) x.members) : x.asserts d = true := by
  simp [WGroup.asserts, ho, hm, h]

theorem asserts_eq_false_of_low {x : WGroup} {d : Dev} (ho : x.on = true)
    (h : sumBy (memberDepth d) x.members < x.low) : x.asserts d = false := by
  simp [WGroup.asserts, ho, h]

/-- Between its watermarks a group keeps its state (08 R211). -/
theorem asserts_eq_on_between {x : WGroup} {d : Dev}
    (h : (x.on = false ∧ sumBy (memberDepth d) x.members < x.high)
      ∨ (x.on = true ∧ x.members ≠ [] ∧ x.low ≤ sumBy (memberDepth d) x.members)) : x.asserts d = x.on := by
  rcases h with ⟨ho, hd⟩ | ⟨ho, hm, hd⟩
  · simp [WGroup.asserts, ho, hd]
  · simp [WGroup.asserts, ho, hm, hd]

theorem carries_fcGroupConfig {P : Change → Prop} (hP : ∀ c, P c) : Carries .fcGroupConfig cmdFcGroupConfig.ahead P :=
  carries_of_effect _ _ P (fun _ _ => rfl) rfl (by decide) (by decide) (fun _ _ => rfl) hP

theorem carries_xcConnect {P : Change → Prop} (hP : ∀ c, P c) : Carries .xcConnect cmdXcConnect.ahead P :=
  carries_of_effect _ _ P (fun _ _ => rfl) rfl (by decide) (by decide) (fun _ _ => rfl) hP

theorem carries_xcDisconnect {P : Change → Prop} (hP : ∀ c, P c) : Carries .xcDisconnect cmdXcDisconnect.ahead P :=
  carries_of_effect _ _ P (fun _ _ => rfl) rfl (by decide) (by decide) (fun _ _ => rfl) hP

/-- XC_CONNECT at a destination's boundary: that destination has its new source alone, other destinations their old. -/
theorem xcConnect_connects (c : Change) (t : Time) (d : Dev) (hn : ((xcPairs c.w).map (·.2)).Nodup) (e : Nat × Nat)
    (he : e ∈ xcPairs c.w) :
    let d' := cmdXcConnect.apply c (xcPart d e.2) t d
    (⟨e.1, e.2, fld (c.w 4) 31 30⟩ : Conn) ∈ d'.fab.xc ∧ (∀ y ∈ d'.fab.xc, y.dst = e.2 → y.src = e.1)
      ∧ ∀ y ∈ d.fab.xc, y.dst ∉ (xcPairs c.w).map (·.2) → y ∈ d'.fab.xc := by
  intro d'
  have hd : d' = _ := xcConnect_apply c (xcPart d e.2) t d
  have hinto : connsInto d' e.2 = [⟨e.1, e.2, fld (c.w 4) 31 30⟩] := by rw [hd, connsInto_connected _ _ d hn e he]
  refine ⟨?_, ?_, ?_⟩
  · exact ((mem_connsInto d' e.2 _).1 (hinto ▸ List.mem_singleton_self _)).1
  · intro y hy hdst
    have hmem := (mem_connsInto d' e.2 y).2 ⟨hy, hdst⟩
    rw [hinto] at hmem
    rw [List.mem_singleton.1 hmem]
  · intro y hy hdst
    have hsame : connsInto d' y.dst = connsInto d y.dst := by rw [hd, connsInto_foldl_connectAt _ _ _ _ d hdst]
    exact ((mem_connsInto d' y.dst y).1 (hsame ▸ (mem_connsInto d y.dst y).2 ⟨hy, rfl⟩)).1

/-- XC_DISCONNECT at a tributary's boundary: no connection enters it, others stay, and it drains. -/
theorem xcDisconnect_disconnects (c : Change) (t : Time) (d : Dev) :
    let n := fld (c.w 4) 16 0
    let d' := cmdXcDisconnect.apply c (xcPart d n) t d
    (∀ y ∈ d'.fab.xc, y ∈ d.fab.xc ∧ y.dst ≠ n) ∧ (∀ y ∈ d.fab.xc, y.dst ≠ n → ¬ (y.kind = 2 ∧ y.src = n) → y ∈ d'.fab.xc)
      ∧ ∀ x y, d.trib n = some x → y ∈ d.fab.xc → y.dst = n → ∃ z, d'.trib n = some z ∧ z.drain = some ⟨t, none⟩ := by
  intro n d'
  have hd : d' = (goneAt d n (xcPart d n)).foldl (disconnectAt t) d := xcDisconnect_apply c (xcPart d n) t d
  have hmem : ∀ y, y ∈ d'.fab.xc ↔ y ∈ d.fab.xc ∧ y ∉ goneAt d n (xcPart d n) := by
    rw [hd]; exact mem_foldl_disconnectAt t _ d
  have hgone : ∀ y ∈ d.fab.xc, y.dst = n → y ∈ goneAt d n (xcPart d n) := fun y hy hdst =>
    (mem_goneAt d n _ y).2 ⟨hy, .inl hdst, by rw [hdst]⟩
  refine ⟨?_, ?_, ?_⟩
  · intro y hy
    obtain ⟨hy, hnot⟩ := (hmem y).1 hy
    exact ⟨hy, fun hdst => hnot (hgone y hy hdst)⟩
  · intro y hy hdst hback
    refine (hmem y).2 ⟨hy, fun hin => ?_⟩
    obtain ⟨-, hends, -⟩ := (mem_goneAt d n _ y).1 hin
    exact hends.elim hdst hback
  · intro x y hx hy hdst
    have hdrain : drainOf d' n = some (some ⟨t, none⟩) := by
      rw [hd]
      exact drainOf_foldl_disconnectAt t _ d n (by rw [drainOf, hx]; rfl) (.inr ⟨y, hgone y hy hdst, hdst⟩)
    exact Option.map_eq_some_iff.1 hdrain

/-- Settles O46: each row by what it does where its gate is open, and each command by the effect of its change. -/
theorem crossConnectAndWatermarks : Obligations.CrossConnectAndWatermarks := by
  unfold Obligations.CrossConnectAndWatermarks
  refine ⟨fun s hs => ⟨?_, ?_, ?_, ?_, ?_, ?_⟩, ?_, ?_, ?_⟩
  · intro a hw hit
    exact xcWord_nothing_waits a hit s hs.1 hw
  · intro a hit w rest hw hbad v goes crosses
    have hv : stageRead (hit.getD w) = (v, false) := Prod.ext rfl hbad
    refine ⟨fun hc hp => ?_, fun hc hp => ?_, fun hc hi hk => ?_, fun hc hi hk => ?_, fun hi => ?_⟩
    · have h := xcWord_boundary hs.1 hw hv hc
      rw [hp] at h; exact h
    · have h := xcWord_boundary hs.1 hw hv hc
      rw [hp] at h; exact h
    · exact xcWord_discards hs.1 hw hv hc hi hk
    · exact xcWord_crosses hs.1 hw hv hc hi hk
    · exact xcWord_idle hs.1 hw hv hi
  · intro b e hb hc hf x r p
    obtain ⟨d, hexec, hright, hread⟩ := pbEntryRead_reads b e s hs.1 hb hc hf
    refine ⟨d, hexec, fun hcorr hbad hodd => ?_, hread⟩
    rw [hright hcorr hbad hodd, PbBank.after_right _ _ hcorr hbad hodd]
  · exact pbStep_control_entry
  · exact pbStep_data_entry
  · intro g x hx depth turns
    refine ⟨fun ho hm hd => ?_, fun ho hd => ?_, fun h => ?_, fun p prio ho hp => ?_, fun ho => ?_⟩
    · exact watermarkEvaluation_turns_to s g x hs hx true (asserts_eq_true_of_high ho hm hd) (by rw [ho]; decide)
    · exact watermarkEvaluation_turns_to s g x hs hx false (asserts_eq_false_of_low ho hd) (by rw [ho]; decide)
    · exact watermarkEvaluation_stays hs hx (asserts_eq_on_between h)
    · rw [pfcRepeat_eq hs hx, ho, if_pos rfl, sendPfc_some x p prio _ _ hp]
    · rw [pfcRepeat_eq hs hx, ho, if_neg Bool.false_ne_true, withDev_self]
  · refine carries_fcGroupConfig fun c p t d => ?_
    exact ⟨_, fcGroupConfig_group c p t d, rfl, rfl, rfl, rfl, rfl⟩
  · exact carries_xcConnect fun c t d hn e he => xcConnect_connects c t d hn e he
  · exact carries_xcDisconnect fun c t d => xcDisconnect_disconnects c t d

end Sys2Proof.Machine
end

section
/-!
PROOFS. The commands as the clock and the queue see them: what a command's outcome can be, the ticks of a frame, the
frame count, and the state after reset (02 R35-R43; log entry 1).
-/
namespace Sys2Proof.Machine
open Safety

/-! ### The outcome of a command -/

/-- RAIL_SAMPLE stops the model, or runs as any other row does (20 R458). -/
theorem exec_railSample (l : List RailSample) (s : State) :
    exec (.railSample l) s = .fault .coreRailOutOfRange ∨ ∃ f : Op, exec (.railSample l) s = s.run f := by
  change execRailSample l s = _ ∨ ∃ f : Op, execRailSample l s = s.run f
  unfold execRailSample
  dsimp only
  split
  · exact .inl rfl
  · exact .inr ⟨_, rfl⟩

/-- All that a command can do: it is DFE_FRAME or the AON power-on reset, a RAIL_SAMPLE that stops the model, or an effect
on the device alone. -/
theorem exec_cases (c : Instr) (s : State) :
    c = .dfeFrame ∨ (∃ cause pins, c = .aonPowerOnReset cause pins)
      ∨ (∃ l, c = .railSample l ∧ exec c s = .fault .coreRailOutOfRange) ∨ ∃ f : Op, exec c s = s.run f := by
  cases c
  case dfeFrame => exact .inl rfl
  case aonPowerOnReset cause pins => exact .inr (.inl ⟨cause, pins, rfl⟩)
  case railSample l =>
    rcases exec_railSample l s with hstop | hruns
    · exact .inr (.inr (.inl ⟨l, rfl, hstop⟩))
    · exact .inr (.inr (.inr hruns))
  all_goals exact .inr (.inr (.inr ⟨_, rfl⟩))

theorem exec_dfeFrame (s : State) : exec .dfeFrame s = .next (nextFrame s) := rfl

theorem exec_aonPowerOnReset (cause : PorCause) (pins : PorPins) (s : State) :
    exec (.aonPowerOnReset cause pins) s = .next (if s.dev.aon.snowdrop && cause == .porPin then s
      else { clock := {}, dev := powerOn pins s.dev, pending := s.pending }) := rfl

/-- A command that goes on keeps the queue's rest. -/
theorem pending_of_exec {c : Instr} {s s' : State} (h : exec c s = .next s') : s'.pending = s.pending := by
  obtain rfl | ⟨cause, pins, rfl⟩ | ⟨l, -, hstop⟩ | ⟨f, hf⟩ := exec_cases c s
  · rw [exec_dfeFrame] at h; cases h; rfl
  · rw [exec_aonPowerOnReset] at h; cases h; split <;> rfl
  · rw [hstop] at h; cases h
  · rw [hf] at h; cases h; rfl

/-- No row but DFE_FRAME and the AON power-on reset moves device time. -/
theorem clock_of_exec {c : Instr} {s s' : State} (hd : c ≠ .dfeFrame) (hp : ∀ cause pins, c ≠ .aonPowerOnReset cause pins)
    (h : exec c s = .next s') : s'.clock = s.clock := by
  obtain hc | ⟨cause, pins, hc⟩ | ⟨l, -, hstop⟩ | ⟨f, hf⟩ := exec_cases c s
  · exact absurd hc hd
  · exact absurd hc (hp cause pins)
  · rw [hstop] at h; cases h
  · rw [hf] at h; cases h; rfl

theorem exec_ne_refused (c : Instr) (s : State) (r : Refusal) : exec c s ≠ .refused r := by
  obtain rfl | ⟨cause, pins, rfl⟩ | ⟨l, -, hstop⟩ | ⟨f, hf⟩ := exec_cases c s
  · exact nofun
  · exact nofun
  · rw [hstop]; exact nofun
  · rw [hf]; exact nofun

theorem railSample_of_exec_fault {c : Instr} {s : State} {f : Fault} (h : exec c s = .fault f) : ∃ l, c = .railSample l := by
  obtain rfl | ⟨cause, pins, rfl⟩ | ⟨l, hc, -⟩ | ⟨g, hg⟩ := exec_cases c s
  · cases h
  · cases h
  · exact ⟨l, hc⟩
  · rw [hg] at h; cases h

/-! ### Ticks and frames -/

/-- The state with another phase of the same frame. -/
def State.atPhase (s : State) (p : BitVec 15) : State := { s with clock := { s.clock with phase := p } }

/-- A new frame starts the same from every phase of the one before. -/
theorem nextFrame_atPhase (s : State) (p : BitVec 15) : nextFrame (s.atPhase p) = nextFrame s := rfl

theorem tick_of_last {s : State} (h : s.clock.phase = 32767#15) : tick s = nextFrame s := if_pos h

theorem tick_of_not_last {s : State} (h : s.clock.phase ≠ 32767#15) : tick s = s.atPhase (s.clock.phase + 1) := if_neg h

/-- Ticks within a frame only count its phase. -/
theorem repeat_tick_within (s : State) (k : Nat) (h : k + s.clock.phase.toNat < 32768) :
    Nat.repeat tick k s = s.atPhase (s.clock.phase + BitVec.ofNat 15 k) := by
  induction k with
  | zero => simp [Nat.repeat, State.atPhase]
  | succ k ih =>
    have hne : s.clock.phase + BitVec.ofNat 15 k ≠ 32767#15 := by bv_omega
    have hsum : s.clock.phase + BitVec.ofNat 15 k + 1 = s.clock.phase + BitVec.ofNat 15 (k + 1) := by bv_omega
    calc Nat.repeat tick (k + 1) s
        = tick (s.atPhase (s.clock.phase + BitVec.ofNat 15 k)) := congrArg tick (ih (by omega))
      _ = s.atPhase (s.clock.phase + BitVec.ofNat 15 k + 1) := tick_of_not_last hne
      _ = s.atPhase (s.clock.phase + BitVec.ofNat 15 (k + 1)) := by rw [hsum]

/-- As many ticks as a frame has left start the next one (02 R35). -/
theorem repeat_tick_frame (s : State) (n : Nat) (h : n + s.clock.phase.toNat = 32768) : Nat.repeat tick n s = nextFrame s := by
  obtain ⟨k, rfl⟩ : ∃ k, n = k + 1 := ⟨n - 1, by bv_omega⟩
  have hlast : s.clock.phase + BitVec.ofNat 15 k = 32767#15 := by bv_omega
  calc Nat.repeat tick (k + 1) s
      = tick (s.atPhase (s.clock.phase + BitVec.ofNat 15 k)) := congrArg tick (repeat_tick_within s k (by omega))
    _ = nextFrame (s.atPhase (s.clock.phase + BitVec.ofNat 15 k)) := tick_of_last hlast
    _ = nextFrame s := nextFrame_atPhase s _

/-- What the start of a new frame does to a port. -/
def frameStart (t : Time) (x : Port) : Port :=
  if isEth x.typ then { x with rxF := x.rxF.next t, txF := x.txF.next t } else if isFlexe x.typ then flexeSend t x else x

theorem nextFrame_ports (s : State) :
    (nextFrame s).dev.fab.ports = tmap s.dev.fab.ports fun _ => frameStart (nextFrame s).clock.now := rfl

/-- A new frame leaves a port that is neither Ethernet nor a FlexE group as it is (02 R43). -/
theorem port_nextFrame {s : State} {p : Nat} {x : Port} (hx : s.dev.port p = some x) (he : isEth x.typ = false)
    (hf : isFlexe x.typ = false) : (nextFrame s).dev.port p = some x := by
  have hstart : ∀ t, frameStart t x = x := fun t => by simp [frameStart, he, hf]
  unfold Dev.port at hx ⊢
  rw [nextFrame_ports, tget_tmap, hx, Option.map_some, hstart]

/-! ### The state after reset -/

theorem srcClass_of_no_sources {d : Dev} {n : Nat} {i : SrcInfo} (hd : d.aon.coll.src = []) (hi : srcInfo n = some i) :
    srcClass d n = i.init := by
  simp [srcClass, hi, Dev.src, hd, tgetD, tget]

/-- Settles O54: both halves are the definition of a step, with the two kinds of tick. -/
theorem stepRunsFront : Obligations.StepRunsFront := by
  unfold Obligations.StepRunsFront
  refine ⟨fun c r s h => ?_, fun s h => ?_⟩
  · unfold step; rw [h]
  · have hstep : step s = .next (tick s) := by unfold step; rw [h]
    exact ⟨fun hp => hstep.trans (congrArg _ (tick_of_not_last hp)), fun hp => hstep.trans (congrArg _ (tick_of_last hp))⟩

/-- Settles O55: the reset state's tables are empty, so that each of their entries reads its default. -/
theorem resetValues : Obligations.ResetValues := by
  unfold Obligations.ResetValues
  intro s
  refine ⟨rfl, rfl, rfl, rfl, rfl, fun n i => srcClass_of_no_sources rfl, rfl, rfl, rfl, rfl, fun n => ⟨rfl, rfl⟩, fun k => ⟨rfl, rfl⟩,
    rfl, rfl, by decide, fun p => rfl, fun n => rfl, fun n => rfl, fun f => ⟨rfl, rfl⟩⟩

/-- Settles O56: of the rows that move device time, one restarts it at 0 and the other counts a frame. -/
theorem frameCount : Obligations.FrameCount := by
  unfold Obligations.FrameCount
  refine ⟨fun cause pins s h => ⟨powerOn pins s.dev, ?_⟩, fun s => ⟨_, exec_dfeFrame s⟩, fun c s s' => clock_of_exec⟩
  have hacts : ¬ ((s.dev.aon.snowdrop && cause == .porPin) = true) := by
    rcases h with h | h <;> simp [h]
  rw [exec_aonPowerOnReset, if_neg hacts]

/-- Settles O57: the kinds of outcome a command has, and a frame as the ticks that make it. -/
theorem timeAndQueue : Obligations.TimeAndQueue := by
  unfold Obligations.TimeAndQueue
  exact ⟨fun c s s' => pending_of_exec, exec_ne_refused, fun c s f => railSample_of_exec_fault,
    fun s => ⟨(nextFrame s).dev, exec_dfeFrame s, rfl, rfl, fun p x => port_nextFrame⟩, fun s n => repeat_tick_frame s n⟩

end Sys2Proof.Machine
end

section
/-!
PROOFS. Scheduled changes at their boundaries: what a tried change does, what leaves the pending changes alone, and the
flywheel's boundaries (02 R40-R53; 14 R337).
-/
namespace Sys2Proof.Machine
open Safety

/-! ### Flywheel boundaries (02 R44) -/

/-- If D is the rounded-down length of some number of periods a / b, the least number of periods that reaches D has that
length too: the count the flywheel tries is enough (02 R44). -/
theorem ceil_periods_of_mul_div {k a b D : Nat} (hD : 0 < D) (h : k * a / b = D) : ((D * b + a - 1) / a) * a / b = D := by
  have hb : 0 < b := Nat.pos_of_ne_zero fun h0 => by simp [h0] at h; omega
  have ha : 0 < a := Nat.pos_of_ne_zero fun h0 => by simp [h0] at h; omega
  have hlow : D * b ≤ k * a := by rw [← h]; exact Nat.div_mul_le_self _ _
  have hle : (D * b + a - 1) / a ≤ k := by
    rw [Nat.div_le_iff_le_mul ha]; omega
  refine Nat.le_antisymm ?_ ?_
  · calc ((D * b + a - 1) / a) * a / b ≤ k * a / b := Nat.div_le_div_right (Nat.mul_le_mul_right a hle)
      _ = D := h
  · have hup : D * b ≤ ((D * b + a - 1) / a) * a := by
      have := Nat.lt_div_mul_add ha (a := D * b + a - 1); omega
    exact (Nat.le_div_iff_mul_le hb).2 hup

theorem isSome_fly (f : PortFrame) (q : Period) (t : Time) :
    (f.fly q t).isSome = true ↔ ∃ k, f.anchor < t ∧ f.anchor + k * q.1 / q.2 = t := by
  unfold PortFrame.fly
  dsimp only
  constructor
  · intro h
    split at h
    · next hk => exact ⟨_, hk⟩
    · cases h
  · rintro ⟨k, hlt, hk⟩
    have hceil := ceil_periods_of_mul_div (Nat.sub_pos_of_lt hlt) (Nat.eq_sub_of_add_eq' hk)
    rw [if_pos ⟨hlt, (congrArg (f.anchor + ·) hceil).trans (Nat.add_sub_of_le (Nat.le_of_lt hlt))⟩]
    rfl

/-- The receive boundaries of a port whose frames are its own: those its frames started, and without alignment the
flywheel's. -/
theorem boundaryAt_port_rx {d : Dev} {n : Nat} {q : Period} {t : Time} (hdfe : onDfe d (.port n) = false)
    (hq : framePeriod d (.port n) = some q) (hstart : (framesOf d (.port n) .rx).start ≠ t) :
    boundaryAt (.port n) .rx t d = if aligned d (.port n) then none
      else ((framesOf d (.port n) .rx).fly q t).map fun k =>
        setFrames (.port n) .rx ((framesOf d (.port n) .rx).flyTo q k t) d := by
  unfold boundaryAt
  rw [hdfe, hq]
  dsimp only
  rw [if_neg Bool.false_ne_true, if_neg hstart]
  cases aligned d (.port n)
  · cases PortFrame.fly (framesOf d (.port n) .rx) q t <;> rfl
  · rfl

/-- Counting a flywheel boundary leaves firmware's objects as they are. -/
theorem fw_setFrames (o : Obj) (dir : Dir) (f : PortFrame) (d : Dev) : (setFrames o dir f d).fab.fw = d.fab.fw := by
  cases o <;> cases dir <;> rfl

theorem fw_boundaryAt {o : Obj} {dir : Dir} {t : Time} {d e : Dev} (h : boundaryAt o dir t d = some e) :
    e.fab.fw = d.fab.fw := by
  unfold boundaryAt at h
  dsimp only at h
  split at h
  · split at h <;> cases h; rfl
  · split at h
    · cases h
    · split at h
      · cases h; rfl
      · split at h
        · cases h
        · split at h
          · cases h; exact fw_setFrames _ _ _ _
          · cases h

/-- A fold keeps what each of its steps keeps. -/
theorem foldl_keeps {α β γ : Type} (g : α → γ) (f : α → β → α) (h : ∀ a x, g (f a x) = g a) (l : List β) (a : α) :
    g (l.foldl f a) = g a := by
  induction l generalizing a with
  | nil => rfl
  | cons x l ih => rw [List.foldl_cons, ih, h]

/-! ### Trying a change (02 R46, R51, R52) -/

/-- A change that is the only one pending applies at a boundary it waits for, once it is due, armed and ready. -/
theorem tryChange_only {d : Dev} {c : Change} {cmd : Cmd} {p : Part} {t : Time} (l : List Obj)
    (hc : d.fab.fw.changes = [c]) (hcmd : cmdOf c.code.toNat = some cmd) (hp : p ∈ c.parts) (ht : c.trig ≤ t)
    (harm : c.armed = true) (hready : cmd.ready c d = true) :
    tryChange p t (d, l) c = (applyPart cmd c p t d, c.obj :: l) := by
  simp [tryChange, hc, hcmd, hp, ht, harm, hready, heldBack]

/-- A change that waits for other boundaries stays. -/
theorem tryChange_of_not_mem {d : Dev} {c : Change} {p : Part} (t : Time) (l : List Obj) (hc : d.fab.fw.changes = [c])
    (hp : p ∉ c.parts) : tryChange p t (d, l) c = (d, l) := by
  unfold tryChange
  cases cmdOf c.code.toNat <;> simp [hc, hp]

/-- A change whose trigger time lies ahead stays (02 R46). -/
theorem tryChange_ahead {d : Dev} {t : Time} (p : Part) (l : List Obj) (c : Change)
    (h : ∀ e ∈ d.fab.fw.changes, t < e.trig) : tryChange p t (d, l) c = (d, l) := by
  unfold tryChange
  dsimp only
  split
  · next e cmd he hcmd =>
    have hlate : ¬ e.trig ≤ t := Nat.not_le.2 (h e (List.mem_of_find?_eq_some he))
    simp [hlate]
  · rfl

theorem foldl_tryChange_ahead {d : Dev} {t : Time} (p : Part) (l : List Obj) (cs : List Change)
    (h : ∀ e ∈ d.fab.fw.changes, t < e.trig) : cs.foldl (tryChange p t) (d, l) = (d, l) := by
  induction cs with
  | nil => rfl
  | cons c cs ih => rw [List.foldl_cons, tryChange_ahead p l c h, ih]

theorem octetChanges_ahead {d : Dev} {t : Time} (h : ∀ e ∈ d.fab.fw.changes, t < e.trig) : octetChanges t d = d := by
  unfold octetChanges
  rw [foldl_tryChange_ahead .octet [] _ h]
  exact ite_self d

theorem applyAt_ahead {d : Dev} {t : Time} (p : Part) (h : ∀ e ∈ d.fab.fw.changes, t < e.trig) : applyAt p t d = d := by
  unfold applyAt
  dsimp only
  rw [foldl_tryChange_ahead p [] _ h]

theorem octetChanges_of_not_octet {d : Dev} {t : Time} {c : Change} (hc : d.fab.fw.changes = [c]) (hp : .octet ∉ c.parts) :
    octetChanges t d = d := by
  unfold octetChanges
  rw [hc, List.foldl_cons, List.foldl_nil, tryChange_of_not_mem t [] hc hp]
  exact ite_self d

/-- Port changes come first, and a single change is first either way (02 R50). -/
theorem applyAt_only {d : Dev} {t : Time} {c : Change} (p : Part) (hc : d.fab.fw.changes = [c]) :
    applyAt p t d = (tryChange p t (d, []) c).1 := by
  unfold applyAt
  dsimp only
  rw [hc]
  cases h : isPortObj c.obj <;> simp [h]

/-! ### What an applied part leaves pending -/

theorem changes_of_onlyTalk {d d' : Dev} (h : OnlyTalk d d') : d'.fab.fw.changes = d.fab.fw.changes := by rw [h.1]

theorem onlyTalk_complete (c : Change) (dir ret : Nat) (t : Time) (detail : Word) (d : Dev) :
    OnlyTalk d (complete c dir ret t detail d) := by
  unfold complete
  dsimp only
  split
  · exact (onlyTalk_sendOut _ _ _ _).trans (onlyTalk_addRecord _ _ _ _ _ _)
  · exact onlyTalk_addRecord _ _ _ _ _ _

theorem onlyTalk_foldl_complete (c : Change) (ret : Nat) (t : Time) (detail : Word) (dirs : List Nat) (d : Dev) :
    OnlyTalk d (dirs.foldl (fun d r => complete c r ret t detail d) d) := by
  induction dirs generalizing d with
  | nil => exact .refl d
  | cons r dirs ih => exact (onlyTalk_complete c r ret t detail d).trans (ih _)

/-- The configuration database's update leaves the pending changes (19 R447). -/
theorem changes_dbApply (cmd : Cmd) (msgs : List (List Word)) (t : Time) (d : Dev) :
    (dbApply cmd msgs t d).fab.fw.changes = d.fab.fw.changes := by
  refine foldl_keeps (fun d : Dev => d.fab.fw.changes) _ (fun d ws => ?_) msgs d
  dsimp only
  split <;> rfl

/-- A change leaves the pending ones with its last part (02 R46). -/
theorem changes_applyPart_last (cmd : Cmd) (c : Change) (p : Part) (t : Time) (d : Dev) (hp : c.parts = [p]) :
    (applyPart cmd c p t d).fab.fw.changes
      = (cmd.apply c p t d).fab.fw.changes.filter fun e => !(e.handle == c.handle && e.mem == c.mem) := by
  have hrest : c.parts.filter (· != p) = [] := by simp [hp]
  unfold applyPart
  dsimp only
  rw [changes_of_onlyTalk (onlyTalk_foldl_complete c rcOk t 0 _ _), hrest]
  exact changes_dbApply cmd c.msgs t _

/-! ### CONFIG_BANK_SWAP at a transmit boundary -/

/-- What a transmit boundary does: the octet boundary's changes first where it is one, then those of the frame
(02 R50). -/
theorem configBankSwap_tx (o : Obj) {s : State} (hs : Runs s) :
    exec (.configBankSwap o .tx) s = .next (withDev s (((boundaryAt o .tx s.clock.now s.dev).map fun d =>
      applyAt (.frame o .tx) s.clock.now (octetChanges s.clock.now d)).getD s.dev)) := by
  refine (run_gRun _ s hs).trans ?_
  cases boundaryAt o .tx s.clock.now s.dev <;> rfl

/-! ### OCTET_BOUNDARY (02 R40; 14 R337) -/

theorem fw_settle (n : Nat) (t : Time) (d : Dev) : (settle n t d).fab.fw = d.fab.fw := by
  unfold settle; split <;> rfl

theorem fw_settleAll (t : Time) (d : Dev) : (settleAll t d).fab.fw = d.fab.fw :=
  foldl_keeps (fun d : Dev => d.fab.fw) _ (fun d n => fw_settle n t d) _ d

theorem aon_blockPlain (k : Nat) (err : Bool) (d : Dev) : (blockPlain k err d).aon = d.aon := by
  unfold blockPlain
  dsimp only
  split <;> simp

theorem aon_endBlocks (d : Dev) : (endBlocks d).aon = d.aon := by
  unfold endBlocks
  exact foldl_keeps Dev.aon _ (fun d k => (modLayer_aon _ k _).trans (aon_blockPlain k _ d)) _ d

/-- The device of an octet boundary before its changes apply: schedulers are brought up to date and returned HBM channels
rejoin (18 R423). -/
def beforeOctet (t : Time) (d : Dev) : Dev := (settleAll t d).onColl fun c => { c with rejoin := [] }

theorem fw_beforeOctet (t : Time) (d : Dev) : (beforeOctet t d).fab.fw = d.fab.fw := fw_settleAll t d

/-- The policy registers come into force (14 R337). -/
def takePolicy (d : Dev) : Dev := d.onPwr fun p => { p with capIn := p.cap, policyIn := p.policy, packIn := p.pack }

theorem isOctet_iff (t : Time) : isOctet t = true ↔ t % (8 * frame) = 0 := beq_iff_eq

theorem octetBoundary_at {s : State} (hs : Runs s) (ht : s.clock.now % (8 * frame) = 0) :
    exec .octetBoundary s = .next (withDev s
      (endBlocks (takePolicy (octetChanges s.clock.now (beforeOctet s.clock.now s.dev))))) := by
  refine (run_gRun _ s hs).trans ?_
  rw [(isOctet_iff _).2 ht]; rfl

theorem octetBoundary_elsewhere {s : State} (ht : s.clock.now % (8 * frame) ≠ 0) : exec .octetBoundary s = .next s := by
  have hno : isOctet s.clock.now = false := Bool.eq_false_iff.2 fun h => ht ((isOctet_iff _).1 h)
  change s.run _ = _
  simp [State.onDev, gRun, hno]

/-! ### CHANGE_ARM (02 R52) -/

theorem run_gFw (f : Op) (s : State) (h : FwRuns s) : s.run (gFw f) = .next (withDev s (f s.clock.now s.dev)) := by
  obtain ⟨⟨hon, hsnow⟩, hrun, hact⟩ := h
  simp [State.onDev, gFw, withDev, show s.dev.aon.standby = false from hon, hsnow, hrun, hact]

theorem changeArm_first {s : State} {h mem : Nat} {c : Change} (hs : FwRuns s)
    (hc : s.dev.fab.fw.changes.find? (fun e => e.handle == h && e.mem == mem) = some c)
    (hfirst : ∀ e ∈ s.dev.fab.fw.changes.takeWhile (fun e => !(e.handle == h && e.mem == mem)), e.obj ≠ c.obj) :
    exec (.changeArm h mem) s = .next (withDev s (s.dev.onFw fun f => { f with
      changes := f.changes.map fun e => if e.handle == h && e.mem == mem then { e with armed := true } else e })) := by
  have hnone : ((s.dev.fab.fw.changes.takeWhile fun e => !(e.handle == h && e.mem == mem)).any fun e => e.obj == c.obj) = false :=
    List.any_eq_false.2 fun e he => by simpa using hfirst e he
  refine (run_gFw _ s hs).trans ?_
  dsimp only
  rw [hc]
  dsimp only
  rw [hnone, if_neg Bool.false_ne_true]

/-- Settles O22: a boundary tries each pending change, and the lemmas above say when a tried change applies. -/
theorem boundaries : Obligations.Boundaries := by
  unfold Obligations.Boundaries
  refine fun s => ⟨?_, ?_, ?_, ?_, ?_, ?_, octetBoundary_elsewhere, fun h mem c => changeArm_first⟩
  · rintro n _ c cmd d hs hb rfl hone hcmd hp hoct ht harm hready
    have hc : d.fab.fw.changes = [c] := by rw [fw_boundaryAt hb, hone]
    rw [configBankSwap_tx _ hs, hb, Option.map_some, Option.getD_some,
      octetChanges_of_not_octet hc hoct,
      applyAt_only _ hc, tryChange_only [] hc hcmd hp ht harm hready]
  · intro c cmd d hs hoct hone hcmd hp ht harm hready
    have hc : d.fab.fw.changes = [c] := by rw [← hone]; exact congrArg Fw.changes (fw_beforeOctet _ _)
    have happ : octetChanges s.clock.now d = applyPart cmd c .octet s.clock.now d := by
      unfold octetChanges
      rw [if_pos ((isOctet_iff _).2 hoct), hc, List.foldl_cons, List.foldl_nil, tryChange_only [] hc hcmd hp ht harm hready]
    rw [octetBoundary_at hs hoct, ← happ]
    rfl
  · intro n x q _ hdfe hq hstart
    rw [boundaryAt_port_rx hdfe hq hstart]
    refine ⟨fun h => by rw [h]; rfl, fun h => ?_⟩
    rw [h, if_neg Bool.false_ne_true, Option.isSome_map]
    exact isSome_fly _ _ _
  · intro cmd c p t d hp e he
    rw [changes_applyPart_last cmd c p t d hp, List.mem_filter] at he
    simpa using he.2
  · intro n hs hahead
    rw [configBankSwap_tx _ hs]
    cases hb : boundaryAt (.port n) .tx s.clock.now s.dev with
    | none => rfl
    | some d =>
      have hd : ∀ e ∈ d.fab.fw.changes, s.clock.now < e.trig := by rwa [fw_boundaryAt hb]
      rw [Option.map_some, octetChanges_ahead hd, applyAt_ahead _ hd]
  · intro hs hoct
    refine ⟨_, octetBoundary_at hs hoct, ?_⟩
    rw [aon_endBlocks]
    exact ⟨rfl, rfl, rfl⟩

end Sys2Proof.Machine
end

section
/-!
SUPPORT. What a lane's signal brings about: the loss of signal of its ports, the reference slots that take its clock, and
the partner record; and the lanes after it (03 R57, R71-R73, R80; 13 R309, R323).
-/
namespace Sys2Proof.Machine
open Safety

/-! ### Tables -/

theorem mem_of_tget {α : Type} {t : Tbl α} {n : Nat} {v : α} (h : tget t n = some v) : (n, v) ∈ t := by
  induction t with
  | nil => cases h
  | cons e r ih =>
    obtain ⟨k, w⟩ := e
    simp only [tget] at h
    split at h
    · rename_i hk; subst hk; cases h; exact List.mem_cons_self
    · exact List.mem_cons_of_mem _ (ih h)

/-- An entry replaced by one of which the same holds leaves what holds of some entry. -/
theorem any_tput {α : Type} {t : Tbl α} {n : Nat} {v w : α} {P : Nat × α → Bool} (h : tget t n = some v)
    (hP : P (n, w) = P (n, v)) : (tput t n w).any P = t.any P := by
  induction t with
  | nil => cases h
  | cons e r ih =>
    obtain ⟨k, u⟩ := e
    have hmem := mem_of_tget h
    simp only [tput]
    split
    · rw [List.any_cons, hP]
      cases hv : P (n, v)
      · rw [Bool.false_or]
      · rw [Bool.true_or, List.any_eq_true.2 ⟨_, hmem, hv⟩]
    · split
      · rename_i hk; subst hk
        have hu : u = v := by simpa [tget] using h
        rw [List.any_cons, List.any_cons, hP, hu]
      · rename_i hk
        rw [List.any_cons, List.any_cons, ih (by simpa [tget, Ne.symm hk] using h)]

theorem any_tupd {α : Type} (t : Tbl α) (n : Nat) (f : α → α) (P : Nat × α → Bool) (hP : ∀ v, P (n, f v) = P (n, v)) :
    (tupd t n f).any P = t.any P := by
  unfold tupd
  split
  · rename_i v hv; exact any_tput hv (hP v)
  · rfl

theorem tget_tdel_ne {α : Type} (t : Tbl α) {n m : Nat} (h : m ≠ n) : tget (tdel t n) m = tget t m := by
  induction t with
  | nil => rfl
  | cons e r ih =>
    obtain ⟨k, v⟩ := e
    simp only [tdel] at ih ⊢
    by_cases hk : k = n
    · subst hk; simp [tget, Ne.symm h, ih]
    · simp [tget, hk, ih]

/-! ### The frame of a signal's effects -/

/-- What PORT_CREATE fixes of a port (03 R62). -/
def portMake (x : Port) : Nat × Nat × Nat × BitVec 16 × Nat × Nat × Time :=
  (x.typ, x.first, x.lanes, x.mask, x.phys, x.owner, x.created)

/-- Sets of ports: none, one, and any. -/
def noPort : Nat → Prop := fun _ => False
def onlyPort (p : Nat) : Nat → Prop := fun q => q = p
def anyPort : Nat → Prop := fun _ => True

/-- A lane's signal may change the interrupts, the mailboxes, the layers, the counters, and what is received of the ports
of a set and of ODUs; nothing else of the fixed domain. -/
structure SignalFrame (ps : Nat → Prop) (d d' : Dev) : Prop where
  fab : d'.fab = { d.fab with irq := d'.fab.irq, mbx := d'.fab.mbx, ports := d'.fab.ports, tribs := d'.fab.tribs,
                              layers := d'.fab.layers, pm := d'.fab.pm }
  trib : ∀ n y, d.trib n = some y → isOdu y.typ = false → d'.trib n = some y
  made : ∀ q, (d'.port q).map portMake = (d.port q).map portMake
  port : ∀ q, ¬ ps q → d'.port q = d.port q

section
variable {ps : Nat → Prop} {d e f : Dev}

theorem SignalFrame.refl (d : Dev) : SignalFrame ps d d := ⟨rfl, fun _ _ h _ => h, fun _ => rfl, fun _ _ => rfl⟩

theorem SignalFrame.trans (h : SignalFrame ps d e) (k : SignalFrame ps e f) : SignalFrame ps d f where
  fab := by rw [k.fab, h.fab]
  trib n y hy ho := k.trib n y (h.trib n y hy ho) ho
  made q := (k.made q).trans (h.made q)
  port q hq := (k.port q hq).trans (h.port q hq)

theorem SignalFrame.any (h : SignalFrame ps d e) : SignalFrame anyPort d e :=
  ⟨h.fab, h.trib, h.made, fun _ hq => absurd trivial hq⟩

theorem SignalFrame.foldl {α : Type} (g : Dev → α → Dev) (h : ∀ d x, SignalFrame ps d (g d x)) (l : List α) (d : Dev) :
    SignalFrame ps d (l.foldl g d) := by
  induction l generalizing d with
  | nil => exact .refl d
  | cons x l ih => exact (h d x).trans (ih _)

theorem SignalFrame.ite (p : Prop) [Decidable p] (he : SignalFrame ps d e) (hf : SignalFrame ps d f) :
    SignalFrame ps d (if p then e else f) := by
  split
  · exact he
  · exact hf

/-- An effect on other parts than ports and tributaries. -/
theorem SignalFrame.of_fab
    (h : e.fab = { d.fab with irq := e.fab.irq, mbx := e.fab.mbx, layers := e.fab.layers, pm := e.fab.pm }) :
    SignalFrame ps d e := by
  have ht : e.trib = d.trib := by unfold Dev.trib; rw [h]
  have hp : e.port = d.port := by unfold Dev.port; rw [h]
  exact ⟨by rw [h], fun n y hy _ => ht ▸ hy, fun q => by rw [hp], fun q _ => by rw [hp]⟩

theorem SignalFrame.of_onlyTalk (h : OnlyTalk d e) : SignalFrame ps d e := .of_fab (by rw [h.1])

variable (h : SignalFrame ps d e)
include h

theorem SignalFrame.lane (l : Nat) : e.lane l = d.lane l := by unfold Dev.lane; rw [h.fab]
theorem SignalFrame.pd : e.fab.pd = d.fab.pd := by rw [h.fab]
theorem SignalFrame.mps : e.fab.mps = d.fab.mps := by rw [h.fab]

end

/-! ### Loss of signal and out of frame (03 R57; 05 R119, R122; 10 R232-R241) -/

section
variable {ps : Nat → Prop}

theorem signalFrame_modLayer (d : Dev) (k : Nat) (f : Layer → Layer) : SignalFrame ps d (d.modLayer k f) := .of_fab rfl

theorem signalFrame_refresh (t : Time) (d : Dev) : SignalFrame ps d (refresh t d) := .of_fab rfl

theorem signalFrame_addCnt (k num n : Nat) (d : Dev) : SignalFrame ps d (addCnt k num n d) :=
  .of_fab (by rw [addCnt_fab])

theorem signalFrame_recordDef (k old : Nat) (t : Time) (d : Dev) : SignalFrame ps d (recordDef k old t d) := by
  unfold recordDef
  dsimp only
  refine .ite _ (.refl d) ?_
  generalize (if (d.layer k).sentSec = secOf t then (d.layer k).sent else 0) = sent
  exact .ite _ ((SignalFrame.of_onlyTalk (onlyTalk_addRecord ..)).trans (signalFrame_modLayer ..)) (signalFrame_modLayer ..)

theorem signalFrame_setDef (k : Nat) (x : Def) (on : Bool) (t : Time) (d : Dev) : SignalFrame ps d (setDef k x on t d) := by
  unfold setDef
  exact .ite _ (.refl d) (((signalFrame_modLayer ..).trans (signalFrame_refresh ..)).trans (signalFrame_recordDef ..))

/-- Held and running times of aligners are those of ODUs alone (05 R121, R139). -/
theorem signalFrame_syncWatches (t : Time) (d : Dev) : SignalFrame ps d (syncWatches t d) where
  fab := rfl
  made _ := rfl
  port _ _ := rfl
  trib n y hy ho := by
    unfold Dev.trib at hy
    unfold syncWatches Dev.trib
    rw [onFab_fab, tget_tmap, hy]
    simp [ho]

theorem signalFrame_setWords (ts : List Nat) (missing : Nat → Bool) (t : Time) (d : Dev) :
    SignalFrame ps d (setWords ts missing t d) := by
  unfold setWords
  exact .ite _ (.refl d) (((SignalFrame.foldl _ (fun d n => signalFrame_modLayer d _ _) _ _).trans
    (signalFrame_refresh ..)).trans (signalFrame_syncWatches ..))

/-- A port takes up something that its creation does not fix. -/
theorem signalFrame_modPort (d : Dev) (p : Nat) (f : Port → Port) (hf : ∀ x, portMake (f x) = portMake x) :
    SignalFrame (onlyPort p) d (d.modPort p f) where
  fab := rfl
  trib _ _ h _ := h
  made q := by
    rw [port_modPort]
    split
    · rename_i hq; subst hq
      rw [Option.map_map]
      exact congrArg (fun g => (d.port q).map g) (funext hf)
    · rfl
  port q hq := (port_modPort d p q f).trans (if_neg hq)

theorem signalFrame_silencePort (p : Nat) (t : Time) (d : Dev) : SignalFrame ps d (silencePort p t d) :=
  signalFrame_setWords ..

theorem signalFrame_portOof (p : Nat) (t : Time) (d : Dev) : SignalFrame (onlyPort p) d (portOof p t d) := by
  unfold portOof
  split
  · exact .refl d
  · dsimp only
    have hsilent := (signalFrame_modPort d p (fun x => { x with fr := { x.fr with st := .oof, errRun := 0 } })
      fun _ => rfl).trans (signalFrame_silencePort p t _)
    refine .ite _ hsilent ((hsilent.trans (signalFrame_modPort _ p _ ?_)).trans (signalFrame_setDef ..))
    exact fun x => rfl

theorem signalFrame_refreshLos (p : Nat) (t : Time) (d : Dev) : SignalFrame (onlyPort p) d (refreshLos p t d) := by
  unfold refreshLos
  split
  · exact .refl d
  · exact .ite _ ((signalFrame_setDef ..).trans (signalFrame_portOof ..)) (signalFrame_setDef ..)

theorem signalFrame_lanePorts (l : Nat) (t : Time) (d : Dev) : SignalFrame anyPort d (lanePorts l t d) :=
  .foldl _ (fun d p => (signalFrame_refreshLos p t d).any) _ _

/-! ### The clock of a lane (13 R309, R323, R328) -/

theorem signalFrame_of_fab_eq {d e : Dev} (h : e.fab = d.fab) : SignalFrame ps d e := .of_fab (by rw [h])

theorem signalFrame_clkLatch (b : Nat) (d : Dev) : SignalFrame ps d (clkLatch b d) :=
  (signalFrame_of_fab_eq (onClk_fab d _)).trans (.of_onlyTalk (onlyTalk_irqLatch 21 _))

theorem signalFrame_clkEvent (what obj new old : Nat) (t : Time) (d : Dev) :
    SignalFrame ps d (clkEvent what obj new old t d) := .of_onlyTalk (onlyTalk_noteRecord ..)

theorem signalFrame_modSlot (n : Nat) (f : Slot → Slot) (d : Dev) : SignalFrame ps d (d.modSlot n f) :=
  signalFrame_of_fab_eq rfl

theorem signalFrame_disqualify (n : Nat) (t : Time) (d : Dev) : SignalFrame ps d (disqualify n t d) := by
  unfold disqualify setQualified
  refine (signalFrame_modSlot n (fun x => { x with soak := 0 }) d).trans (.ite _ (.refl _) ?_)
  exact (((signalFrame_modSlot ..).trans (signalFrame_modSlot ..)).trans (signalFrame_clkLatch ..)).trans
    (signalFrame_clkEvent ..)

theorem signalFrame_lanesSlotsLost (l : Nat) (t : Time) (d : Dev) : SignalFrame ps d (lanesSlotsLost l t d) :=
  .foldl _ (fun d n => signalFrame_disqualify n t d) _ _

theorem signalFrame_refreshWitness (t : Time) (d : Dev) : SignalFrame ps d (refreshWitness t d) := by
  unfold refreshWitness
  exact .ite _ (.refl d) ((signalFrame_of_fab_eq (onClk_fab d _)).trans (signalFrame_clkEvent ..))

/-! ### The partner record (03 R80) -/

/-- A partner value taken up changes nothing, or the record of its port, which is notified. -/
theorem setPartner_cases (p item inst : Nat) (ws : List Word) (t : Time) (d : Dev) :
    setPartner p item inst ws t d = d ∨ ∃ f : Port → Port, (∀ x, portMake (f x) = portMake x)
      ∧ OnlyTalk (d.modPort p f) (setPartner p item inst ws t d) := by
  unfold setPartner
  split
  · exact .inl rfl
  · refine iteInduction (motive := fun e => e = d ∨ ∃ f : Port → Port, (∀ x, portMake (f x) = portMake x)
      ∧ OnlyTalk (d.modPort p f) e) (fun _ => .inl rfl) fun _ => .inr ⟨_, ?_, onlyTalk_noteRecord ..⟩
    exact fun x => rfl

theorem signalFrame_setPartner (p item inst : Nat) (ws : List Word) (t : Time) (d : Dev) :
    SignalFrame (onlyPort p) d (setPartner p item inst ws t d) := by
  rcases setPartner_cases p item inst ws t d with h | ⟨f, hf, htalk⟩
  · rw [h]; exact .refl d
  · exact (signalFrame_modPort d p f hf).trans (.of_onlyTalk htalk)

end

/-! ### A lane enters a state (03 R57) -/

/-- A lane that enters a state: it has LANE_LOS but in UP, and out of UP neither ILF alignment nor an estimate. -/
def Lane.enters (x : Lane) (st : LaneSt) (t : Time) : Lane :=
  let los := st != .up
  { x with
    st := st, stTime := t, acq := t, los := los, losTime := if los == x.los then x.losTime else t
    anMismatch := false, rx := if los then { sourceId := x.rx.sourceId } else x.rx
    ilValid := if los then false else x.ilValid }

theorem laneTo_eq (l : Nat) (st : LaneSt) (t : Time) (d : Dev) :
    laneTo l st t d = lanePorts l t (if st = .up then d.modLane l fun x => x.enters st t
      else refreshWitness t (lanesSlotsLost l t (d.modLane l fun x => x.enters st t))) := rfl

/-- A lane's state is its own; the rest follows by its signal. -/
theorem signalFrame_laneTo (l : Nat) (st : LaneSt) (t : Time) (d : Dev) :
    SignalFrame anyPort (d.modLane l fun x => x.enters st t) (laneTo l st t d) := by
  rw [laneTo_eq]
  generalize d.modLane l (fun x => x.enters st t) = e
  exact .trans (.ite _ (.refl e) ((signalFrame_lanesSlotsLost l t e).trans (signalFrame_refreshWitness t _)))
    (signalFrame_lanePorts l t _)

theorem lane_laneTo_self (l : Nat) (st : LaneSt) (t : Time) (d : Dev) :
    (laneTo l st t d).lane l = (d.lane l).enters st t := by
  rw [(signalFrame_laneTo l st t d).lane, lane_modLane_self]

theorem lane_laneTo_ne {l k : Nat} (st : LaneSt) (t : Time) (d : Dev) (h : k ≠ l) :
    (laneTo l st t d).lane k = d.lane k := by
  rw [(signalFrame_laneTo l st t d).lane, lane_modLane_ne _ _ h]

theorem pd_laneTo (l : Nat) (st : LaneSt) (t : Time) (d : Dev) : (laneTo l st t d).fab.pd = d.fab.pd :=
  (signalFrame_laneTo l st t d).pd

theorem mps_laneTo (l : Nat) (st : LaneSt) (t : Time) (d : Dev) : (laneTo l st t d).fab.mps = d.fab.mps :=
  (signalFrame_laneTo l st t d).mps

end Sys2Proof.Machine
end

section
/-!
PROOFS. The lane state machine (03 R57, R75, R76).
-/
namespace Sys2Proof.Machine
open Safety

/-! ### The native Ethernet port of a lane, while its partner record is written (03 R57, R80) -/

theorem isSome_nativeEthOn (d : Dev) (l : Nat) : (nativeEthOn d l).isSome
    = d.fab.ports.any fun e => portHasLane e.2 l && isEth e.2.typ && e.2.lanes != 0 := by
  unfold nativeEthOn
  rw [Option.isSome_map, List.isSome_find?]

theorem isSome_nativeEthOn_setPartner (p item inst : Nat) (ws : List Word) (t : Time) (d : Dev) (l : Nat) :
    (nativeEthOn (setPartner p item inst ws t d) l).isSome = (nativeEthOn d l).isSome := by
  rcases setPartner_cases p item inst ws t d with h | ⟨f, hf, htalk⟩
  · rw [h]
  · rw [isSome_nativeEthOn, isSome_nativeEthOn, htalk.1]
    refine any_tupd d.fab.ports p f _ fun x => ?_
    obtain ⟨htyp, hfirst, hlanes, -⟩ : (f x).typ = x.typ ∧ (f x).first = x.first ∧ (f x).lanes = x.lanes ∧ _ := by
      simpa only [portMake, Prod.mk.injEq] using hf x
    simp only [portHasLane, htyp, hfirst, hlanes]

/-- The abilities and the result of auto-negotiation, taken up for a port (03 R80). -/
def recordAn (p : Nat) (r : AnResult) (t : Time) (d : Dev) : Dev :=
  setPartner p 1 2 [r.resolved] t (setPartner p 1 1 [r.fec] t (setPartner p 1 0 [r.tech] t d))

theorem signalFrame_recordAn (p : Nat) (r : AnResult) (t : Time) (d : Dev) : SignalFrame (onlyPort p) d (recordAn p r t d) :=
  ((signalFrame_setPartner ..).trans (signalFrame_setPartner ..)).trans (signalFrame_setPartner ..)

/-- The result of a lane's training, taken up for its native Ethernet port, if it has one (03 R76, R80). -/
def recordTraining (l : Nat) (r : Word) (t : Time) (d : Dev) : Dev :=
  match nativeEthOn d l with
  | some p => setPartner p 2 (l - (match d.port p with | some y => y.first | none => 0)) [r] t d
  | none => d

theorem signalFrame_recordTraining (l : Nat) (r : Word) (t : Time) (d : Dev) :
    SignalFrame anyPort d (recordTraining l r t d) := by
  unfold recordTraining
  split
  · exact (signalFrame_setPartner ..).any
  · exact .refl d

theorem afterAn_recordAn (p : Nat) (r : AnResult) (t : Time) (d : Dev) (l : Nat) :
    afterAn (recordAn p r t d) l = afterAn d l := by
  unfold afterAn
  rw [(signalFrame_recordAn p r t d).lane]
  unfold recordAn
  simp only [isSome_nativeEthOn_setPartner]

/-! ### A command by which a lane enters a state -/

/-- A command takes a lane to a state at once: LANE_LOS follows it, and the lane's configuration, the other lanes and
the tributaries that are no ODUs stay. -/
def EntersBy (l : Nat) (s : State) (c : Instr) (st : LaneSt) : Prop :=
  ∃ d, exec c s = .next (withDev s d) ∧ (d.lane l).st = st
    ∧ (d.lane l).stTime = s.clock.now ∧ (d.lane l).los = (st != .up) ∧ (d.lane l).cfg = (s.dev.lane l).cfg
    ∧ (∀ k, k ≠ l → d.lane k = s.dev.lane k)
    ∧ ∀ n y, s.dev.trib n = some y → isOdu y.typ = false → d.trib n = some y

/-- A lane's entry into a state, between effects of its signal. -/
theorem entersBy_of_laneTo {l : Nat} {s : State} {c : Instr} {st : LaneSt} {ps qs : Nat → Prop} {e d : Dev}
    (hc : exec c s = .next (withDev s d)) (he : SignalFrame ps s.dev e)
    (hd : SignalFrame qs (laneTo l st s.clock.now e) d) : EntersBy l s c st := by
  have hself : d.lane l = (s.dev.lane l).enters st s.clock.now := by rw [hd.lane, lane_laneTo_self, he.lane]
  refine ⟨d, hc, by rw [hself]; rfl, by rw [hself]; rfl, by rw [hself]; rfl, by rw [hself]; rfl, fun k hk => ?_,
    fun n y hy ho => ?_⟩
  · rw [hd.lane, lane_laneTo_ne _ _ _ hk, he.lane]
  · exact hd.trib n y ((signalFrame_laneTo l st _ e).trib n y (he.trib n y hy ho) ho) ho

section
variable {l : Nat} {s : State} (hs : FabOn s)
include hs

theorem cdrLock_enters (hst : (s.dev.lane l).st = .cdrAcq) (ht : (s.dev.lane l).acq + ms 1 ≤ s.clock.now) :
    EntersBy l s (.cdrLock l)
      (if (s.dev.lane l).cfg.an && (nativeEthOn s.dev l).isSome then .an else afterAn s.dev l) := by
  refine entersBy_of_laneTo ((run_gFab _ s hs).trans ?_) (.refl (ps := noPort) _) (.refl (ps := noPort) _)
  simp only [hst, ht, decide_true, Bool.and_true, if_true]

theorem cdrRetry_counts (hr : s.dev.aon.snowdrop = false) (hst : (s.dev.lane l).st = .cdrAcq)
    (ht : (s.dev.lane l).acq + ms 100 ≤ s.clock.now) :
    ∃ d, exec (.cdrRetry l) s = .next (withDev s d) ∧ d.lane l = { s.dev.lane l with acq := s.clock.now }
      ∧ tgetD d.fab.pm.run (laneKey l + 0x70) 0 = tgetD s.dev.fab.pm.run (laneKey l + 0x70) 0 + 1 := by
  refine ⟨addCnt (laneKey l) 0x70 1 (s.dev.modLane l fun y => { y with acq := s.clock.now }),
    (run_gFab _ s hs).trans ?_, ?_, ?_⟩
  · simp only [hst, ht, decide_true, Bool.and_true, if_true]
  · rw [(signalFrame_addCnt (ps := noPort) ..).lane, lane_modLane_self]
  · exact addCnt_self _ _ _ _ hr

theorem anComplete_eq (r : AnResult) (hst : (s.dev.lane l).st = .an) (hm : (s.dev.lane l).anMismatch = false) {p : Nat}
    {y : Port} (hp : nativeEthOn s.dev l = some p) (hy : s.dev.port p = some y) :
    exec (.anComplete l r) s = .next (withDev s (if r.typ = y.typ then
        laneTo l (afterAn (recordAn p r s.clock.now s.dev) l) s.clock.now (recordAn p r s.clock.now s.dev)
      else s.dev.modLane l fun y => { y with anMismatch := true, acq := s.clock.now })) := by
  refine (run_gFab _ s hs).trans ?_
  simp only [hst, hm, hp, hy, bne_self_eq_false, Bool.or_false, Bool.false_eq_true, if_false, beq_iff_eq, recordAn,
    eq_comm (a := y.typ)]

theorem anRestart_restarts (hst : (s.dev.lane l).st = .an) (hm : (s.dev.lane l).anMismatch = true)
    (ht : (s.dev.lane l).acq + sec 1 ≤ s.clock.now) : exec (.anRestart l) s
      = .next (withDev s (s.dev.modLane l fun y => { y with anMismatch := false, acq := s.clock.now })) := by
  refine (run_gFab _ s hs).trans ?_
  simp only [hst, hm, ht, decide_true, Bool.and_true, if_true]

theorem trainingComplete_enters (r : Word) (hst : (s.dev.lane l).st = .training) :
    EntersBy l s (.trainingComplete l r) .up := by
  refine entersBy_of_laneTo ((run_gFab _ s hs).trans ?_)
    (signalFrame_recordTraining l r s.clock.now s.dev) (.refl (ps := noPort) _)
  simp only [hst, bne_self_eq_false, Bool.false_eq_true, if_false]
  rfl

theorem trainFail_enters (hst : (s.dev.lane l).st = .training) : EntersBy l s (.trainFail l) .cdrAcq := by
  refine entersBy_of_laneTo ((run_gFab _ s hs).trans ?_) (.refl (ps := noPort) _)
    (signalFrame_addCnt (ps := noPort) (laneKey l) 0x71 1 _)
  simp only [hst, if_true]

theorem laneSignalLoss_enters (hst : (s.dev.lane l).st = .up) : EntersBy l s (.laneSignalLoss l) .cdrAcq := by
  refine entersBy_of_laneTo ((run_gFab _ s hs).trans ?_) (.refl (ps := noPort) _) (.refl (ps := noPort) _)
  simp only [hst, if_true]

end

/-- Settles O30: each command whose lane is in the state it asks for, by the entry it makes. -/
theorem laneStates : Obligations.LaneStates := by
  unfold Obligations.LaneStates
  intro l s hs x native trained goes
  refine ⟨cdrLock_enters hs.1, cdrRetry_counts hs.1 hs.2, ?_, anRestart_restarts hs.1,
    fun r => trainingComplete_enters hs.1 r, trainFail_enters hs.1, laneSignalLoss_enters hs.1⟩
  intro r hst hm p y hp hy
  have hexec := anComplete_eq hs.1 r hst hm hp hy
  refine ⟨fun htyp => ?_, fun htyp => ?_⟩
  · rw [if_pos htyp, afterAn_recordAn] at hexec
    exact entersBy_of_laneTo hexec (signalFrame_recordAn ..) (.refl (ps := noPort) _)
  · rw [if_neg htyp] at hexec
    exact hexec

end Sys2Proof.Machine
end

section
/-!
PROOFS. Lane groups, insertion loss, and the commands about owners, lanes and ports (03 R55-R63, R77; 14 R332; 16 R384).
-/
namespace Sys2Proof.Machine
open Safety

/-! ### The lanes of a group (03 R58; 14 R332) -/

section
variable {g : Nat} {f : Dev → Nat → Dev} {P : Lane → Lane → Prop}

/-- Steps that each change one lane of a group act on every lane as if alone. -/
theorem lane_foldl_group (hself : ∀ d j, P (d.lane (8 * g + j)) ((f d j).lane (8 * g + j)))
    (hne : ∀ d j k, k ≠ 8 * g + j → (f d j).lane k = d.lane k) (js : List Nat) (hjs : js.Nodup) (d : Dev) :
    (∀ j ∈ js, P (d.lane (8 * g + j)) ((js.foldl f d).lane (8 * g + j)))
      ∧ ∀ k, (∀ j ∈ js, k ≠ 8 * g + j) → (js.foldl f d).lane k = d.lane k := by
  induction js generalizing d with
  | nil => exact ⟨nofun, fun _ _ => rfl⟩
  | cons i js ih =>
    obtain ⟨hi, hjs⟩ := List.nodup_cons.1 hjs
    obtain ⟨hin, hout⟩ := ih hjs (f d i)
    refine ⟨fun j hj => ?_, fun k hk => ?_⟩
    · rw [List.foldl_cons]
      rcases List.mem_cons.1 hj with rfl | hj
      · rw [hout _ fun i hi' heq => hi (by rwa [Nat.add_left_cancel heq])]
        exact hself d j
      · have hji : j ≠ i := fun h => hi (h ▸ hj)
        rw [← hne d i (8 * g + j) (by omega)]
        exact hin j hj
    · rw [List.foldl_cons, hout k fun j hj => hk j (List.mem_cons_of_mem _ hj), hne d i k (hk i List.mem_cons_self)]

theorem lane_foldl_range8 (hself : ∀ d j, P (d.lane (8 * g + j)) ((f d j).lane (8 * g + j)))
    (hne : ∀ d j k, k ≠ 8 * g + j → (f d j).lane k = d.lane k) (d : Dev) :
    (∀ j < 8, P (d.lane (8 * g + j)) (((List.range 8).foldl f d).lane (8 * g + j)))
      ∧ ∀ k, k < 8 * g ∨ 8 * g + 8 ≤ k → ((List.range 8).foldl f d).lane k = d.lane k := by
  obtain ⟨hin, hout⟩ := lane_foldl_group hself hne (List.range 8) List.nodup_range d
  exact ⟨fun j hj => hin j (List.mem_range.2 hj), fun k hk => hout k fun j hj => by have := List.mem_range.1 hj; omega⟩

end

/-- A lane of a group that is powered down. -/
def downStep (g : Nat) (t : Time) (d : Dev) (j : Nat) : Dev :=
  if (d.lane (8 * g + j)).st = .down then d else laneTo (8 * g + j) .down t d

/-- A lane of a group that is powered: it acquires, if it is enabled. -/
def startStep (g : Nat) (t : Time) (d : Dev) (j : Nat) : Dev :=
  if (d.lane (8 * g + j)).cfg.enable && (d.lane (8 * g + j)).st = .down then laneTo (8 * g + j) .cdrAcq t d else d

theorem lane_downStep_self (g : Nat) (t : Time) (d : Dev) (j : Nat) :
    ((downStep g t d j).lane (8 * g + j)).st = .down := by
  unfold downStep
  split
  · assumption
  · rw [lane_laneTo_self]; rfl

theorem lane_downStep_ne (g : Nat) (t : Time) (d : Dev) (j k : Nat) (h : k ≠ 8 * g + j) :
    (downStep g t d j).lane k = d.lane k := by
  unfold downStep
  split
  · rfl
  · exact lane_laneTo_ne _ _ _ h

theorem pd_downStep (g : Nat) (t : Time) (d : Dev) (j : Nat) : (downStep g t d j).fab.pd = d.fab.pd := by
  unfold downStep
  split
  · rfl
  · exact pd_laneTo ..

theorem lane_startStep_self (g : Nat) (t : Time) (d : Dev) (j : Nat) :
    ((d.lane (8 * g + j)).cfg.enable = true → (d.lane (8 * g + j)).st = .down →
        ((startStep g t d j).lane (8 * g + j)).st = .cdrAcq)
      ∧ ((d.lane (8 * g + j)).cfg.enable = false → (startStep g t d j).lane (8 * g + j) = d.lane (8 * g + j)) := by
  unfold startStep
  refine ⟨fun he hd => ?_, fun he => ?_⟩
  · rw [if_pos (by simp [he, hd]), lane_laneTo_self]; rfl
  · rw [if_neg (by simp [he])]

theorem lane_startStep_ne (g : Nat) (t : Time) (d : Dev) (j k : Nat) (h : k ≠ 8 * g + j) :
    (startStep g t d j).lane k = d.lane k := by
  unfold startStep
  split
  · exact lane_laneTo_ne _ _ _ h
  · rfl

theorem pd_startStep (g : Nat) (t : Time) (d : Dev) (j : Nat) : (startStep g t d j).fab.pd = d.fab.pd := by
  unfold startStep
  split
  · exact pd_laneTo ..
  · rfl

theorem laneGroupPowerDown_eq {g : Nat} {s : State} (hs : FwRuns s) (ht : s.clock.now % (8 * frame) = 0) (hg : g < 16)
    (hst : (tgetD s.dev.fab.pd.groups g {}).st = .idle) (hb : groupBusy s.dev g = false)
    (hf : tgetD s.dev.fab.pd.freed g 0 + sec 1 ≤ s.clock.now) : exec (.laneGroupPowerDown g) s
      = .next (withDev s ((List.range 8).foldl (downStep g s.clock.now)
          (s.dev.onPd fun p => { p with groups := tput p.groups g ⟨.off, s.clock.now⟩ }))) := by
  refine (run_gFw _ s hs).trans ?_
  simp only [(isOctet_iff _).2 ht, hg, hst, hb, hf, decide_true, Bool.not_false, Bool.and_self, if_true]
  rfl

theorem laneGroupPowerUp_eq {g : Nat} {s : State} (hs : FabOn s) (hg : g < 16)
    (hst : (tgetD s.dev.fab.pd.groups g {}).st = .waking)
    (ht : (tgetD s.dev.fab.pd.groups g {}).since + 8 * frame ≤ s.clock.now) : exec (.laneGroupPowerUp g) s
      = .next (withDev s ((List.range 8).foldl (startStep g s.clock.now) (groupUp g s.clock.now s.dev))) := by
  refine (run_gFab _ s hs).trans ?_
  simp only [hg, hst, ht, decide_true, Bool.and_self, if_true]
  rfl

theorem laneGroupPowerDown_off {g : Nat} {s : State} (hs : FwRuns s) (ht : s.clock.now % (8 * frame) = 0) (hg : g < 16)
    (hst : (tgetD s.dev.fab.pd.groups g {}).st = .idle) (hb : groupBusy s.dev g = false)
    (hf : tgetD s.dev.fab.pd.freed g 0 + sec 1 ≤ s.clock.now) :
    ∃ d, exec (.laneGroupPowerDown g) s = .next (withDev s d) ∧ tgetD d.fab.pd.groups g {} = ⟨.off, s.clock.now⟩
      ∧ (∀ j < 8, (d.lane (8 * g + j)).st = .down)
      ∧ ∀ k, k < 8 * g ∨ 8 * g + 8 ≤ k → d.lane k = s.dev.lane k := by
  obtain ⟨hin, hout⟩ := lane_foldl_range8 (P := fun _ y => y.st = .down) (lane_downStep_self g s.clock.now)
    (lane_downStep_ne g s.clock.now) (s.dev.onPd fun p => { p with groups := tput p.groups g ⟨.off, s.clock.now⟩ })
  refine ⟨_, laneGroupPowerDown_eq hs ht hg hst hb hf, ?_, hin, hout⟩
  rw [foldl_keeps (fun d : Dev => d.fab.pd) _ (pd_downStep g s.clock.now)]
  exact tgetD_tput_self ..

theorem laneGroupPowerUp_on {g : Nat} {s : State} (hs : FabOn s) (hg : g < 16)
    (hst : (tgetD s.dev.fab.pd.groups g {}).st = .waking)
    (ht : (tgetD s.dev.fab.pd.groups g {}).since + 8 * frame ≤ s.clock.now) :
    ∃ d, exec (.laneGroupPowerUp g) s = .next (withDev s d)
      ∧ tgetD d.fab.pd.groups g {} = ⟨if groupBusy s.dev g then .on else .idle, s.clock.now⟩
      ∧ (∀ j < 8, (s.dev.lane (8 * g + j)).cfg.enable = true → (s.dev.lane (8 * g + j)).st = .down →
          (d.lane (8 * g + j)).st = .cdrAcq)
      ∧ ∀ j < 8, (s.dev.lane (8 * g + j)).cfg.enable = false → d.lane (8 * g + j) = s.dev.lane (8 * g + j) := by
  obtain ⟨hin, -⟩ := lane_foldl_range8
    (P := fun x y => (x.cfg.enable = true → x.st = .down → y.st = .cdrAcq) ∧ (x.cfg.enable = false → y = x))
    (lane_startStep_self g s.clock.now) (lane_startStep_ne g s.clock.now) (groupUp g s.clock.now s.dev)
  refine ⟨_, laneGroupPowerUp_eq hs hg hst ht, ?_, fun j hj => (hin j hj).1, fun j hj => (hin j hj).2⟩
  rw [foldl_keeps (fun d : Dev => d.fab.pd) _ (pd_startStep g s.clock.now)]
  exact tgetD_tput_self ..

/-! ### Insertion loss (03 R77) -/

/-- A lane with the estimate of a gate end: outside 5.0 to 40.0 dB the value saturates. -/
def Lane.estimated (x : Lane) (il : Nat) (t : Time) : Lane :=
  { x with ilValid := true, ilRange := decide (il < 50) || decide (400 < il), il := min (max il 50) 400, ilTime := t }

/-- A sample is taken up by its lane, if that is in UP. -/
def ilStep (t : Time) (d : Dev) (x : IlSample) : Dev :=
  if (d.lane x.lane).st = .up then d.modLane x.lane fun y => y.estimated x.il t else d

theorem lane_ilStep_ne {t : Time} {d : Dev} {x : IlSample} {k : Nat} (h : x.lane ≠ k) :
    (ilStep t d x).lane k = d.lane k := by
  unfold ilStep
  split
  · exact lane_modLane_ne _ _ (Ne.symm h)
  · rfl

/-- A sample leaves of every lane what no estimate changes. -/
theorem lane_ilStep_keeps {α : Type} (p : Lane → α) (hp : ∀ x il t, p (Lane.estimated x il t) = p x) (t : Time) (d : Dev)
    (x : IlSample) (k : Nat) : p ((ilStep t d x).lane k) = p (d.lane k) := by
  by_cases hk : x.lane = k
  · subst hk
    unfold ilStep
    split
    · rw [lane_modLane_self, hp]
    · rfl
  · rw [lane_ilStep_ne hk]

theorem aon_ilStep (t : Time) (d : Dev) (x : IlSample) : (ilStep t d x).aon = d.aon := by
  unfold ilStep; split <;> rfl

theorem lane_foldl_ilStep_ne (t : Time) (l : List IlSample) (d : Dev) (k : Nat) (h : ∀ y ∈ l, y.lane ≠ k) :
    (l.foldl (ilStep t) d).lane k = d.lane k := by
  induction l generalizing d with
  | nil => rfl
  | cons x l ih =>
    rw [List.foldl_cons, ih _ fun y hy => h y (List.mem_cons_of_mem _ hy), lane_ilStep_ne (h x List.mem_cons_self)]

/-- The last sample of a lane in UP is its estimate. -/
theorem lane_foldl_ilStep_last (t : Time) (l : List IlSample) (x : IlSample) (d : Dev) (hup : (d.lane x.lane).st = .up) :
    ((l ++ [x]).foldl (ilStep t) d).lane x.lane = (d.lane x.lane).estimated x.il t := by
  have hst : ((l.foldl (ilStep t) d).lane x.lane).st = (d.lane x.lane).st :=
    foldl_keeps (fun d : Dev => (d.lane x.lane).st) _ (fun d y => lane_ilStep_keeps Lane.st (fun _ _ _ => rfl) t d y _) l d
  have hover : ((l.foldl (ilStep t) d).lane x.lane).estimated x.il t = (d.lane x.lane).estimated x.il t :=
    foldl_keeps (fun d : Dev => (d.lane x.lane).estimated x.il t) _
      (fun d y => lane_ilStep_keeps (fun z => z.estimated x.il t) (fun _ _ _ => rfl) t d y _) l d
  rw [List.foldl_append, List.foldl_cons, List.foldl_nil, ilStep, if_pos (hst.trans hup), lane_modLane_self, hover]

theorem ilEstimateRefresh_eq {s : State} (hs : FabOn s) (ht : eOf s.clock.now % 8000 = 0) (l : List IlSample) :
    exec (.ilEstimateRefresh l) s = .next (withDev s (l.foldl (ilStep s.clock.now) s.dev)) := by
  refine (run_gFab _ s hs).trans ?_
  simp only [show atFrame 8000 s.clock.now = true from beq_iff_eq.2 ht, Bool.not_true, Bool.false_eq_true, if_false]
  rfl

/-! ### LANE_CONFIG (03 R55-R57, R79) -/

/-- A lane takes its configuration, and may enter a state with it. -/
theorem applyLane_cases (l : Nat) (c : LaneCfg) (t : Time) (d : Dev) :
    applyLane l c t d = d.modLane l (fun x => { x with cfg := c })
      ∨ ∃ st, applyLane l c t d = laneTo l st t (d.modLane l fun x => { x with cfg := c }) := by
  unfold applyLane
  dsimp only
  split
  · split
    · exact .inl rfl
    · exact .inr ⟨_, rfl⟩
  · split
    · exact .inl rfl
    · split
      · exact .inr ⟨_, rfl⟩
      · exact .inl rfl

theorem lane_applyLane_cfg (l : Nat) (c : LaneCfg) (t : Time) (d : Dev) : ((applyLane l c t d).lane l).cfg = c := by
  rcases applyLane_cases l c t d with h | ⟨st, h⟩
  · rw [h, lane_modLane_self]
  · rw [h, lane_laneTo_self, lane_modLane_self]; rfl

theorem lane_applyLane_ne {l j : Nat} (c : LaneCfg) (t : Time) (d : Dev) (hj : j ≠ l) :
    (applyLane l c t d).lane j = d.lane j := by
  rcases applyLane_cases l c t d with h | ⟨st, h⟩
  · rw [h, lane_modLane_ne _ _ hj]
  · rw [h, lane_laneTo_ne _ _ _ hj, lane_modLane_ne _ _ hj]

theorem mps_applyLane (l : Nat) (c : LaneCfg) (t : Time) (d : Dev) : (applyLane l c t d).fab.mps = d.fab.mps := by
  rcases applyLane_cases l c t d with h | ⟨st, h⟩
  · rw [h]; rfl
  · rw [h, mps_laneTo]; rfl

theorem lane_applyLane_disabled {l : Nat} {c : LaneCfg} (t : Time) (d : Dev) (he : c.enable = false) :
    ((applyLane l c t d).lane l).st = .down := by
  unfold applyLane
  dsimp only
  rw [he, if_pos Bool.not_false]
  split
  · assumption
  · rw [lane_laneTo_self]; rfl

theorem lane_applyLane_acquires {l : Nat} {c : LaneCfg} (t : Time) (d : Dev) (he : c.enable = true)
    (hg : groupOn d (lgOfLane l) = true) (hc : (d.lane l).st = .down ∨ (d.lane l).cfg.rate ≠ c.rate) :
    ((applyLane l c t d).lane l).st = .cdrAcq := by
  have hon : groupOn (d.modLane l fun x => { x with cfg := c }) (lgOfLane l) = true := hg
  unfold applyLane
  dsimp only
  rw [he, if_neg (by decide), hon, if_neg (by decide), if_pos, lane_laneTo_self]
  · rfl
  · rw [lane_modLane_self]
    rcases hc with hc | hc <;> simp [hc]

/-- The device once the module-power inputs of a lane's group have their scale and threshold (03 R79). -/
def takeMps (c : Change) (d : Dev) : Dev :=
  let mp := fun m : MpIn => { m with scale := fld (c.w 7) 31 16, threshold := fld (c.w 7) 15 0 }
  d.onFab fun f => { f with
    mps := tmod (tmod f.mps (2 * lgOfLane (laneOfWord (c.w 4))) {} mp) (2 * lgOfLane (laneOfWord (c.w 4)) + 1) {} mp }

theorem laneConfig_apply (c : Change) (p : Part) (t : Time) (d : Dev) : cmdLaneConfig.apply c p t d
    = applyLane (laneOfWord (c.w 4)) (laneCfgOf (c.w 5) (c.w 6)) t (takeMps c d) := rfl

theorem mps_takeMps (c : Change) (d : Dev) (i : Nat) (hi : i < 2) :
    (tgetD (takeMps c d).fab.mps (2 * lgOfLane (laneOfWord (c.w 4)) + i) {}).scale = fld (c.w 7) 31 16
      ∧ (tgetD (takeMps c d).fab.mps (2 * lgOfLane (laneOfWord (c.w 4)) + i) {}).threshold = fld (c.w 7) 15 0 := by
  unfold takeMps
  obtain rfl | rfl : i = 0 ∨ i = 1 := by omega
  · rw [onFab_fab, tgetD_tmod_ne _ _ _ _ (by omega), Nat.add_zero, tgetD_tmod_self]
    exact ⟨rfl, rfl⟩
  · rw [onFab_fab, tgetD_tmod_self]
    exact ⟨rfl, rfl⟩

theorem carries_laneConfig {P : Change → Prop} (hP : ∀ c, P c) : Carries .laneConfig cmdLaneConfig.ahead P :=
  carries_of_effect _ _ P (fun _ _ => rfl) rfl (by decide) (by decide) (fun _ _ => rfl) hP

/-! ### PORT_CREATE and PORT_DELETE (03 R58, R62) -/

/-- The device once a new port stands, with its group powered or woken for it. -/
def placePort (p : Nat) (x : Port) (t : Time) (d : Dev) : Dev :=
  let g := lgOfLane x.first
  let st := (tgetD d.fab.pd.groups g {}).st
  (d.onPd fun q => { q with groups := tput q.groups g ⟨if st = .off then .waking else if st = .idle then .on else st,
    if st = .off then t else (tgetD q.groups g {}).since⟩ }).onFab
    fun f => { f with ports := tput f.ports p { x with rxF := ⟨0, t, t⟩, txF := ⟨0, t, t⟩ } }

theorem signalFrame_suspectBins {ps : Nat → Prop} (ks : List Nat) (d : Dev) : SignalFrame ps d (suspectBins ks d) := .of_fab rfl

/-- The device once a new port's layers are new, and its bins suspect (10 R242, R250). -/
def newLayers (ks : List Nat) (d : Dev) : Dev :=
  suspectBins ks (ks.foldl (fun d k => d.onFab fun f => { f with layers := tput f.layers k {} }) d)

theorem signalFrame_newLayers {ps : Nat → Prop} (ks : List Nat) (d : Dev) : SignalFrame ps d (newLayers ks d) := by
  refine .trans (.foldl _ (fun d k => ?_) ks d) (signalFrame_suspectBins ks _)
  exact .of_fab rfl

theorem newPort_eq (p : Nat) (x : Port) (t : Time) (d : Dev) : newPort p x t d = refreshLos p t
    (if isSdh x.typ || isOtn x.typ then portOof p t (newLayers (portLayers x.typ p) (placePort p x t d))
      else newLayers (portLayers x.typ p) (placePort p x t d)) := rfl

/-- What follows a port's placing are its layers, its bins and its framer. -/
theorem signalFrame_newPort (p : Nat) (x : Port) (t : Time) (d : Dev) :
    SignalFrame (onlyPort p) (placePort p x t d) (newPort p x t d) := by
  have hlayers := signalFrame_newLayers (ps := onlyPort p) (portLayers x.typ p) (placePort p x t d)
  rw [newPort_eq]
  exact (SignalFrame.ite _ (hlayers.trans (signalFrame_portOof p t _)) hlayers).trans (signalFrame_refreshLos p t _)

theorem port_newPort_self (p : Nat) (x : Port) (t : Time) (d : Dev) :
    ∃ y, (newPort p x t d).port p = some y ∧ portMake y = portMake x := by
  have hmade := (signalFrame_newPort p x t d).made p
  have hplaced : (placePort p x t d).port p = some { x with rxF := ⟨0, t, t⟩, txF := ⟨0, t, t⟩ } := tget_tput_self ..
  rw [hplaced] at hmade
  exact Option.map_eq_some_iff.1 hmade

theorem port_newPort_ne {p q : Nat} (x : Port) (t : Time) (d : Dev) (h : q ≠ p) :
    (newPort p x t d).port q = d.port q :=
  ((signalFrame_newPort p x t d).port q h).trans (tget_tput_ne _ _ h)

/-- A new port wakes a group that is off (03 R58). -/
theorem groups_newPort_off {x : Port} {d : Dev} (p : Nat) (t : Time)
    (h : (tgetD d.fab.pd.groups (lgOfLane x.first) {}).st = .off) :
    tgetD (newPort p x t d).fab.pd.groups (lgOfLane x.first) {} = ⟨.waking, t⟩ := by
  rw [(signalFrame_newPort p x t d).pd]
  refine (tgetD_tput_self ..).trans ?_
  rw [if_pos h, if_pos h]

/-- The port that a PORT_CREATE describes. -/
def createdPort (c : Change) (t : Time) : Port :=
  let r := portReq c.w
  { typ := r.typ, first := r.first, lanes := r.lanes, mask := r.mask, phys := r.phys, owner := c.sender, created := t
    rxF := { start := t }, txF := { start := t }
    sdh := { aug := List.replicate (stmN r.typ) 0, augTx := List.replicate (stmN r.typ) 0, augTime := t } }

theorem portCreate_apply (c : Change) (p : Part) (t : Time) (d : Dev) :
    cmdPortCreate.apply c p t d = newPort (portReq c.w).p (createdPort c t) t d := rfl

theorem carries_portCreate {P : Change → Prop} (hP : ∀ c, P c) : Carries .portCreate cmdPortCreate.ahead P :=
  carries_of_effect _ _ P (fun _ _ => rfl) rfl (by decide) (by decide) (fun _ _ => rfl) hP

theorem ports_dropPort (p : Nat) (t : Time) (d : Dev) :
    (dropPort p t d).fab.ports = if (d.port p).isSome then tdel d.fab.ports p else d.fab.ports := by
  unfold dropPort
  split
  · rename_i h; rw [h]; rfl
  · rename_i x h
    rw [h, Option.isSome_some, if_pos rfl]
    dsimp only
    split <;> rfl

theorem port_dropPort_self (p : Nat) (t : Time) (d : Dev) : (dropPort p t d).port p = none := by
  unfold Dev.port
  rw [ports_dropPort]
  split
  · exact tget_tdel_self ..
  · rename_i h; exact Option.not_isSome_iff_eq_none.1 h

theorem port_dropPort_ne {p q : Nat} (t : Time) (d : Dev) (h : q ≠ p) : (dropPort p t d).port q = d.port q := by
  unfold Dev.port
  rw [ports_dropPort]
  split
  · exact tget_tdel_ne _ h
  · rfl

theorem carries_portDelete {P : Change → Prop} (hP : ∀ c, P c) : Carries .portDelete cmdPortDelete.ahead P :=
  carries_of_effect _ _ P (fun _ _ => rfl) rfl (by decide) (by decide) (fun _ _ => rfl) hP

/-! ### OWNER_SET (16 R384) -/

/-- Tributaries given to an owner: those of a list, and no other. -/
theorem trib_foldl_owner (m : Nat) (ts : List Nat) (d : Dev) (n : Nat) :
    (ts.foldl (fun d t => d.modTrib t fun x => { x with owner := m }) d).trib n
      = (d.trib n).map fun y => if n ∈ ts then { y with owner := m } else y := by
  induction ts generalizing d with
  | nil => simp
  | cons t ts ih =>
    rw [List.foldl_cons, ih, trib_modTrib]
    by_cases hn : n = t
    · subst hn
      rw [if_pos rfl, Option.map_map]
      congr 1
      funext y
      by_cases hin : n ∈ ts <;> simp [hin]
    · simp [hn]

/-- An object of a class given to an owner, a tributary with all it carries. -/
def giveOwner (cls o m : Nat) (d : Dev) : Dev :=
  match cls with
  | 1 => d.modLane o fun l => { l with owner := m }
  | 2 => d.modPort (portOfWord o) fun p => { p with owner := m }
  | 3 => (familyOf d o).foldl (fun d t => d.modTrib t fun x => { x with owner := m }) d
  | _ => d.modPg o fun g => { g with owner := m }

theorem ownerSet_apply (c : Change) (p : Part) (t : Time) (d : Dev) : cmdOwnerSet.apply c p t d
    = giveOwner (fld (c.w 4) 31 24) (fld (c.w 4) 16 0) (fld (c.w 5) 4 0) d := rfl

theorem carries_ownerSet {P : Change → Prop} (hP : ∀ c, P c) : Carries .ownerSet cmdOwnerSet.ahead P :=
  carries_of_effect _ _ P (fun _ _ => rfl) rfl (by decide) (by decide) (fun _ _ => rfl) hP

/-- The object that an OWNER_SET names belongs to its new owner, by its class. -/
theorem ownerSet_effect (c : Change) (t : Time) (d : Dev) :
    let o := fld (c.w 4) 16 0
    let m := fld (c.w 5) 4 0
    let d' := cmdOwnerSet.apply c .octet t d
    (fld (c.w 4) 31 24 = 1 → d'.lane o = { d.lane o with owner := m })
    ∧ (∀ y, fld (c.w 4) 31 24 = 2 → d.port (portOfWord o) = some y → d'.port (portOfWord o) = some { y with owner := m })
    ∧ (∀ n y, fld (c.w 4) 31 24 = 3 → d.trib n = some y →
        d'.trib n = some (if n ∈ familyOf d o then { y with owner := m } else y))
    ∧ (∀ y, fld (c.w 4) 31 24 = 4 → d.pg o = some y → d'.pg o = some { y with owner := m }) := by
  intro o m d'
  have hd : d' = _ := ownerSet_apply c .octet t d
  refine ⟨fun h => ?_, fun y h hy => ?_, fun n y h hy => ?_, fun y h hy => ?_⟩ <;> rw [hd, h]
  · exact lane_modLane_self ..
  · exact (port_modPort ..).trans (by rw [if_pos rfl, hy]; rfl)
  · exact (trib_foldl_owner ..).trans (by rw [hy]; rfl)
  · exact (pg_modPg ..).trans (by rw [if_pos rfl, hy]; rfl)

/-- Settles O31: the groups by their eight lanes, the estimates by the last sample of a lane, and each command by the
effect of its change. -/
theorem laneGroups : Obligations.LaneGroups := by
  unfold Obligations.LaneGroups
  refine fun g s => ⟨laneGroupPowerDown_off, fun hs => laneGroupPowerUp_on hs.1, fun l x hs ht hup => ?_, ?_, ?_, ?_, ?_⟩
  · exact ⟨_, ilEstimateRefresh_eq hs.1 ht _, lane_foldl_ilStep_last _ l x s.dev hup,
      fun k hk => lane_foldl_ilStep_ne _ _ s.dev k hk, foldl_keeps Dev.aon _ (aon_ilStep _) _ s.dev⟩
  · refine carries_laneConfig fun c t d => ?_
    rw [laneConfig_apply]
    refine ⟨lane_applyLane_cfg .., fun j hj => lane_applyLane_ne _ t (takeMps c d) hj,
      fun he => lane_applyLane_disabled t _ he, fun he hg hc => lane_applyLane_acquires t (takeMps c d) he hg hc,
      fun i hi => ?_⟩
    rw [mps_applyLane]
    exact mps_takeMps c d i hi
  · refine carries_portCreate fun c t d => ?_
    obtain ⟨y, hy, hmade⟩ := port_newPort_self (portReq c.w).p (createdPort c t) t d
    refine ⟨⟨y, hy, ?_⟩, fun q hq => port_newPort_ne (createdPort c t) t d hq,
      fun h => groups_newPort_off (x := createdPort c t) _ t h⟩
    simpa only [portMake, createdPort, Prod.mk.injEq] using hmade
  · exact carries_portDelete fun c t d => ⟨port_dropPort_self .., fun q hq => port_dropPort_ne t d hq⟩
  · exact carries_ownerSet fun c t d => ownerSet_effect c t d

end Sys2Proof.Machine
end

section
/-!
PROOFS. The interleaved lane format: data positions, the receiver's periods and the transmitted marker block (03 R64-R74).
-/
namespace Sys2Proof.Machine
open Safety

/-! ### Data positions (03 R69) -/

/-- A position carries data where the count of data up to it rises by one. -/
theorem ilfData_step {cm total j : Nat} (ht : 0 < total) (hc : cm ≤ total) :
    (j + 1) * cm / total = j * cm / total + b2n (ilfData cm total (j + 1)) := by
  have hsplit := Nat.div_add_mod (j * cm) total
  have hrem := Nat.mod_lt (j * cm) ht
  have hsum : (j + 1) * cm = total * (j * cm / total) + (j * cm % total + cm) := by rw [Nat.succ_mul]; omega
  rw [ilfData, hsum, Nat.mul_add_div ht, Nat.mul_add_mod]
  by_cases hlt : j * cm % total + cm < total
  · rw [Nat.div_eq_of_lt hlt, Nat.mod_eq_of_lt hlt, decide_eq_false (by omega), b2n, if_neg Bool.false_ne_true]
  · have hdiv : (j * cm % total + cm) / total = 1 := by
      rw [Nat.div_eq_iff ht]; omega
    have hmod : (j * cm % total + cm) % total < cm := by
      have := Nat.div_add_mod (j * cm % total + cm) total
      rw [hdiv] at this; omega
    rw [hdiv, decide_eq_true hmod, b2n, if_pos rfl]

/-- Words spread from a position on come back, if there are as many as the count of data rises by. -/
theorem filterMap_ilfSpread {cm total : Nat} (ht : 0 < total) (hc : cm ≤ total) (n j : Nat) (ws : List Word)
    (hl : j * cm / total + ws.length = (j + n) * cm / total) :
    ((ilfSpread cm total n (j + 1) ws).zipIdx (j + 1)).filterMap
      (fun e => if ilfData cm total e.2 then some e.1 else none) = ws := by
  induction n generalizing j ws with
  | zero =>
    have hnil : ws = [] := List.eq_nil_of_length_eq_zero (by simpa using hl)
    rw [hnil]; rfl
  | succ n ih =>
    have hstep := ilfData_step (j := j) ht hc
    have hn : j + (n + 1) = j + 1 + n := by omega
    rw [hn] at hl
    have hmono : (j + 1) * cm / total ≤ (j + 1 + n) * cm / total :=
      Nat.div_le_div_right (Nat.mul_le_mul_right _ (by omega))
    unfold ilfSpread
    cases hd : ilfData cm total (j + 1)
    · rw [hd, b2n, if_neg Bool.false_ne_true] at hstep
      simpa [hd] using ih (j + 1) ws (by omega)
    · rw [hd, b2n, if_pos rfl] at hstep
      cases ws with
      | nil => simp only [List.length_nil] at hl; omega
      | cons w ws =>
        rw [List.length_cons] at hl
        simpa [hd] using ih (j + 1) ws (by omega)

/-- What a sub-port sends comes back at every count (03 R69). -/
theorem takeData_ilfSpread {cm total : Nat} (sent : List Word) (ht : 0 < total) (hc : cm ≤ total)
    (hl : sent.length = cm) : takeData cm total (ilfSpread cm total total 1 sent) = sent :=
  filterMap_ilfSpread ht hc total 0 sent (by simp [hl, Nat.mul_div_cancel_left _ ht])

/-! ### Control blocks in a period (03 R64) -/

theorem periodWords_getElem (mk : IlfMarker) (ctl : List Nat) (i : Nat) (h : i < (periodWords mk ctl).length) :
    (periodWords mk ctl)[i] = if ctl.contains ((i + 16) / 2) then (0, true)
      else (mk.payload[i]'(by simpa [periodWords] using h), false) := by
  simp [periodWords]

theorem mem_periodWords_zipIdx (mk : IlfMarker) (b : Nat) :
    ∀ e ∈ (mk.payload.zip (periodWords mk [b])).zipIdx,
      e.1.2 = if (e.2 + 16) / 2 = b then (0, true) else (e.1.1, false) := by
  intro e he
  obtain ⟨-, hi, he⟩ := List.mem_zipIdx he
  rw [he, List.getElem_zip, periodWords_getElem]
  simp

/-! ### Poisoned words (01 R19, R23) -/

theorem lwPoison_lw_true (tag : Nat) (w : Word) : lwPoison (lw tag w true) = true := by
  have hw := w.isLt
  unfold lwPoison lw lwSeal
  rw [BitVec.getLsbD_ofNat, BitVec.toNat_ofNat, Nat.testBit_eq_decide_div_mod_eq, b2n, if_pos rfl]
  generalize popCount 39 _ = n
  simp only [Nat.reduceLT, decide_true, Bool.true_and, decide_eq_true_eq]
  split <;> omega

/-- A period delivered as bad has no good word. -/
theorem poison_ilfDeliver (d : Dev) (l : Nat) (r : IlfRx) (pay : List (Word × Bool)) (bad : List Nat) :
    ∀ o ∈ ilfDeliver d l r pay bad true, ∀ w ∈ o.2, lwPoison w = true := by
  intro o ho w hw
  unfold ilfDeliver at ho
  obtain ⟨e, -, he⟩ := List.mem_filterMap.1 ho
  dsimp only at he
  split at he
  · cases he
  · cases he
    obtain ⟨v, -, rfl⟩ := List.mem_map.1 hw
    rw [Bool.or_true, Bool.true_or]
    exact lwPoison_lw_true _ _

/-! ### The receiver's periods (03 R71-R74) -/

/-- Of the lanes only the receiver of one lane changes, and a property holds of it. -/
def RxOnly (l : Nat) (d d' : Dev) (P : IlfRx → Prop) : Prop :=
  P (d'.lane l).rx ∧ (d'.lane l).st = (d.lane l).st ∧ ∀ k, k ≠ l → d'.lane k = d.lane k

theorem RxOnly.imp {l : Nat} {d d' : Dev} {P Q : IlfRx → Prop} (h : RxOnly l d d' P) (hPQ : ∀ y, P y → Q y) :
    RxOnly l d d' Q := ⟨hPQ _ h.1, h.2⟩

/-- A receiver changes between effects of its lane's signal. -/
theorem rxOnly_of_modLane {l : Nat} {d e d' : Dev} {ps qs : Nat → Prop} {P : IlfRx → Prop} (f : IlfRx → IlfRx)
    (he : SignalFrame ps d e) (hd : SignalFrame qs (e.modLane l fun x => { x with rx := f x.rx }) d')
    (hP : P (f (d.lane l).rx)) : RxOnly l d d' P := by
  have hself : d'.lane l = { d.lane l with rx := f (d.lane l).rx } := by rw [hd.lane, lane_modLane_self, he.lane]
  refine ⟨by rw [hself]; exact hP, by rw [hself], fun k hk => ?_⟩
  rw [hd.lane, lane_modLane_ne _ _ hk, he.lane]

/-- A receiver back in HUNT. -/
def IlfRx.hunts (loa : Bool) (r : IlfRx) : IlfRx :=
  { r with st := .hunt, valid := 0, crcRun := 0, absent := 0, loa := r.loa || loa, out := [], ctlAt := [] }

theorem signalFrame_ilfHunt (l : Nat) (loa : Bool) (t : Time) (d : Dev) :
    SignalFrame anyPort (d.modLane l fun x => { x with rx := x.rx.hunts loa }) (ilfHunt l loa t d) :=
  signalFrame_lanePorts l t _

theorem rxOnly_ilfHunt (l : Nat) (loa : Bool) (t : Time) (d : Dev) : RxOnly l d (ilfHunt l loa t d) fun y =>
    y.st = .hunt ∧ y.loa = ((d.lane l).rx.loa || loa) ∧ y.out = [] :=
  rxOnly_of_modLane (IlfRx.hunts loa) (.refl (ps := noPort) d) (signalFrame_ilfHunt ..) ⟨rfl, rfl, rfl⟩

/-- A good period: the receiver's new state, its counts, and the source of its sub-ports taken up. -/
theorem ilfGood_cases (l : Nat) (ws : List Word) (pay : List (Word × Bool)) (t : Time) (d : Dev) :
    ∃ y n m, ilfGood l ws pay t d = lanePorts l t ((ilfPorts (addCnt (laneKey l) 0x61 m (addCnt (laneKey l) 0x69 n
        (d.modLane l fun x => { x with rx := y }))) l).foldl
          (fun d e => setPartner e.1 3 0 [wd (BitVec.ofNat 8 (fld (ws.getD 2 0) 23 16)).toNat] t d)
        (addCnt (laneKey l) 0x61 m (addCnt (laneKey l) 0x69 n (d.modLane l fun x => { x with rx := y }))))
      ∧ y.st = .sync ∧ y.loa = false ∧ y.absent = 0 ∧ y.map = ilfMap ws
      ∧ y.sourceId = BitVec.ofNat 8 (fld (ws.getD 2 0) 23 16) :=
  ⟨_, _, _, rfl, rfl, rfl, rfl, rfl, rfl⟩

theorem rxOnly_ilfGood (l : Nat) (ws : List Word) (pay : List (Word × Bool)) (t : Time) (d : Dev) :
    RxOnly l d (ilfGood l ws pay t d) fun y => y.st = .sync ∧ y.loa = false ∧ y.absent = 0 ∧ y.map = ilfMap ws
      ∧ y.sourceId = BitVec.ofNat 8 (fld (ws.getD 2 0) 23 16) := by
  obtain ⟨y, n, m, hgood, hy⟩ := ilfGood_cases l ws pay t d
  rw [hgood]
  refine rxOnly_of_modLane (fun _ => y) (.refl (ps := noPort) d) (SignalFrame.trans ?_ (signalFrame_lanePorts l t _)) hy
  refine .trans ?_ (.foldl _ (fun d e => (signalFrame_setPartner ..).any) _ _)
  exact (signalFrame_addCnt ..).trans (signalFrame_addCnt ..)

theorem rxOnly_ilfBad (l absent : Nat) (pay : List (Word × Bool)) (d : Dev) : RxOnly l d (ilfBad l absent pay d) fun y =>
    y.st = (d.lane l).rx.st ∧ y.absent = absent ∧ y.map = (d.lane l).rx.map ∧ y.cm = (d.lane l).rx.cm
      ∧ ∀ o ∈ y.out, ∀ w ∈ o.2, lwPoison w = true := by
  unfold ilfBad
  exact rxOnly_of_modLane (fun _ => _) (.refl (ps := noPort) d) ((signalFrame_addCnt (ps := noPort) ..).trans (signalFrame_addCnt ..))
    ⟨rfl, rfl, rfl, rfl, poison_ilfDeliver d l _ pay []⟩

/-- A period in PRESYNC (03 R71). -/
def presyncPeriod (l : Nat) (ws : List Word) (pay : List (Word × Bool)) (t : Time) (d : Dev) : Dev :=
  let r := { (d.lane l).rx with ctlAt := [] }
  if !ilfAligned ws then ilfHunt l false t d
  else if ilfCrcOk ws then
    if r.valid = 1 then ilfGood l ws pay t d
    else d.modLane l fun x => { x with rx := { r with valid := 1, crcRun := 0 } }
  else if r.crcRun = 3 then ilfHunt l false t (addCnt (laneKey l) 0x60 1 d)
  else (addCnt (laneKey l) 0x60 1 d).modLane l fun x => { x with rx := { r with valid := 0, crcRun := r.crcRun + 1 } }

/-- A period in SYNC (03 R71-R73). -/
def syncPeriod (l : Nat) (ws : List Word) (pay : List (Word × Bool)) (t : Time) (d : Dev) : Dev :=
  if !ilfAligned ws then
    if (d.lane l).rx.absent = 3 then ilfHunt l true t d else ilfBad l ((d.lane l).rx.absent + 1) pay d
  else if ilfCrcOk ws then ilfGood l ws pay t d
  else ilfBad l 0 pay d

theorem fld_lt (w : Word) (hi lo : Nat) : fld w hi lo < 2 ^ (hi - lo + 1) := Nat.mod_lt _ (Nat.two_pow_pos _)

section
variable (l : Nat) (ws : List Word) (pay : List (Word × Bool)) (t : Time) (d : Dev)

/-- In PRESYNC the second valid marker block in a row gives SYNC; a lost alignment or the fourth CRC error in a row gives
HUNT (03 R71). -/
theorem rxOnly_presyncPeriod :
    (ilfAligned ws = false → RxOnly l d (presyncPeriod l ws pay t d) fun y => y.st = .hunt)
    ∧ (ilfAligned ws = true → ilfCrcOk ws = true → (d.lane l).rx.valid ≠ 1 →
        RxOnly l d (presyncPeriod l ws pay t d) fun y => y = { (d.lane l).rx with valid := 1, crcRun := 0, ctlAt := [] })
    ∧ (ilfAligned ws = true → ilfCrcOk ws = true → (d.lane l).rx.valid = 1 →
        RxOnly l d (presyncPeriod l ws pay t d) fun y => y.st = .sync ∧ y.loa = false ∧ y.map = ilfMap ws
          ∧ y.sourceId.toNat = fld (ws.getD 2 0) 23 16)
    ∧ (ilfAligned ws = true → ilfCrcOk ws = false → (d.lane l).rx.crcRun ≠ 3 →
        RxOnly l d (presyncPeriod l ws pay t d) fun y =>
          y = { (d.lane l).rx with valid := 0, crcRun := (d.lane l).rx.crcRun + 1, ctlAt := [] })
    ∧ (ilfAligned ws = true → ilfCrcOk ws = false → (d.lane l).rx.crcRun = 3 →
        RxOnly l d (presyncPeriod l ws pay t d) fun y => y.st = .hunt) := by
  unfold presyncPeriod
  have hcount := signalFrame_addCnt (ps := noPort) (laneKey l) 0x60 1 d
  refine ⟨fun ha => ?_, fun ha hc hv => ?_, fun ha hc hv => ?_, fun ha hc hv => ?_, fun ha hc hv => ?_⟩
  · rw [ha, if_pos Bool.not_false]
    exact (rxOnly_ilfHunt ..).imp fun y hy => hy.1
  · rw [ha, hc, if_neg (by decide), if_pos rfl, if_neg hv]
    exact rxOnly_of_modLane (fun _ => _) (.refl (ps := noPort) d) (.refl (ps := noPort) _) rfl
  · rw [ha, hc, if_neg (by decide), if_pos rfl, if_pos hv]
    refine (rxOnly_ilfGood ..).imp fun y ⟨hst, hloa, _, hmap, hsrc⟩ => ⟨hst, hloa, hmap, ?_⟩
    rw [hsrc, BitVec.toNat_ofNat]
    exact Nat.mod_eq_of_lt (fld_lt _ 23 16)
  · rw [ha, hc, if_neg (by decide), if_neg (by decide), if_neg hv]
    exact rxOnly_of_modLane (fun _ => _) hcount (.refl (ps := noPort) _) rfl
  · rw [ha, hc, if_neg (by decide), if_neg (by decide), if_pos hv]
    exact rxOnly_of_modLane (IlfRx.hunts false) hcount (signalFrame_ilfHunt ..) rfl

/-- In SYNC a bad CRC or an absent alignment poisons the period under the last map; the fourth absent alignment in a row
gives HUNT with ILF_LOA (03 R71-R73). -/
theorem rxOnly_syncPeriod (hst : (d.lane l).rx.st = .sync) :
    (ilfAligned ws = true → ilfCrcOk ws = true →
        RxOnly l d (syncPeriod l ws pay t d) fun y => y.st = .sync ∧ y.absent = 0 ∧ y.map = ilfMap ws)
    ∧ (ilfAligned ws = true → ilfCrcOk ws = false →
        RxOnly l d (syncPeriod l ws pay t d) fun y => y.st = .sync ∧ y.absent = 0 ∧ y.map = (d.lane l).rx.map
          ∧ y.cm = (d.lane l).rx.cm ∧ ∀ o ∈ y.out, ∀ w ∈ o.2, lwPoison w = true)
    ∧ (ilfAligned ws = false → (d.lane l).rx.absent ≠ 3 →
        RxOnly l d (syncPeriod l ws pay t d) fun y => y.st = .sync ∧ y.absent = (d.lane l).rx.absent + 1
          ∧ y.map = (d.lane l).rx.map ∧ ∀ o ∈ y.out, ∀ w ∈ o.2, lwPoison w = true)
    ∧ (ilfAligned ws = false → (d.lane l).rx.absent = 3 →
        RxOnly l d (syncPeriod l ws pay t d) fun y => y.st = .hunt ∧ y.loa = true ∧ y.out = []) := by
  unfold syncPeriod
  refine ⟨fun ha hc => ?_, fun ha hc => ?_, fun ha hn => ?_, fun ha hn => ?_⟩
  · rw [ha, hc, if_neg (by decide), if_pos rfl]
    exact (rxOnly_ilfGood ..).imp fun y ⟨hy, _, habs, hmap, _⟩ => ⟨hy, habs, hmap⟩
  · rw [ha, hc, if_neg (by decide), if_neg (by decide)]
    exact (rxOnly_ilfBad ..).imp fun y ⟨hy, hrest⟩ => ⟨hy.trans hst, hrest⟩
  · rw [ha, if_pos Bool.not_false, if_neg hn]
    exact (rxOnly_ilfBad ..).imp fun y ⟨hy, habs, hmap, _, hbad⟩ =>
      ⟨hy.trans hst, habs, hmap, hbad⟩
  · rw [ha, if_pos Bool.not_false, if_pos hn]
    exact (rxOnly_ilfHunt ..).imp fun y ⟨hy, hloa, hout⟩ => ⟨hy, hloa.trans (Bool.or_true _), hout⟩

end

section
variable {l : Nat} {s : State} (hs : FabOn s) (hlive : ilfLive s.dev l = true)
include hs hlive

theorem ilfAlignmentFound_checks (hst : (s.dev.lane l).rx.st = .hunt) : exec (.ilfAlignmentFound l) s
    = .next (withDev s (s.dev.modLane l fun x => { x with rx := { x.rx with st := .presync, valid := 0, crcRun := 0 } })) := by
  refine (run_gFab _ s hs).trans ?_
  simp only [hlive, hst, beq_self_eq_true, Bool.and_self, if_true]

theorem ilfControlBlock_counts (b : Nat) : exec (.ilfControlBlock ⟨l, b⟩) s
    = .next (withDev s (s.dev.modLane l fun x =>
        { x with rx := { x.rx with ctl := x.rx.ctl + 1, ctlAt := sadd x.rx.ctlAt (b % 8192) } })) := by
  refine (run_gFab _ s hs).trans ?_
  simp only [hlive, if_true]

theorem ilfMarkerPeriod_presync (mk : IlfMarker) (hst : (s.dev.lane l).rx.st = .presync) : exec (.ilfMarkerPeriod l mk) s
    = .next (withDev s (presyncPeriod l (markerWords mk (s.dev.lane l).rx.ctlAt) (periodWords mk (s.dev.lane l).rx.ctlAt)
        s.clock.now s.dev)) := by
  refine (run_gFab _ s hs).trans ?_
  simp only [presyncPeriod, hlive, hst, Bool.not_true, Bool.false_eq_true, if_false]

theorem ilfMarkerPeriod_sync (mk : IlfMarker) (hst : (s.dev.lane l).rx.st = .sync) : exec (.ilfMarkerPeriod l mk) s
    = .next (withDev s (syncPeriod l (markerWords mk (s.dev.lane l).rx.ctlAt) (periodWords mk (s.dev.lane l).rx.ctlAt)
        s.clock.now s.dev)) := by
  refine (run_gFab _ s hs).trans ?_
  simp only [hlive, hst, Bool.not_true, Bool.false_eq_true, if_false]
  rfl

end

/-! ### The transmitted marker block (03 R68, R70) -/

theorem ilfCrc_append {ws : List Word} (h : ws.length = 15) (v : Word) : ilfCrc (ws ++ [v]) = ilfCrc ws := by
  unfold ilfCrc
  rw [List.drop_append_of_le_length (by omega), List.take_append_of_le_length (by simp [h])]

/-- A marker block of 15 words followed by their CRC is good (03 R68). -/
theorem ilfCrcOk_append {ws : List Word} (h : ws.length = 15) : ilfCrcOk (ws ++ [ilfCrc ws]) = true := by
  have hlen : (ws ++ [ilfCrc ws]).length = 16 := by rw [List.length_append, h]; rfl
  have hlast : (ws ++ [ilfCrc ws])[15]? = some (ilfCrc ws) := by
    rw [List.getElem?_append_right (by omega), h]; rfl
  unfold ilfCrcOk
  rw [ilfCrc_append h, hlen, List.getD_eq_getElem?_getD, hlast, Option.getD_some, beq_self_eq_true, beq_self_eq_true]
  rfl

theorem ilfCrcOk_ilfMarkerOf (d : Dev) (l : Nat) (period : Octet) (cm : Nat → Nat) :
    ilfCrcOk (ilfMarkerOf d l period cm) = true := ilfCrcOk_append (by simp)

theorem ilfAligned_ilfMarkerOf (d : Dev) (l : Nat) (period : Octet) (cm : Nat → Nat) :
    ilfAligned (ilfMarkerOf d l period cm) = true := by
  simp [ilfAligned, ilfMarkerOf]

theorem ilfMarkerOf_word2 (d : Dev) (l : Nat) (period : Octet) (cm : Nat → Nat) :
    (ilfMarkerOf d l period cm).getD 2 0 = wd (period.toNat * 2 ^ 24 + (d.lane l).cfg.sourceId.toNat * 2 ^ 16) := rfl

theorem fld_wd_octets (a b : Octet) :
    fld (wd (a.toNat * 2 ^ 24 + b.toNat * 2 ^ 16)) 31 24 = a.toNat
      ∧ fld (wd (a.toNat * 2 ^ 24 + b.toNat * 2 ^ 16)) 23 16 = b.toNat := by
  have ha := a.isLt
  have hb := b.isLt
  simp only [fld, wd, BitVec.toNat_ofNat, Nat.shiftRight_eq_div_pow]
  omega

/-- A marker block sent names its period and its source (03 R68). -/
theorem ilfMarkerOf_names (d : Dev) (l : Nat) (period : Octet) (cm : Nat → Nat) :
    fld ((ilfMarkerOf d l period cm).getD 2 0) 31 24 = period.toNat
      ∧ fld ((ilfMarkerOf d l period cm).getD 2 0) 23 16 = (d.lane l).cfg.sourceId.toNat := by
  rw [ilfMarkerOf_word2]
  exact fld_wd_octets period (d.lane l).cfg.sourceId

/-- The period that begins carries the marker block of the slot map in force. -/
theorem ilfTxMarker_sends {l : Nat} {s : State} (hs : FabOn s) (bits : List (Nat × List Bool))
    (he : (s.dev.lane l).cfg.enable = true) (hi : (s.dev.lane l).cfg.ilf = true) (hst : (s.dev.lane l).st ≠ .down) :
    ∃ carry cm payload, exec (.ilfTxMarker l bits) s = .next (withDev s (s.dev.modLane l fun y => { y with tx := {
      period := y.tx.period + 1, carry := carry, marker := ilfMarkerOf s.dev l (s.dev.lane l).tx.period cm
      payload := payload } })) := by
  have hexec : exec (.ilfTxMarker l bits) s = _ := run_gFab _ s hs
  dsimp only at hexec
  rw [if_neg (by simp [he, hi, hst])] at hexec
  exact ⟨_, _, _, hexec⟩

/-- Settles O32: the receiver by its periods, the data positions by the count that rises with them, and the marker block
sent by its words. -/
theorem ilfFormat : Obligations.IlfFormat := by
  unfold Obligations.IlfFormat
  intro l mk s hs r ws goes
  have hgoes : ∀ {d} P, exec (.ilfMarkerPeriod l mk) s = .next (withDev s d) → ilfLive s.dev l = true →
      RxOnly l s.dev d P → goes P := by
    rintro d P hexec hlive ⟨hP, hst, hne⟩
    have hup : (s.dev.lane l).st = .up := by simpa using (Bool.and_eq_true_iff.1 hlive).1
    exact ⟨d, hexec, hP, hst.trans hup, hne⟩
  refine ⟨fun hlive hst => ilfAlignmentFound_checks hs.1 hlive hst, fun hlive hst => ?_, fun hlive hst => ?_,
    fun b hlive => ilfControlBlock_counts hs.1 hlive b, mem_periodWords_zipIdx mk,
    fun cm total sent ht hc hl => takeData_ilfSpread sent ht hc hl, fun words he hi hst => ?_⟩
  · obtain ⟨hlost, hfirst, hsecond, hbad, hfourth⟩ := rxOnly_presyncPeriod l ws (periodWords mk r.ctlAt) s.clock.now s.dev
    have hperiod := fun P => hgoes P (ilfMarkerPeriod_presync hs.1 hlive mk hst) hlive
    exact ⟨fun ha => hperiod _ (hlost ha), fun ha hc hv => hperiod _ (hfirst ha hc hv),
      fun ha hc hv => hperiod _ (hsecond ha hc hv), fun ha hc hv => hperiod _ (hbad ha hc hv),
      fun ha hc hv => hperiod _ (hfourth ha hc hv)⟩
  · obtain ⟨hgood, hbad, habsent, hfourth⟩ := rxOnly_syncPeriod l ws (periodWords mk r.ctlAt) s.clock.now s.dev hst
    have hperiod := fun P => hgoes P (ilfMarkerPeriod_sync hs.1 hlive mk hst) hlive
    exact ⟨fun ha hc => hperiod _ (hgood ha hc), fun ha hc => hperiod _ (hbad ha hc), fun ha hn => hperiod _ (habsent ha hn),
      fun ha hn => hperiod _ (hfourth ha hn)⟩
  · obtain ⟨carry, cm, payload, hexec⟩ := ilfTxMarker_sends hs.1 words he hi hst
    obtain ⟨hperiod, hsource⟩ := ilfMarkerOf_names s.dev l (s.dev.lane l).tx.period cm
    refine ⟨_, hexec, ?_⟩
    rw [lane_modLane_self]
    exact ⟨rfl, ilfAligned_ilfMarkerOf .., ilfCrcOk_ilfMarkerOf .., hperiod, hsource, rfl,
      fun k hk => lane_modLane_ne _ _ hk, rfl⟩

end Sys2Proof.Machine
end

section
/-!
SUPPORT. What the octets of a frame are before and after scrambling (04 R89).
-/
namespace Sys2Proof.Machine

theorem length_lfsrBits (w : Nat) (taps : List Nat) (n s : Nat) : (lfsrBits w taps n s).length = n := by
  induction n generalizing s with
  | zero => rfl
  | succ n ih => rw [lfsrBits, List.length_cons, ih]

/-- Octets XORed twice with the same octets, of which there are as many, are the octets. -/
theorem zipWith_xor_twice (os ks : List Octet) (h : os.length ≤ ks.length) :
    List.zipWith (· ^^^ ·) (List.zipWith (· ^^^ ·) os ks) ks = os := by
  induction os generalizing ks with
  | nil => rfl
  | cons o os ih =>
    cases ks with
    | nil => exact absurd h (Nat.not_succ_le_zero _)
    | cons k ks =>
      rw [List.zipWith_cons_cons, List.zipWith_cons_cons, ih ks (Nat.le_of_succ_le_succ h), BitVec.xor_assoc,
        BitVec.xor_self, BitVec.xor_zero]

theorem length_scrambler (w : Nat) (taps : List Nat) (n s : Nat) : (bitOctets (lfsrBits w taps (8 * n) s)).length = n := by
  rw [bitOctets, List.length_map, List.length_range, length_lfsrBits, Nat.mul_div_cancel_left n (by decide)]

theorem length_scramble (w : Nat) (taps : List Nat) (os : List Octet) : (scramble w taps os).length = os.length := by
  rw [scramble, List.length_zipWith, length_scrambler, Nat.min_self]

theorem scramble_scramble (w : Nat) (taps : List Nat) (os : List Octet) : scramble w taps (scramble w taps os) = os := by
  rw [scramble, length_scramble]
  exact zipWith_xor_twice os _ (Nat.le_of_eq (length_scrambler ..).symm)

/-- The scrambler of an STM-N is its own inverse (04 R89). -/
theorem sdhScramble_sdhScramble (n : Nat) (os : List Octet) : sdhScramble n (sdhScramble n os) = os := by
  rcases Nat.le_total os.length (9 * n) with h | h
  · have hall : sdhScramble n os = os := by
      rw [sdhScramble, List.drop_of_length_le h, List.take_of_length_le h]; exact List.append_nil os
    rw [hall, hall]
  · have hrow : (os.take (9 * n)).length = 9 * n := List.length_take_of_le h
    rw [sdhScramble, sdhScramble, List.take_left' hrow, List.drop_left' hrow, scramble_scramble, List.take_append_drop]

end Sys2Proof.Machine
end

section
/-!
SUPPORT. What a received frame makes of an SDH port, step by step, and what it leaves (04 R86-R104).
-/
namespace Sys2Proof.Machine
open Safety

/-! ### Ports, tributaries and defects after an effect on layers -/

theorem port_of_signalFrame {d e : Dev} (h : SignalFrame noPort d e) : e.port = d.port := funext fun q => h.port q id

theorem trib_of_onlyTalk {d e : Dev} (h : OnlyTalk d e) : e.trib = d.trib := by unfold Dev.trib; rw [h.1]

theorem trib_modLayer (d : Dev) (k : Nat) (u : Layer → Layer) : (d.modLayer k u).trib = d.trib := rfl

theorem trib_recordDef (k old : Nat) (t : Time) (d : Dev) : (recordDef k old t d).trib = d.trib := by
  unfold recordDef
  dsimp only
  generalize (if (d.layer k).sentSec = secOf t then (d.layer k).sent else 0) = sent
  split
  · rfl
  · split
    · rw [trib_modLayer]; exact trib_of_onlyTalk (onlyTalk_addRecord ..)
    · rfl

theorem trib_setDef (k : Nat) (x : Def) (on : Bool) (t : Time) (d : Dev) : (setDef k x on t d).trib = d.trib := by
  unfold setDef
  dsimp only
  split
  · rfl
  · rw [trib_recordDef]; rfl

theorem port_setDef (k : Nat) (x : Def) (on : Bool) (t : Time) (d : Dev) : (setDef k x on t d).port = d.port :=
  port_of_signalFrame (signalFrame_setDef ..)

theorem port_setWords (ts : List Nat) (missing : Nat → Bool) (t : Time) (d : Dev) : (setWords ts missing t d).port = d.port :=
  port_of_signalFrame (signalFrame_setWords ..)

/-- Which sources deliver words is no defect (10 R236). -/
theorem hasDef_setWords (ts : List Nat) (missing : Nat → Bool) (t : Time) (d : Dev) (k : Nat) (x : Def) :
    hasDef (setWords ts missing t d) k x = hasDef d k x := by
  unfold setWords hasDef
  split
  · rfl
  · refine congrArg (List.contains · x) ((refresh_defs t _ k).trans ?_)
    refine foldl_keeps (fun d : Dev => (d.layer k).defs) _ (fun d n => defs_modLayer d _ k _ ?_) ts d
    exact fun _ => rfl

theorem port_sdhWords (p : Nat) (t : Time) (d : Dev) : (sdhWords p t d).port = d.port := by
  unfold sdhWords
  split
  · rfl
  · exact port_setWords ..

theorem hasDef_sdhWords (p : Nat) (t : Time) (d : Dev) (k : Nat) (x : Def) :
    hasDef (sdhWords p t d) k x = hasDef d k x := by
  unfold sdhWords
  split
  · rfl
  · exact hasDef_setWords ..

/-! ### Steps of a received frame -/

/-- What a received frame makes of an SDH port (04 R86, R91, R92, R96, R97): the framer, the frames, the parities kept for
the next frame, and the filters of K1 and K2 and of S1. -/
structure SdhRx where
  fr : Framer
  rxF : PortFrame
  b1 : Option Octet
  b2 : Option (List Octet)
  k : Filt
  s1 : Filt

/-- What a port has of it. -/
def Port.sdhRx (x : Port) : SdhRx := ⟨x.fr, x.rxF, x.sdh.b1, x.sdh.b2, x.sdh.k, x.sdh.s1⟩

/-- A step of a port's received frame: of the ports it touches its own alone, and OOF stays as it is. -/
structure SdhStep (p : Nat) (g : SdhRx → SdhRx) (d e : Dev) : Prop where
  self : (e.port p).map Port.sdhRx = (d.port p).map fun x => g x.sdhRx
  other : ∀ q, q ≠ p → e.port q = d.port q
  oof : hasDef e (secKey p) .oof = hasDef d (secKey p) .oof

section
variable {p : Nat} {g h : SdhRx → SdhRx} {d e f : Dev}

theorem SdhStep.trans (hg : SdhStep p g d e) (hh : SdhStep p h e f) : SdhStep p (fun c => h (g c)) d f where
  self := by
    have hmap := congrArg (Option.map h) hg.self
    rw [Option.map_map, Option.map_map] at hmap
    exact hh.self.trans hmap
  other q hq := (hh.other q hq).trans (hg.other q hq)
  oof := hh.oof.trans hg.oof

/-- A step before one that leaves all it could change, and one after such a step. -/
theorem SdhStep.andThen (hg : SdhStep p g d e) (he : SdhStep p id e f) : SdhStep p g d f := hg.trans he
theorem SdhStep.after (hd : SdhStep p id d e) (hg : SdhStep p g e f) : SdhStep p g d f := hd.trans hg

/-- A step that leaves every port and OOF. -/
theorem SdhStep.of_port (hp : e.port = d.port) (ho : hasDef e (secKey p) .oof = hasDef d (secKey p) .oof) :
    SdhStep p id d e := ⟨by rw [hp]; rfl, fun q _ => by rw [hp], ho⟩

theorem SdhStep.refl (d : Dev) : SdhStep p id d d := .of_port rfl rfl

theorem SdhStep.of_fab (hp : e.fab.ports = d.fab.ports) (hl : e.fab.layers = d.fab.layers) : SdhStep p id d e :=
  .of_port (by unfold Dev.port; rw [hp]) (by unfold hasDef Dev.layer; rw [hl])

theorem SdhStep.of_onlyTalk (h : OnlyTalk d e) : SdhStep p id d e := .of_fab (by rw [h.1]) (by rw [h.1])

theorem SdhStep.modPort (u : Port → Port) (hu : ∀ x, d.port p = some x → (u x).sdhRx = g x.sdhRx) :
    SdhStep p g d (d.modPort p u) where
  self := by
    rw [port_modPort, if_pos rfl]
    cases hx : d.port p with
    | none => rfl
    | some x => exact congrArg some (hu x hx)
  other q hq := (port_modPort ..).trans (if_neg hq)
  oof := rfl

/-- Where there is no port nothing has to be done. -/
theorem SdhStep.of_none (hp : d.port p = none) : SdhStep p g d d := ⟨by rw [hp]; rfl, fun _ _ => rfl, rfl⟩

theorem SdhStep.ite (c : Prop) [Decidable c] (he : SdhStep p g d e) (hf : SdhStep p g d f) :
    SdhStep p g d (if c then e else f) := by
  split
  · exact he
  · exact hf

theorem SdhStep.foldl {α : Type} (u : Dev → α → Dev) (hu : ∀ d x, SdhStep p id d (u d x)) (l : List α) (d : Dev) :
    SdhStep p id d (l.foldl u d) := by
  induction l generalizing d with
  | nil => exact .refl d
  | cons x l ih => exact (hu d x).andThen (ih _)

end

section
variable {p : Nat}

theorem sdhStep_modLayer (k : Nat) (u : Layer → Layer) (hu : ∀ l, (u l).defs = l.defs) (d : Dev) :
    SdhStep p id d (d.modLayer k u) := .of_port rfl (congrArg (List.contains · _) (defs_modLayer d k _ u hu))

theorem sdhStep_setDef (k : Nat) {x : Def} (hx : x ≠ .oof) (on : Bool) (t : Time) (d : Dev) :
    SdhStep p id d (setDef k x on t d) :=
  .of_port (port_setDef ..) (hasDef_setDef_ne k _ x .oof on t d (.inr hx.symm))

theorem sdhStep_setWords (ts : List Nat) (missing : Nat → Bool) (t : Time) (d : Dev) :
    SdhStep p id d (setWords ts missing t d) := .of_port (port_setWords ..) (hasDef_setWords ..)

theorem sdhStep_addCnt (k num n : Nat) (d : Dev) : SdhStep p id d (addCnt k num n d) :=
  .of_fab (by rw [addCnt_fab]) (by rw [addCnt_fab])

theorem sdhStep_toOwner (n : Nat) (ws : List LaneWord) (d : Dev) : SdhStep p id d (toOwner n ws d) := by
  obtain ⟨-, q, hq⟩ := toOwner_fab n ws d
  exact .of_fab (by rw [hq]) (by rw [hq])

theorem sdhStep_modTrib (n : Nat) (u : Trib → Trib) (d : Dev) : SdhStep p id d (d.modTrib n u) := .of_fab rfl rfl

theorem sdhStep_modSlot (n : Nat) (u : Slot → Slot) (d : Dev) : SdhStep p id d (d.modSlot n u) := .of_fab rfl rfl

/-! ### Parity, K1 and K2, S1 and J0 (04 R91-R98) -/

theorem sdhStep_blockRx (k bits : Nat) (usable : Bool) (d : Dev) : SdhStep p id d (blockRx k bits usable d) := by
  unfold blockRx
  have hcnt : SdhStep p id d (if usable then addCnt k 0x08 bits (addCnt k 0x01 (b2n (usable && decide (0 < bits)))
      (addCnt k 0 1 d)) else addCnt k 0 1 d) :=
    .ite _ (((sdhStep_addCnt ..).andThen (sdhStep_addCnt ..)).andThen (sdhStep_addCnt ..)) (sdhStep_addCnt ..)
  refine .ite _ hcnt (hcnt.andThen (sdhStep_modLayer _ _ ?_ _))
  exact fun _ => rfl

theorem sdhStep_farRx (k n : Nat) (d : Dev) : SdhStep p id d (farRx k n d) := by
  unfold farRx
  have hcnt : SdhStep p id d (if keyCls k < 3 then d else addCnt k 0x18 n (addCnt k 0x11 (b2n (decide (0 < n))) d)) :=
    .ite _ (.refl d) ((sdhStep_addCnt ..).andThen (sdhStep_addCnt ..))
  refine .ite _ hcnt (hcnt.andThen (sdhStep_modLayer _ _ ?_ _))
  exact fun _ => rfl

theorem sdhStep_farDef (k : Nat) (b : Bool) (d : Dev) : SdhStep p id d (farDef k b d) := by
  refine .ite _ (sdhStep_modLayer _ _ ?_ _) (.refl d)
  exact fun _ => rfl

/-- The parities of a frame stay for the next one (04 R91, R92). -/
theorem sdhStep_sdhBips (x : Port) (f : SdhOh) (d : Dev) :
    SdhStep p (fun c => { c with b1 := some f.b1own, b2 := some f.b2own }) d (sdhBips p x f d) := by
  unfold sdhBips
  refine .after ((((sdhStep_blockRx ..).andThen (sdhStep_blockRx ..)).andThen (sdhStep_farRx ..)).andThen (sdhStep_farDef ..))
    (.modPort _ ?_)
  exact fun _ _ => rfl

/-- K1 and K2 of a frame enter their filter (04 R96). -/
theorem sdhStep_sdhK (f : SdhOh) (t : Time) (d : Dev) :
    SdhStep p (fun c => { c with k := c.k.step 3 f.k t }) d (sdhK p f t d) := by
  unfold sdhK
  split
  · rename_i hx; exact .of_none hx
  · rename_i x hx
    refine .andThen (.andThen (.andThen (.modPort _ ?_) (.ite _ (sdhStep_addCnt ..) (.refl _)))
      (sdhStep_setDef _ (by decide) ..)) (sdhStep_setDef _ (by decide) ..)
    intro y hy
    cases hx.symm.trans hy
    rfl

theorem sdhStep_setSlotQl (n : Nat) (q : BitVec 4) (t : Time) (d : Dev) : SdhStep p id d (setSlotQl n q t d) := by
  unfold setSlotQl clkEvent slotTime
  exact .ite _ (.refl d) (.andThen (.andThen (sdhStep_modSlot ..) (sdhStep_modSlot ..)) (.of_onlyTalk (onlyTalk_noteRecord ..)))

/-- S1 of a frame enters its filter (04 R97). -/
theorem sdhStep_sdhS1 (f : SdhOh) (t : Time) (d : Dev) :
    SdhStep p (fun c => { c with s1 := c.s1.step 8 f.s1.toNat t }) d (sdhS1 p f t d) := by
  unfold sdhS1
  split
  · rename_i hx; exact .of_none hx
  · rename_i x hx
    have hfilter : SdhStep p (fun c => { c with s1 := c.s1.step 8 f.s1.toNat t }) d
        (d.modPort p fun y => { y with sdh := { y.sdh with s1 := x.sdh.s1.step 8 f.s1.toNat t } }) :=
      .modPort _ fun y hy => by cases hx.symm.trans hy; rfl
    dsimp only
    split
    · refine .ite _ hfilter (hfilter.andThen (.foldl _ (fun d n => ?_) _ _))
      exact .andThen (sdhStep_modSlot ..) (sdhStep_setSlotQl ..)
    · exact hfilter

theorem sdhStep_setPartner (q item inst : Nat) (ws : List Word) (t : Time) (d : Dev) :
    SdhStep q id d (setPartner q item inst ws t d) := by
  unfold setPartner
  split
  · exact .refl d
  · refine .ite _ (.refl d) (.andThen (.modPort _ ?_) (.of_onlyTalk (onlyTalk_noteRecord ..)))
    exact fun _ _ => rfl

theorem sdhStep_sdhJ0 (f : SdhOh) (t : Time) (d : Dev) : SdhStep p id d (sdhJ0 p f t d) := by
  unfold sdhJ0 setTim
  split
  · exact .refl d
  · refine .andThen ?_ (sdhStep_setDef _ (by decide) ..)
    have hfilter : ∀ j, SdhStep p id d (d.modPort p fun y => { y with sdh := { y.sdh with j0f := j } }) :=
      fun j => .modPort _ fun _ _ => rfl
    dsimp only
    split
    · exact .ite _ (hfilter _) ((hfilter _).andThen (sdhStep_setPartner ..))
    · exact hfilter _

/-! ### AUs and overhead tributaries (04 R95, R102-R104) -/

theorem sdhStep_ptrDefects (k : Nat) (st : PtrSt) (grace : Bool) (t : Time) (d : Dev) :
    SdhStep p id d (ptrDefects k st grace t d) :=
  .andThen (sdhStep_setDef _ (by decide) ..) (sdhStep_setDef _ (by decide) ..)

theorem sdhStep_sendPacked (n : Nat) (had : Bool) (w : Packer) (d : Dev) : SdhStep p id d (sendPacked n had w d) :=
  .andThen (sdhStep_modTrib ..) (sdhStep_toOwner ..)

theorem sdhStep_sdhAu (x : Port) (os : List Octet) (bad : List Nat) (key : Nat) (t : Time) (d : Dev) :
    SdhStep p id d (sdhAu p x os bad key t d) := by
  unfold sdhAu
  dsimp only
  split
  · refine .modPort _ ?_
    exact fun _ _ => rfl
  · have hdefects : ∀ (ev : Option Nat) (k : Nat) (st : PtrSt) (grace : Bool) (e : Dev), SdhStep p id d e → SdhStep p id d
        (ptrDefects (pathKey k) st grace t (match ev with | some c => addCnt (pathKey k) c 1 e | none => e)) := by
      intro ev k st grace e he
      refine .andThen ?_ (sdhStep_ptrDefects ..)
      cases ev with
      | none => exact he
      | some c => exact he.andThen (sdhStep_addCnt ..)
    have hport : ∀ ptrs packs, SdhStep p id d
        (d.modPort p fun z => { z with sdh := { z.sdh with
          ptrs := tput z.sdh.ptrs key ptrs, packs := tput z.sdh.packs key packs } }) :=
      fun _ _ => .modPort _ fun _ _ => rfl
    split
    · exact hport _ _
    · exact .ite _ (.andThen (hdefects _ _ _ _ _ (hport _ _)) (sdhStep_sendPacked ..)) (hdefects _ _ _ _ _ (hport _ _))

theorem sdhStep_toOverhead (ns : List Nat) (group : Nat) (os : List Octet) (bad : Bool) (d : Dev) :
    SdhStep p id d (toOverhead ns group os bad d) := by
  unfold toOverhead
  split
  · exact .refl d
  · split
    · exact .refl d
    · exact .andThen (sdhStep_modTrib ..) (sdhStep_toOwner ..)

theorem sdhStep_sdhWords (t : Time) (d : Dev) : SdhStep p id d (sdhWords p t d) :=
  .of_port (port_sdhWords ..) (hasDef_sdhWords ..)

end
end Sys2Proof.Machine
end

section
/-!
SUPPORT. The SDH framer: a received frame by its pattern, and LOF and LOM (04 R86, R87, R108).
-/
namespace Sys2Proof.Machine
open Safety

/-! ### A frame in IF (04 R89-R100) -/

/-- What an SDH port has of a frame in IF: a frame more, the parities for the next one, and without poison in its overhead
a value more in the filters of K1 and K2 and of S1. -/
def SdhRx.takes (c : SdhRx) (o : SdhOh) (t : Time) : SdhRx :=
  { c with
    rxF := c.rxF.next t, b1 := some o.b1own, b2 := some o.b2own
    k := if o.poisoned then c.k else c.k.step 3 o.k t, s1 := if o.poisoned then c.s1 else c.s1.step 8 o.s1.toNat t }

theorem takes_clean {o : SdhOh} (h : o.poisoned = false) (t : Time) (c : SdhRx) :
    (c.takes o t).k = c.k.step 3 o.k t ∧ (c.takes o t).s1 = c.s1.step 8 o.s1.toNat t := by
  simp only [SdhRx.takes, h, Bool.false_eq_true, if_false, and_self]

/-- A frame with poison in its overhead does not count toward a filter (04 R100). -/
theorem takes_poisoned {o : SdhOh} (h : o.poisoned = true) (t : Time) (c : SdhRx) :
    (c.takes o t).k = c.k ∧ (c.takes o t).s1 = c.s1 := by
  simp only [SdhRx.takes, h, if_true, and_self]

/-- The overhead of a frame received on a port. -/
def ohOfFrame (x : Port) (f : SdhFrame) : SdhOh :=
  sdhOverhead (stmN x.typ) (reiWide x.typ x.sdh.reiExt) f.octets (sdhScramble (stmN x.typ) f.octets) f.bad

theorem takes_b2 (x : Port) (f : SdhFrame) (t : Time) (c : SdhRx) :
    (c.takes (ohOfFrame x f) t).b2 = some (bip24 (stmN x.typ) (sdhScramble (stmN x.typ) f.octets)) := by
  simp only [SdhRx.takes, ohOfFrame, sdhOverhead]

theorem sdhStep_filters (p : Nat) (o : SdhOh) (t : Time) (d : Dev) :
    SdhStep p (fun c => { c with k := if o.poisoned then c.k else c.k.step 3 o.k t
                                 s1 := if o.poisoned then c.s1 else c.s1.step 8 o.s1.toNat t }) d
      (if o.poisoned then d else sdhS1 p o t (sdhK p o t d)) := by
  cases o.poisoned
  · exact (sdhStep_sdhK o t d).trans (sdhStep_sdhS1 o t _)
  · exact .refl d

theorem sdhStep_rxFrame (p : Nat) (t : Time) (d : Dev) :
    SdhStep p (fun c => { c with rxF := c.rxF.next t }) d (rxFrame p t d) := .modPort _ fun _ _ => rfl

theorem sdhStep_sdhProcess {p : Nat} {d : Dev} {x : Port} (hx : d.port p = some x) (f : SdhFrame) (t : Time) :
    SdhStep p (fun c => c.takes (ohOfFrame x f) t) d (sdhProcess p f t d) := by
  have htaken := ((sdhStep_rxFrame p t d).trans (sdhStep_sdhBips x (ohOfFrame x f) _)).trans
    (sdhStep_filters p (ohOfFrame x f) t _)
  unfold sdhProcess
  rw [hx]
  refine .andThen (.andThen (.andThen (.andThen (.andThen htaken (sdhStep_sdhJ0 ..)) (.foldl _ (fun d k => ?_) _ _))
    (.foldl _ (fun d g => ?_) _ _)) (.modPort _ ?_)) (sdhStep_sdhWords ..)
  · exact sdhStep_sdhAu ..
  · exact sdhStep_toOverhead ..
  · exact fun _ _ => rfl

/-! ### Defects that nothing holds (10 R233) -/

theorem hasDef_setDef_free (k : Nat) {x : Def} (hc : contentDef x = false) (hs : ∀ d k, portSuppressed d k x = false)
    (on : Bool) (t : Time) (d : Dev) : hasDef (setDef k x on t d) k x = on :=
  hasDef_setDef k x on t d (by rw [hc, hs, Bool.and_false, Bool.and_false]; rfl)

theorem hasDef_setDef_oof (k : Nat) (on : Bool) (t : Time) (d : Dev) : hasDef (setDef k .oof on t d) k .oof = on :=
  hasDef_setDef_free k rfl (fun _ _ => rfl) on t d

theorem hasDef_setDef_lof (k : Nat) (on : Bool) (t : Time) (d : Dev) : hasDef (setDef k .lof on t d) k .lof = on :=
  hasDef_setDef_free k rfl (fun _ _ => rfl) on t d

theorem hasDef_setDef_lom (k : Nat) (on : Bool) (t : Time) (d : Dev) : hasDef (setDef k .lom on t d) k .lom = on :=
  hasDef_setDef_free k rfl (fun _ _ => rfl) on t d

/-! ### IF confirmed, and OOF (04 R86) -/

theorem port_modPort_modPort (d : Dev) (p : Nat) (u v : Port → Port) :
    ((d.modPort p u).modPort p v).port = (d.modPort p fun x => v (u x)).port := by
  funext q
  rw [port_modPort, port_modPort, port_modPort, port_modPort, if_pos rfl, Option.map_map]
  split <;> rfl

/-- A port in PRESYNC before its frame is processed: no frame was received before that one. -/
def Port.restarts (x : Port) : Port :=
  { x with sdh := { x.sdh with b1 := none, b2 := none, packs := [] }, entered := true }

/-- A port whose IF is confirmed. -/
def Port.confirmed (t : Time) (x : Port) : Port :=
  { x with fr := { x.fr with st := .inFrame, errRun := 0, oof := false, since := t } }

/-- A port in IF with a number of frames in error in a row. -/
def Port.counts (run : Nat) (x : Port) : Port := { x with fr := { x.fr with errRun := run } }

theorem port_portInFrame (p : Nat) (t : Time) (d : Dev) : (portInFrame p t d).port = (d.modPort p (Port.confirmed t)).port :=
  port_setDef ..

theorem hasDef_portInFrame (p : Nat) (t : Time) (d : Dev) : hasDef (portInFrame p t d) (secKey p) .oof = false :=
  hasDef_setDef_oof ..

theorem portOof_raises {p : Nat} {d : Dev} {x : Port} (hx : d.port p = some x) (ho : x.fr.oof = false) (t : Time) :
    (∃ y, (portOof p t d).port p = some y ∧ y.fr = { x.fr with st := .oof, errRun := 0, oof := true, since := t })
      ∧ hasDef (portOof p t d) (secKey p) .oof = true := by
  unfold portOof
  rw [hx]
  dsimp only
  rw [ho, if_neg Bool.false_ne_true]
  refine ⟨?_, hasDef_setDef_oof ..⟩
  rw [port_setDef, port_modPort, if_pos rfl, port_of_signalFrame (signalFrame_silencePort ..), port_modPort, if_pos rfl, hx]
  exact ⟨_, rfl, rfl⟩

/-! ### The rows of the framer (04 R86, R87) -/

/-- A row touches of the ports one alone, and of that and the device something holds. -/
def PortRow (p : Nat) (c : Instr) (s : State) (P : Dev → Port → Prop) : Prop :=
  ∃ d y, exec c s = .next (withDev s d) ∧ d.port p = some y ∧ P d y ∧ ∀ k, k ≠ p → d.port k = s.dev.port k

theorem PortRow.imp {p : Nat} {c : Instr} {s : State} {P Q : Dev → Port → Prop} (h : PortRow p c s P)
    (hPQ : ∀ d y, P d y → Q d y) : PortRow p c s Q := by
  obtain ⟨d, y, hexec, hy, hP, hne⟩ := h
  exact ⟨d, y, hexec, hy, hPQ d y hP, hne⟩

/-- A row whose device has the ports of one changed port. -/
theorem portRow_of_modPort {p : Nat} {c : Instr} {s : State} {d : Dev} {x : Port} {P : Dev → Port → Prop}
    (hexec : exec c s = .next (withDev s d)) (hx : s.dev.port p = some x) (u : Port → Port)
    (hd : d.port = (s.dev.modPort p u).port) (hP : P d (u x)) : PortRow p c s P :=
  ⟨d, u x, hexec, by rw [hd, port_modPort, if_pos rfl, hx]; rfl, hP, fun k hk => by rw [hd, port_modPort, if_neg hk]⟩

/-- A row that ends with a step of a received frame, on a device with the ports of one changed port. -/
theorem portRow_of_sdhStep {p : Nat} {c : Instr} {s : State} {d e : Dev} {x : Port} {g : SdhRx → SdhRx} (u : Port → Port)
    (hexec : exec c s = .next (withDev s e)) (hx : s.dev.port p = some x) (hd : d.port = (s.dev.modPort p u).port)
    (hstep : SdhStep p g d e) :
    PortRow p c s fun e y => y.sdhRx = g (u x).sdhRx ∧ hasDef e (secKey p) .oof = hasDef d (secKey p) .oof := by
  have hself := hstep.self
  rw [hd, port_modPort, if_pos rfl, hx] at hself
  obtain ⟨y, hy, hrx⟩ := Option.map_eq_some_iff.1 hself
  exact ⟨e, y, hexec, hy, ⟨hrx, hstep.oof⟩, fun k hk => by rw [hstep.other k hk, hd, port_modPort, if_neg hk]⟩

section
variable {p : Nat} {x : Port} {s : State} (hs : Runs s) (hx : s.dev.port p = some x) (hsdh : isSdh x.typ = true)
include hs hx hsdh

theorem sdhPatternFound_presync (bits : List Bool) (hst : x.fr.st = .oof) (hb : bitsHold (lineBits sdhPattern) bits = true) :
    PortRow p (.sdhPatternFound ⟨p, bits⟩) s fun _ y => y = { x with fr := { x.fr with st := .presync } } := by
  refine portRow_of_modPort (run_gRun _ s hs) hx _ rfl ?_
  simp only [hsdh, hst, hb, beq_self_eq_true, Bool.and_self, if_true]

/-- LOF follows OOF after 24 frames (04 R87). -/
theorem sdhLofChange_follows (hl : x.fr.lof ≠ x.fr.oof) (ht : x.fr.since + 24 * frame ≤ s.clock.now) :
    PortRow p (.sdhLofChange p) s fun d y =>
      y = { x with fr := { x.fr with lof := x.fr.oof } } ∧ hasDef d (secKey p) .lof = x.fr.oof := by
  have hdue : (x.fr.lof != x.fr.oof && decide (x.fr.since + 24 * frame ≤ s.clock.now)) = true := by simp [hl, ht]
  refine portRow_of_modPort ((run_gRun _ s hs).trans ?_) hx (fun x => { x with fr := { x.fr with lof := x.fr.oof } })
    (port_setDef ..) ⟨rfl, hasDef_setDef_lof (secKey p) x.fr.oof s.clock.now _⟩
  simp only [hx, hsdh, portLof, hdue, if_true]

variable {f : SdhFrame}

theorem sdhRxFrame_presync_errored (hst : x.fr.st = .presync) (hbad : patternErrored (stmN x.typ) f.octets = true) :
    PortRow p (.sdhRxFrame p f) s fun _ y => y = { x with fr := { x.fr with st := .oof } } := by
  refine portRow_of_modPort ((run_gRun _ s hs).trans ?_) hx (fun x => { x with fr := { x.fr with st := .oof } }) rfl rfl
  simp only [hx, hsdh, hst, hbad, Bool.not_true, Bool.false_eq_true, if_false, if_true]

/-- The frame that confirms IF clears OOF and is processed (04 R86). -/
theorem sdhRxFrame_confirmed (hst : x.fr.st = .presync) (hgood : patternErrored (stmN x.typ) f.octets = false) :
    PortRow p (.sdhRxFrame p f) s fun d y => y.fr.st = .inFrame ∧ y.fr.oof = false ∧ y.fr.since = s.clock.now
      ∧ hasDef d (secKey p) .oof = false ∧ y.rxF = x.rxF.next s.clock.now := by
  have hports := (port_portInFrame p s.clock.now (s.dev.modPort p Port.restarts)).trans (port_modPort_modPort ..)
  have hself : (portInFrame p s.clock.now (s.dev.modPort p Port.restarts)).port p = some (x.restarts.confirmed s.clock.now) := by
    rw [hports, port_modPort, if_pos rfl, hx]; rfl
  have hexec : exec (.sdhRxFrame p f) s = .next (withDev s
      (sdhProcess p f s.clock.now (portInFrame p s.clock.now (s.dev.modPort p Port.restarts)))) := by
    refine (run_gRun _ s hs).trans ?_
    simp only [hx, hsdh, hst, hgood, Bool.not_true, Bool.false_eq_true, if_false]
    rfl
  refine (portRow_of_sdhStep _ hexec hx hports (sdhStep_sdhProcess hself f s.clock.now)).imp ?_
  rintro d y ⟨hrx, hoof⟩
  have hfr : y.fr = _ := congrArg SdhRx.fr hrx
  rw [hfr]
  exact ⟨rfl, rfl, rfl, hoof.trans (hasDef_portInFrame ..), congrArg SdhRx.rxF hrx⟩

variable (hst : x.fr.st = .inFrame)
include hst

/-- As many frames in error in a row as the threshold has give OOF (04 R86). -/
theorem sdhRxFrame_lost (ho : x.fr.oof = false) (hbad : patternErrored (stmN x.typ) f.octets = true)
    (hn : x.sdh.nOof ≤ x.fr.errRun + 1) :
    PortRow p (.sdhRxFrame p f) s fun d y => y.fr.st = .oof ∧ y.fr.oof = true ∧ y.fr.since = s.clock.now
      ∧ hasDef d (secKey p) .oof = true := by
  obtain ⟨⟨y, hy, hfr⟩, hoof⟩ := portOof_raises hx ho s.clock.now
  have hports := port_sdhWords p s.clock.now (portOof p s.clock.now s.dev)
  refine ⟨sdhWords p s.clock.now (portOof p s.clock.now s.dev), y, (run_gRun _ s hs).trans ?_, by rw [hports, hy], ?_,
    fun k hk => ?_⟩
  · simp only [hx, hsdh, hst, hbad, hn, Bool.not_true, Bool.false_eq_true, if_false, if_true]
  · dsimp only
    rw [hfr]
    exact ⟨rfl, rfl, rfl, (hasDef_sdhWords ..).trans hoof⟩
  · rw [hports]; exact (signalFrame_portOof p s.clock.now s.dev).port k hk

/-- A frame that leaves the port in IF is processed (04 R86). -/
theorem sdhRxFrame_processed {run : Nat}
    (hrun : (if patternErrored (stmN x.typ) f.octets then x.fr.errRun + 1 else 0) = run) (hn : run < x.sdh.nOof) :
    PortRow p (.sdhRxFrame p f) s fun _ y =>
      y.sdhRx = (x.counts run).sdhRx.takes (ohOfFrame x f) s.clock.now := by
  have hself : (s.dev.modPort p (Port.counts run)).port p = some (x.counts run) := by
    rw [port_modPort, if_pos rfl, hx]; rfl
  have hexec : exec (.sdhRxFrame p f) s
      = .next (withDev s (sdhProcess p f s.clock.now (s.dev.modPort p (Port.counts run)))) := by
    refine (run_gRun _ s hs).trans ?_
    simp only [hx, hsdh, hst, hrun, Nat.not_le.2 hn, Bool.not_true, Bool.false_eq_true, if_false]
    rfl
  exact (portRow_of_sdhStep _ hexec hx rfl (sdhStep_sdhProcess hself f s.clock.now)).imp fun _ _ h => h.1

/-- A frame in error short of the threshold is counted (04 R86). -/
theorem sdhRxFrame_counted (hbad : patternErrored (stmN x.typ) f.octets = true) (hn : x.fr.errRun + 1 < x.sdh.nOof) :
    PortRow p (.sdhRxFrame p f) s fun _ y => y.fr = { x.fr with errRun := x.fr.errRun + 1 } :=
  (sdhRxFrame_processed hs hx hsdh hst (if_pos hbad) hn).imp fun _ _ h => congrArg SdhRx.fr h

/-- A frame without error ends the run, leaves its parities, and enters the filters unless it is poisoned
(04 R86, R91, R92, R96, R97, R100). -/
theorem sdhRxFrame_good (hgood : patternErrored (stmN x.typ) f.octets = false) (hn : 0 < x.sdh.nOof) :
    PortRow p (.sdhRxFrame p f) s fun _ y => y.fr = { x.fr with errRun := 0 } ∧ y.rxF = x.rxF.next s.clock.now
      ∧ y.sdh.b1 = some (bip8 f.octets) ∧ y.sdh.b2 = some (bip24 (stmN x.typ) (sdhScramble (stmN x.typ) f.octets))
      ∧ ((ohOfFrame x f).poisoned = false → y.sdh.k = x.sdh.k.step 3 (ohOfFrame x f).k s.clock.now
          ∧ y.sdh.s1 = x.sdh.s1.step 8 (ohOfFrame x f).s1.toNat s.clock.now)
      ∧ ((ohOfFrame x f).poisoned = true → y.sdh.k = x.sdh.k ∧ y.sdh.s1 = x.sdh.s1) := by
  refine (sdhRxFrame_processed hs hx hsdh hst (if_neg (by rw [hgood]; exact Bool.false_ne_true)) hn).imp fun _ y h => ?_
  have hk : y.sdh.k = _ := congrArg SdhRx.k h
  have hs1 : y.sdh.s1 = _ := congrArg SdhRx.s1 h
  rw [hk, hs1]
  exact ⟨congrArg SdhRx.fr h, congrArg SdhRx.rxF h, congrArg SdhRx.b1 h,
    (congrArg SdhRx.b2 h).trans (takes_b2 x f s.clock.now _),
    fun hclean => takes_clean hclean s.clock.now _, fun hbad => takes_poisoned hbad s.clock.now _⟩

end

/-! ### LOM of a path (04 R108) -/

theorem hasDef_tuWords (n : Nat) (t : Time) (d : Dev) (k : Nat) (x : Def) :
    hasDef (tuWords n t d) k x = hasDef d k x := hasDef_setWords ..

theorem trib_tuWords {n m : Nat} {y : Trib} {d : Dev} (t : Time) (hy : d.trib m = some y) (ho : isOdu y.typ = false) :
    (tuWords n t d).trib m = some y := (signalFrame_setWords (ps := noPort) ..).trib m y hy ho

/-- A tributary whose LOM is what an aligner's state makes it. -/
def Trib.takesLom (m : MfAlign) (y : Trib) : Trib := { y with h4 := { m with lom := !m.im } }

/-- LOM follows OOM and IM after 8 frames (04 R108). -/
theorem sdhLomChange_follows {n : Nat} {z : Trib} {s : State} (hs : Runs s) (hz : s.dev.trib n = some z) (hlo : 0x10 ≤ z.typ)
    (hhi : z.typ ≤ 0x12) (ha : 8 ≤ z.h4.accum) (hl : z.h4.lom = z.h4.im) :
    ∃ d y, exec (.sdhLomChange n) s = .next (withDev s d) ∧ d.trib n = some y ∧ y.h4 = { z.h4 with lom := !z.h4.im }
      ∧ hasDef d (pathKey n) .lom = !z.h4.im := by
  have hexec : exec (.sdhLomChange n) s
      = .next (withDev s (tuWords n s.clock.now (setDef (pathKey n) .lom (!z.h4.im) s.clock.now
        (s.dev.modTrib n (Trib.takesLom z.h4))))) := by
    refine (run_gRun _ s hs).trans ?_
    simp only [hz, hlo, hhi, hl, Nat.not_lt.2 ha, decide_true, decide_false, Bool.and_self, Bool.not_true, bne_self_eq_false,
      Bool.or_self, Bool.false_eq_true, if_false]
    rfl
  have hself : (setDef (pathKey n) .lom (!z.h4.im) s.clock.now
      (s.dev.modTrib n (Trib.takesLom z.h4))).trib n = some (z.takesLom z.h4) := by
    rw [trib_setDef, trib_modTrib, if_pos rfl, hz]; rfl
  have hvc : isOdu z.typ = false := by simp only [isOdu, Bool.and_eq_false_iff, decide_eq_false_iff_not]; omega
  exact ⟨_, _, hexec, trib_tuWords s.clock.now hself hvc, rfl, (hasDef_tuWords ..).trans (hasDef_setDef_lom ..)⟩

end Sys2Proof.Machine
end

section
/-!
SUPPORT. A transmitted SDH frame leaves the ports as they are until it is sent (04 R89-R95, R105).
-/
namespace Sys2Proof.Machine
open Safety

/-! ### What the parts of a frame leave -/

theorem ports_addCnt (k num n : Nat) (d : Dev) : (addCnt k num n d).fab.ports = d.fab.ports := by rw [addCnt_fab]

theorem ports_takeOctets (n k : Nat) (d : Dev) : (takeOctets n k d).2.fab.ports = d.fab.ports := rfl

theorem ports_traceOctet (tr : Trace) (i : Nat) (d : Dev) : (traceOctet tr i d).2.fab.ports = d.fab.ports := by
  unfold traceOctet; split <;> rfl

theorem ports_boundBytes (ns : List Nat) (group k : Nat) (d : Dev) :
    (boundBytes ns group k d).2.fab.ports = d.fab.ports := by
  unfold boundBytes
  split
  · rfl
  · simp only [ports_takeOctets, setTxWaiting_fab, onFab_fab, ports_addCnt, modTrib_fab]

theorem ports_groupBytes (p : Nat) (x : Port) (f : Nat) (d : Dev) : (groupBytes p x f d).2.fab.ports = d.fab.ports := by
  unfold groupBytes
  dsimp only
  split
  · rfl
  · exact ports_boundBytes ..
  · rfl
  · rfl

theorem ports_supply (n len : Nat) (d : Dev) : (supply n len d).fab.ports = d.fab.ports := by
  unfold supply; split <;> rfl

theorem ports_ptrOctets (u pre mid post kind : Nat) (take : Nat → Dev → List Octet × Dev)
    (ht : ∀ k d, (take k d).2.fab.ports = d.fab.ports) (d : Dev) :
    (ptrOctets u pre mid post kind take d).2.fab.ports = d.fab.ports := by
  unfold ptrOctets
  dsimp only
  split <;> split <;> simp only [ht]

theorem ports_vcFrameTx (n u pre mid post : Nat) (d : Dev) : (vcFrameTx n u pre mid post d).2.fab.ports = d.fab.ports := by
  unfold vcFrameTx
  split
  · rfl
  · have hsupply := fun len => ports_supply n len (takeSig n (refreshBack n d))
    dsimp only
    split
    · exact hsupply _
    · rw [modTrib_fab, ports_ptrOctets _ _ _ _ _ _ (ports_takeOctets n)]
      have hcount : ∀ (c : Prop) [Decidable c] (k num : Nat) (e : Dev),
          (if c then e else addCnt k num 1 e).fab.ports = e.fab.ports := by
        intro c _ k num e
        split
        · rfl
        · exact ports_addCnt ..
      split
      · rw [modTrib_fab, onFab_fab, ports_takeOctets, hcount]; exact hsupply _
      · rw [ports_takeOctets, hcount]; exact hsupply _

theorem ports_auTx (p : Nat) (x : Port) (acc : List (Nat × Octet) × Dev) (key : Nat) :
    (auTx p x acc key).2.fab.ports = acc.2.fab.ports := by
  unfold auTx
  dsimp only
  split
  · rfl
  · split
    · rfl
    · exact ports_vcFrameTx ..

theorem ports_ausTx (p : Nat) (x : Port) (d : Dev) : (ausTx p x d).2.fab.ports = d.fab.ports := by
  unfold ausTx
  dsimp only
  split
  · rfl
  · exact foldl_keeps (fun acc : List (Nat × Octet) × Dev => acc.2.fab.ports) _ (ports_auTx p x) _ _

theorem ports_portReads (types : Nat → Bool) (p : Nat) {hits : List (Nat × LaneWord)} (t : Time) (d : Dev)
    (hh : ∀ e ∈ hits, (stageRead e.2).2 = false) : (portReads types p hits t d).fab.ports = d.fab.ports := by
  obtain ⟨-, q, hq⟩ := readWaiting_clean (0x20 + lgOfPort d p) p
    (fun y _ => y.port == some p && (d.port p).any fun x => types x.typ) hits t d hh
  rw [portReads, hq]

/-! ### The overhead and the frame sent -/

/-- The byte groups of a frame by their sources, and the device once they are taken. -/
def groupsTx (p : Nat) (x : Port) (d : Dev) : Tbl (List Octet) × Dev :=
  [0, 1, 2, 3, 4, 0x11].foldl (fun (acc : Tbl (List Octet) × Dev) f =>
    let (os, d) := groupBytes p x f acc.2
    (acc.1 ++ [(f, os)], d)) ([], d)

theorem ports_groupsTx (p : Nat) (x : Port) (d : Dev) : (groupsTx p x d).2.fab.ports = d.fab.ports :=
  foldl_keeps (fun acc : Tbl (List Octet) × Dev => acc.2.fab.ports) _ (fun acc f => ports_groupBytes p x f acc.2) _ _

theorem groupsTx_b1 (p : Nat) (x : Port) (d : Dev) (j0 k s1 : List Octet) (b1 : List Octet) (r : Tbl (List Octet)) :
    tget ((groupsTx p x d).1 ++ ((0x10, j0) :: (0x12, k) :: (0x13, s1) :: (0x20, b1) :: r)) 0x20 = some b1 := rfl

/-- A port `y` once a frame of some octets before scrambling is sent as port `x` sends it: B1 covers the octets of the line,
B2 those before scrambling (04 R91, R92). -/
def Port.sends (x : Port) (back : Bool) (len k : Nat) (oh : Tbl (List Octet)) (os : List Octet) (y : Port) : Port :=
  { y with
    backward := back
    sdh := { y.sdh with
      txJ0 := (y.sdh.txJ0 + 1) % len, kPass := if kPasses x then k else y.sdh.kPass, txOh := oh
      txLine := sdhScramble (stmN x.typ) os, txB1 := bip8 (sdhScramble (stmN x.typ) os), txB2 := bip24 (stmN x.typ) os } }

theorem port_eq_of_ports {d e : Dev} (h : e.fab.ports = d.fab.ports) : e.port = d.port := by unfold Dev.port; rw [h]

theorem ports_j0Tx (c : Prop) [Decidable c] (o : Octet) (tr : Trace) (i : Nat) (d : Dev) :
    (if c then (o, d) else traceOctet tr i d).2.fab.ports = d.fab.ports := by
  split
  · rfl
  · exact ports_traceOctet ..

section
variable {p : Nat} {x : Port} {s : State} (hs : Runs s) (hx : s.dev.port p = some x) (hsdh : isSdh x.typ = true)
  {hits : List (Nat × LaneWord)} (hh : ∀ e ∈ hits, (stageRead e.2).2 = false)
include hs hx hsdh hh

/-- The frame that a port sends carries the B1 of the frame before it (04 R91). -/
theorem sdhTxFrame_eq : ∃ (d : Dev) (back : Bool) (len k : Nat) (oh : Tbl (List Octet)) (os : List Octet),
    exec (.sdhTxFrame p hits) s
        = .next (withDev s (txFrame p s.clock.now (d.modPort p (Port.sends x back len k oh os))))
      ∧ d.fab.ports = s.dev.fab.ports ∧ tget oh 0x20 = some [x.sdh.txB1] := by
  have hread := ports_portReads isSdh p s.clock.now s.dev hh
  have hx' : (portReads isSdh p hits s.clock.now s.dev).port p = some x := by rw [port_eq_of_ports hread]; exact hx
  have hexec : exec (.sdhTxFrame p hits) s = _ := run_gRun _ s hs
  simp only [hx', hsdh, Bool.not_true, Bool.false_eq_true, if_false] at hexec
  refine ⟨_, _, _, _, _, _, hexec, ?_, groupsTx_b1 ..⟩
  exact (ports_ausTx ..).trans ((ports_groupsTx ..).trans ((ports_j0Tx ..).trans hread))

theorem sdhTxFrame_sends : PortRow p (.sdhTxFrame p hits) s fun _ y => y.txF = x.txF.next s.clock.now
    ∧ tget y.sdh.txOh 0x20 = some [x.sdh.txB1] ∧ y.sdh.txB1 = bip8 y.sdh.txLine
    ∧ y.sdh.txB2 = bip24 (stmN x.typ) (sdhScramble (stmN x.typ) y.sdh.txLine) ∧ y.fr = x.fr := by
  obtain ⟨d, back, len, k, oh, os, hexec, hports, hb1⟩ := sdhTxFrame_eq hs hx hsdh hh
  refine portRow_of_modPort hexec hx (fun y => { Port.sends x back len k oh os y with txF := y.txF.next s.clock.now }) ?_
    ⟨rfl, hb1, rfl, ?_, rfl⟩
  · rw [txFrame, port_modPort_modPort]
    unfold Dev.port
    rw [modPort_fab, hports]
    rfl
  · simp only [Port.sends, sdhScramble_sdhScramble]

end
end Sys2Proof.Machine
end

section
/-!
PROOFS. SDH framing (04 R83-R108): the framer by its frames, the transmitter by the frame it sends, and each command by the
effect of its change.
-/
namespace Sys2Proof.Machine
open Safety

/-! ### TRACE_SET (04 R98, R111) -/

/-- A trace record that takes up the message of a TRACE_SET. -/
def Change.putTrace (c : Change) (r : Trace) : Trace :=
  r.put (bitAt (c.w 5) 23) (fld (c.w 5) 22 21) (traceOctets c.msgs (traceLen (fld (c.w 5) 31 24) (fld (c.w 5) 22 21)))

/-- A port's trace is J0 or the TTI of its OTUk, by the code. -/
def Port.takesTrace (c : Change) (x : Port) : Port :=
  if fld (c.w 5) 31 24 = 0x01 then { x with sdh := { x.sdh with j0 := c.putTrace x.sdh.j0 } }
  else { x with otn := { x.otn with tti := c.putTrace x.otn.tti } }

/-- A tributary's trace is the one of the code. -/
def Trib.takesTrace (c : Change) (x : Trib) : Trib :=
  { x with traces := tmod x.traces (fld (c.w 5) 31 24) {} c.putTrace }

/-- The device once a trace is taken up, before it is compared. -/
def takeTrace (c : Change) (d : Dev) : Dev :=
  match tOrPort (c.w 4) with
  | .port p => d.modPort p (Port.takesTrace c)
  | .trib n => d.modTrib n (Trib.takesTrace c)
  | _ => d

/-- The comparison of a trace changes neither ports nor tributaries. -/
theorem traceSet_apply (c : Change) (p : Part) (t : Time) (d : Dev) :
    (cmdTraceSet.apply c p t d).port = (takeTrace c d).port ∧ (cmdTraceSet.apply c p t d).trib = (takeTrace c d).trib := by
  have happly : cmdTraceSet.apply c p t d = if !bitAt (c.w 5) 23 || fld (c.w 5) 31 24 = 0x10 then takeTrace c d
      else setTim (traceKey (c.w 4) (fld (c.w 5) 31 24)) (traceDef (fld (c.w 5) 31 24)) (decide (fld (c.w 5) 31 24 ≤ 3))
        (some (traceOctets c.msgs (traceLen (fld (c.w 5) 31 24) (fld (c.w 5) 22 21))))
        (traceAcc (takeTrace c d) (c.w 4) (fld (c.w 5) 31 24)) t (takeTrace c d) := rfl
  rw [happly]
  split
  · exact ⟨rfl, rfl⟩
  · exact ⟨port_setDef .., trib_setDef ..⟩

theorem port_takeTrace {c : Change} {q : Nat} {y : Port} {d : Dev} (ho : tOrPort (c.w 4) = .port q) (hy : d.port q = some y) :
    (takeTrace c d).port q = some (y.takesTrace c) := by
  simp only [takeTrace, ho]
  rw [port_modPort, if_pos rfl, hy]
  rfl

theorem trib_takeTrace {c : Change} {n : Nat} {y : Trib} {d : Dev} (ho : tOrPort (c.w 4) = .trib n) (hy : d.trib n = some y) :
    (takeTrace c d).trib n = some (y.takesTrace c) := by
  simp only [takeTrace, ho]
  rw [trib_modTrib, if_pos rfl, hy]
  rfl

theorem takesTrace_j0 {c : Change} (y : Port) (h : fld (c.w 5) 31 24 = 1) :
    (y.takesTrace c).sdh.j0 = c.putTrace y.sdh.j0 ∧ (y.takesTrace c).otn.tti = y.otn.tti := by
  rw [Port.takesTrace, if_pos h]; exact ⟨rfl, rfl⟩

theorem takesTrace_tti {c : Change} (y : Port) (h : fld (c.w 5) 31 24 ≠ 1) :
    (y.takesTrace c).otn.tti = c.putTrace y.otn.tti ∧ (y.takesTrace c).sdh.j0 = y.sdh.j0 := by
  rw [Port.takesTrace, if_neg h]; exact ⟨rfl, rfl⟩

theorem carries_traceSet {P : Change → Prop} (hP : ∀ c, P c) : Carries .traceSet cmdTraceSet.ahead P :=
  carries_of_effect _ _ P (fun _ _ => rfl) rfl (by decide) (by decide) (fun _ _ => rfl) hP

/-! ### SDH_PORT_CONFIG and SDH_STRUCT_SET (04 R83, R101) -/

theorem carries_sdhPortConfig {P : Change → Prop} (hP : ∀ c, P c) : Carries .sdhPortConfig cmdSdhPortConfig.ahead P :=
  carries_of_effect _ _ P (fun _ _ => rfl) rfl (by decide) (by decide) (fun _ _ => rfl) hP

/-- A VC that takes its TUG codes. -/
def Trib.takesTugs (c : Change) (y : Trib) : Trib :=
  { y with tug3 := tug3Codes (c.w 5), tug2 := tug2Codes (c.w 6) (c.w 7) }

/-- A port that takes the AUG-1 codes of its transmit direction. -/
def Port.takesAugTx (c : Change) (y : Port) : Port :=
  { y with sdh := { y.sdh with augTx := (augCodes c.msgs).take (stmN y.typ) } }

/-- A port that takes the AUG-1 codes of its receive direction: its pointers start again. -/
def Port.takesAug (c : Change) (t : Time) (y : Port) : Port :=
  { y with sdh := { y.sdh with aug := (augCodes c.msgs).take (stmN y.typ), augTime := t, ptrs := [] } }

theorem sdhStructSet_trib {c : Change} {n : Nat} (ho : tOrPort (c.w 4) = .trib n) (o : Obj) (t : Time) (d : Dev) :
    cmdSdhStructSet.apply c (.frame o .rx) t d = d.modTrib n (Trib.takesTugs c) := by
  simp only [cmdSdhStructSet, ho]; rfl

theorem sdhStructSet_port_tx {c : Change} {q : Nat} (ho : tOrPort (c.w 4) = .port q) (o : Obj) (t : Time) (d : Dev) :
    cmdSdhStructSet.apply c (.frame o .tx) t d = d.modPort q (Port.takesAugTx c) := by
  simp only [cmdSdhStructSet, ho]; rfl

theorem sdhStructSet_port_rx {c : Change} {q : Nat} (ho : tOrPort (c.w 4) = .port q) (o : Obj) (t : Time) (d : Dev) :
    cmdSdhStructSet.apply c (.frame o .rx) t d = sdhWords q t (d.modPort q (Port.takesAug c t)) := by
  simp only [cmdSdhStructSet, ho]; rfl

theorem carries_sdhStructSet {P : Change → Prop} (hP : ∀ c, P c) : Carries .sdhStructSet cmdSdhStructSet.ahead P :=
  carries_of_effect _ _ P (fun _ _ => rfl) rfl (by decide) (by decide) (fun _ _ => rfl) hP

/-! ### SDH_OH_CONFIG (04 R90, R109) -/

/-- Labels that differ change no tributary. -/
theorem trib_labelDefects (n : Nat) (t : Time) (d : Dev) : (labelDefects n t d).trib = d.trib := by
  unfold labelDefects
  split
  · rfl
  · dsimp only
    split
    · rfl
    · rw [trib_setDef, trib_setDef]

/-- A VC that takes the source and value of a field. -/
def Trib.takesOh (f src v : Nat) (y : Trib) : Trib :=
  if f = 0x14 then { y with txLabel := if src = 0 then 0 else v }
  else if f = 0x15 then { y with expLabel := if src = 0 then none else some v }
  else { y with oh := tput y.oh f (src, v) }

theorem sdhOhConfig_port {c : Change} {q : Nat} (ho : tOrPort (c.w 4) = .port q) (p : Part) (t : Time) (d : Dev) :
    cmdSdhOhConfig.apply c p t d = d.modPort q fun y => { y with sdh := { y.sdh with
      oh := tput y.sdh.oh (fld (c.w 5) 31 24) (fld (c.w 5) 23 20, fld (c.w 5) 7 0) } } := by
  simp only [cmdSdhOhConfig, ho]

theorem sdhOhConfig_trib {c : Change} {n : Nat} (ho : tOrPort (c.w 4) = .trib n) (p : Part) (t : Time) (d : Dev) :
    (cmdSdhOhConfig.apply c p t d).trib
      = (d.modTrib n (Trib.takesOh (fld (c.w 5) 31 24) (fld (c.w 5) 23 20) (fld (c.w 5) 7 0))).trib := by
  unfold Trib.takesOh
  simp only [cmdSdhOhConfig, ho]
  split
  · rfl
  · split
    · exact trib_labelDefects ..
    · rfl

theorem carries_sdhOhConfig {P : Change → Prop} (hP : ∀ c, P c) : Carries .sdhOhConfig cmdSdhOhConfig.ahead P :=
  carries_of_effect _ _ P (fun _ _ => rfl) rfl (by decide) (by decide) (fun _ _ => rfl) hP

/-- Settles O33: the receiver by the pattern of its frames, what a frame leaves by the steps of its processing, the
transmitter by the scrambler that is its own inverse, and each command by the effect of its change. -/
theorem sdhFraming : Obligations.SdhFraming := by
  unfold Obligations.SdhFraming
  refine ⟨fun p x s hs hx hsdh => ?_, fun n z s hs hz hlo hhi ha hl => sdhLomChange_follows hs hz hlo hhi ha hl,
    carries_traceSet fun c p t d => ?_, carries_sdhPortConfig fun c p t d y hy => ?_,
    carries_sdhStructSet fun c o dir t d => ?_, carries_sdhOhConfig fun c p t d => ?_⟩
  · exact ⟨fun bits hst hb => sdhPatternFound_presync hs hx hsdh bits hst hb, fun f =>
      ⟨sdhRxFrame_presync_errored hs hx hsdh, sdhRxFrame_confirmed hs hx hsdh, fun hst => sdhRxFrame_lost hs hx hsdh hst,
        fun hst => sdhRxFrame_counted hs hx hsdh hst, fun hst => sdhRxFrame_good hs hx hsdh hst⟩,
      fun hl ht => sdhLofChange_follows hs hx hsdh hl ht, fun hits => ⟨_, run_gRun _ s hs⟩,
      fun hits hh => sdhTxFrame_sends hs hx hsdh hh⟩
  · obtain ⟨hport, htrib⟩ := traceSet_apply c p t d
    intro w code put d'
    refine ⟨fun q y ho hy => ?_, fun n y ho hy => ?_⟩
    · exact ⟨_, (congrFun hport q).trans (port_takeTrace ho hy), takesTrace_j0 y, takesTrace_tti y⟩
    · exact ⟨_, (congrFun htrib n).trans (trib_takeTrace ho hy), tgetD_tmod_self ..,
        fun k hk => tgetD_tmod_ne _ _ _ _ hk⟩
  · exact ⟨by rw [cmdSdhPortConfig, port_modPort, if_pos rfl, hy]; rfl, fun q hq => (port_modPort ..).trans (if_neg hq)⟩
  · refine ⟨fun n y ho hdir hy => ?_, fun q y ho hy => ?_⟩
    · cases dir with
      | tx => exact absurd rfl hdir
      | rx => rw [sdhStructSet_trib ho, trib_modTrib, if_pos rfl, hy]; rfl
    · cases dir with
      | tx =>
        rw [sdhStructSet_port_tx ho, port_modPort, if_pos rfl, hy]
        exact ⟨_, rfl, fun _ => rfl, fun h => absurd rfl h⟩
      | rx =>
        rw [sdhStructSet_port_rx ho, port_sdhWords, port_modPort, if_pos rfl, hy]
        exact ⟨_, rfl, fun h => Dir.noConfusion h, fun _ => rfl⟩
  · refine ⟨fun q y ho hy => ?_, fun n y ho hy => ?_⟩
    · rw [sdhOhConfig_port ho, port_modPort, if_pos rfl, hy]; rfl
    · rw [sdhOhConfig_trib ho, trib_modTrib, if_pos rfl, hy]; rfl

end Sys2Proof.Machine
end

section
/-!
PROOFS. FIFOs (08 R195-R208): the refutation of O45. The statement bounds neither the number of the FIFO nor those of the
tributaries. The table of FIFOs is keyed by class × 2^20 + number, so the receive store of a tributary from 2^20 on has the key
of a FIFO of another class, and a word read from that FIFO for the tributary returns to where it was read. Bounding the
command's own FIFO is not enough: the read refuted here is of a FIFO that the device has, by a well-formed command.
-/
namespace Sys2Proof.Machine
open Safety

/-- A read of a FIFO that exists does what its reader does, wherever the fixed domain is powered. -/
theorem fifoRead_eq (f : FifoId) (hit : Option LaneWord) {s : State} (hs : FabOn s) (hf : fifoExists s.dev f = true) :
    exec (.fifoRead f hit) s = .next (withDev s (readFifo f hit s.clock.now s.dev)) :=
  (run_gFab _ s hs).trans (by rw [if_pos hf])

/-- The device after such a read is the one that its reader leaves. -/
theorem eq_readFifo_of_fifoRead {f : FifoId} {hit : Option LaneWord} {s : State} {d : Dev} (hs : FabOn s)
    (hf : fifoExists s.dev f = true) (h : exec (.fifoRead f hit) s = .next (withDev s d)) :
    d = readFifo f hit s.clock.now s.dev := by
  rw [fifoRead_eq f hit hs hf] at h
  injection h with hstate
  exact (congrArg State.dev hstate).symm

/-- Cross-connect FIFO 0 holds one word, for the tributary whose receive store has the FIFO's own key. -/
def sharedKeyState (w : LaneWord) : State :=
  let n := fifoKey ⟨.xc, 0⟩
  { dev := { fab := {
      xcCtx := [(0, some n)], tribs := [(n, { typ := 0x20 })]
      fifos := [(n, { depth := 4, entries := [w], committed := 1 })] } } }

/-- The receive store of tributary 4 × 2^20 is, by its key, cross-connect FIFO 0, and holds the word. -/
theorem fifoOf_sharedKeyState (w : LaneWord) :
    fifoOf (sharedKeyState w).dev ⟨.xc, 0⟩ = { depth := 4, entries := [w], committed := 1 }
      ∧ fifoOf (sharedKeyState w).dev ⟨.esRx, 4 * 2 ^ 20⟩ = { depth := 4, entries := [w], committed := 1 } := ⟨rfl, rfl⟩

/-- The word read from the FIFO is delivered into it again. -/
theorem readFifo_sharedKeyState :
    let s := sharedKeyState (lw tagData 7)
    (fifoOf (readFifo ⟨.xc, 0⟩ none s.clock.now s.dev) ⟨.xc, 0⟩).entries = [lw tagData 7] := by decide

/-- Refutes O45: cross-connect FIFO 0 holds one word, for tributary 4 × 2^20, whose receive store has the FIFO's own key; after
the read of that word the FIFO holds it still, where the statement has it empty. -/
theorem not_fifos : ¬ Obligations.Fifos := by
  unfold Obligations.Fifos
  intro h
  have hs : Runs (sharedKeyState (lw tagData 7)) := ⟨rfl, rfl⟩
  have hf : fifoExists (sharedKeyState (lw tagData 7)).dev ⟨.xc, 0⟩ = true := rfl
  have hdata : lwTag (lw tagData 7) ≠ tagGap := by decide
  have hclean : (stageRead (lw tagData 7)).2 = false := rfl
  obtain ⟨hq, -⟩ := fifoOf_sharedKeyState (lw tagData 7)
  obtain ⟨-, hwords, -⟩ := h ⟨.xc, 0⟩ _ hs hf
  obtain ⟨-, hreads, -⟩ := hwords rfl nofun
  obtain ⟨d, hd, ⟨hempty, -⟩, -⟩ := hreads (lw tagData 7) [] (by rw [hq]) (by rw [hq]; exact Nat.one_pos) hdata hclean
  rw [eq_readFifo_of_fifoRead hs.1 hf hd, readFifo_sharedKeyState] at hempty
  exact List.cons_ne_nil _ _ hempty

end Sys2Proof.Machine
end
